-- ==== Sys2Proof/Word.lean ====
section
/-! DEFINITION. Word.lean: the bit widths the spec of the VL7 names, and finite numbers the spec fixes (cores, controllers,
counters).  Bit-field helpers live in Machine/Bits.lean. -/
namespace Sys2Proof

/-- A byte of memory, of a frame or of a host buffer. -/
abbrev Byte := BitVec 8
/-- An FX32 word (R266). -/
abbrev Word := BitVec 32
/-- A 64-bit quantity (Tidemark, R72; handles; counters). -/
abbrev DWord := BitVec 64
/-- A string of bytes, first byte first. -/
abbrev Bytes := List Byte
/-- An FX32 general register number (R266). -/
abbrev Reg := Fin 32
/-- An FX32 core number: 0 to 31 service cores, 32 firmware, 33 media management (R263). -/
abbrev CoreId := Fin 34
/-- A loop level (R289). -/
abbrev LoopLevel := Fin 4
/-- A finite map from numbers, held as a list of pairs whose keys rise strictly (Machine/Maps.lean). -/
abbrev AMap (β : Type) := List (Nat × β)

end Sys2Proof
end

