-- ==== Sys2Proof/Syntax.lean ====
section
/-! DEFINITION. Syntax.lean: the commands of the block, one constructor per row of spec/opcode_table.json, and the plain data they carry. -/
namespace Sys2Proof

/-- The three parts (R1, R8). -/
inductive Variant where
  | vl7s | vl7m | vl7e
  deriving DecidableEq, Repr

/-- What the read of a protected word finds, apart from poison the model itself stored (R406). -/
inductive Ecc where
  | clean | corrected | uncorrectable
  deriving DecidableEq, Repr

/-- Who performs an operation on the dictionary (R462). -/
inductive Path where
  /-- In-band, by controller ID. -/
  | inband (ctrl : Nat)
  /-- AOP with an authenticated key 0 to 3 and a source IPv6 address. -/
  | aop (key src : Nat)
  /-- AOP with key ID 0xFF. -/
  | aopUnauth
  /-- MCTP, by endpoint ID. -/
  | mctp (eid : Nat)
  deriving DecidableEq, Repr

/-- How a sequencer decoded a codeword of a unit at worst (R373). -/
inductive Decode where
  /-- Hard decision at default levels. -/
  | hard
  /-- Read retry, by level. -/
  | retry (level : Nat)
  /-- Soft decision, of 2 or 3 bits. -/
  | soft (bits : Nat)
  /-- Every step failed. -/
  | fail
  deriving DecidableEq, Repr

/-- Whose flash page a program was (R359, R368). -/
inductive PageOf where
  /-- The page of the unit at a position of the write buffer. -/
  | buffer (k : Nat)
  /-- The page of a copy, by source band and number of the copy. -/
  | copy (band i : Nat)
  deriving DecidableEq, Repr

/-- How a page program ended (R368, R374). -/
inductive PageEnd where
  | pass
  /-- The program status reports failure. -/
  | programFail
  /-- The read-back of a copy fails (R368 step 2). -/
  | verifyFail
  deriving DecidableEq, Repr

/-- A mirrored metadata item (R365, R366). -/
inductive MetaItem where
  /-- A map checkpoint chunk, by internal namespace index and chunk. -/
  | mapChunk (ns chunk : Nat)
  /-- A journal page; `chunks` names the chunks whose replay needs it. -/
  | journalPage (chunks : List (Nat × Nat))
  /-- A firmware image, by slot 1 or 2. -/
  | firmware (slot : Nat)
  /-- A profile image. -/
  | profile (p : Nat)
  /-- A program image, by slot. -/
  | program (slot : Nat)
  /-- Any other item. -/
  | other
  deriving DecidableEq, Repr

/-- What following a command's data pointer comes to (R100, R120, R124). -/
inductive Xfer where
  /-- Every address can be used. -/
  | ok
  /-- A descriptor of a type that is not supported. -/
  | sglType
  /-- An SGL that describes fewer bytes than the length. -/
  | sglShort
  /-- UR, CA, poison or timeout on a PRP or SGL list. -/
  | listFault
  /-- UR, CA, poison or timeout on the data. -/
  | dataFault
  deriving DecidableEq, Repr

/-- A submission queue entry as the Host island fetches it (R123), with the host data its pointer names. -/
structure Cmd where
  /-- Tidemark of the fetch, ns. -/
  now : Nat
  /-- Controller ID. -/
  ctrl : Nat
  /-- Submission queue; 0 is the admin queue. -/
  sq : Nat
  /-- Command identifier. -/
  cid : Nat
  /-- OPC; a row stands for one opcode and fills it in itself. -/
  opc : Nat := 0
  /-- FUSE. -/
  fuse : Nat := 0
  /-- PSDT. -/
  psdt : Nat := 0
  /-- NSID. -/
  nsid : Nat := 0
  /-- Command dword 2. -/
  cdw2 : Nat := 0
  /-- Command dword 3. -/
  cdw3 : Nat := 0
  /-- Command dword 10. -/
  cdw10 : Nat := 0
  /-- Command dword 11. -/
  cdw11 : Nat := 0
  /-- Command dword 12. -/
  cdw12 : Nat := 0
  /-- Command dword 13. -/
  cdw13 : Nat := 0
  /-- Command dword 14. -/
  cdw14 : Nat := 0
  /-- Command dword 15. -/
  cdw15 : Nat := 0
  /-- True when CDW0 [13:10] or the unused pointer dwords are not 0 (R11). -/
  rsv : Bool := false
  /-- What the data pointer comes to. -/
  xfer : Xfer := .ok
  /-- The host's data, for commands that take data. -/
  data : Bytes := []
  deriving DecidableEq, Repr

/-- How an operation on the dictionary comes in. -/
inductive Via where
  /-- An in-band command (R464). -/
  | inband (c : Cmd)
  /-- An operation of another path, at a Tidemark; its frame or message has passed its own checks. -/
  | other (who : Path) (now : Nat)
  deriving DecidableEq, Repr

/-- A received IPv6 UDP frame that may carry AOP (R466). -/
structure AopFrame where
  /-- Source address. -/
  src : Nat
  /-- Source port. -/
  srcPort : Nat
  /-- Destination address. -/
  dst : Nat
  /-- Destination port. -/
  dstPort : Nat
  /-- Hop limit. -/
  hop : Nat
  /-- True for a fragment. -/
  fragment : Bool
  /-- True when the UDP checksum is right. -/
  checksumOk : Bool
  /-- The UDP payload. -/
  payload : Bytes
  deriving DecidableEq, Repr

/-- A bit of a function's configuration space. -/
inductive ConfigField where
  /-- Memory Space Enable. -/
  | memSpace
  /-- Bus Master Enable. -/
  | busMaster
  /-- ATS Enable (R92). -/
  | ats
  /-- PRI Enable (R94). -/
  | pri
  /-- PowerState: 1 = D3hot (R428). -/
  | d3hot
  /-- PME_En (R439). -/
  | pmeEn
  deriving DecidableEq, Repr

/-- What a join flit says (R505). -/
inductive JoinMsg where
  /-- A member asks to join: its ID, its variant code, its configured mode, and whether its PCIe link is up. -/
  | request (id variant mode : Nat) (link : Bool)
  /-- The master answers: its ID, the mode, and the refusal cause or 0. -/
  | answer (master mode cause : Nat)
  deriving DecidableEq, Repr

/-- A forward request as it arrives (R513 to R515). -/
structure FwdReq where
  /-- The member that sent it. -/
  src : Nat
  /-- The sender's tag. -/
  tag : Nat
  /-- 0 Stream Read, 1 Put, 2 Evict, 3 Lookup, 5 whole request in deepen mode. -/
  kind : Nat
  /-- Namespace identifier. -/
  nsid : Nat
  /-- CDW2. -/
  len : Nat := 0
  /-- A Put's storage slot, or a whole request's session slot. -/
  slot : Option Nat := none
  /-- A Put's KCV of that slot, or the generation that a whole request has bound. -/
  gen : Nat := 0
  /-- A Put's version tag, or a whole request's profile slot. -/
  ver : Nat := 0
  /-- A compressed Put; a Stream Read with SIZE. -/
  flag : Bool := false
  /-- A Stream Read that needs every unit. -/
  all : Bool := false
  /-- Object class of the profile. -/
  cls : Nat := 0
  /-- Object key with its namespace tag. -/
  key : Nat
  deriving DecidableEq, Repr

/-- Where the creation of a namespace comes from (R103, R510). -/
inductive NsOrigin where
  /-- The host; the list gives the namespace tags that exist on the other joined members. -/
  | host (tagsElsewhere : List Nat)
  /-- The cascade's master, which has created a cascade namespace: its identifier and its tag. -/
  | master (nsid tag : Nat)
  deriving DecidableEq, Repr

/-- A write to a register or an object that has no row of its own. -/
inductive RegWrite where
  /-- A dictionary object, by whatever path; the list names the objects whose cells fail their third verify (R461, R476). -/
  | object (v : Via) (idx sub ty off : Nat) (last : Bool) (data : Bytes) (noPersist : List Nat)
  /-- A memory write to BAR 0, 2 or 4 of a function; poisoned or not (R120). -/
  | bar (ctrl bar off : Nat) (data : Bytes) (poisoned : Bool)
  /-- A bit of a function's configuration space. -/
  | config (ctrl : Nat) (field : ConfigField) (on : Bool)
  /-- The MCTP endpoint ID of a peer reassigned (R483). -/
  | mctpEid (old : Nat)
  deriving DecidableEq, Repr

/-- The commands, in the order of the table. -/
inductive Instr where
  /-- POWER_ON_RESET (R57). -/
  | powerOnReset
  /-- SYS_RST_ASSERT (R57). -/
  | sysRstAssert (now low : Nat)
  /-- START (R538). -/
  | start (now id : Nat) (bifurc bootsrc perst0 perst1 katA katB : Bool) (restored : List Nat)
  /-- BOOT_IMAGE_VERIFY (R537). -/
  | bootImageVerify (now : Nat)
  /-- DRAM_TRAINING_DONE (R390). -/
  | dramTrainingDone (now : Nat) (sweeps : List (Fin 4 × Fin 10 × List Bool × List Bool)) (asConfigured : Bool) (temp : Word)
  /-- MOUNT_DONE (R380). -/
  | mountDone (now ce luns planes pages blocks cell metaBytes ms : Nat) (agree : Bool) (silent : List (Fin 16 × Nat))
  /-- PLP_ASSERT (R62). -/
  | plpAssert (now low : Nat)
  /-- POWER_FAIL_FLUSH_DONE (R62). -/
  | powerFailFlushDone (now : Nat) (complete : Bool)
  /-- POWER_RETURN (R64). -/
  | powerReturn (now : Nat)
  /-- RAIL_BROWNOUT (R48). -/
  | railBrownout (rail now : Nat)
  /-- THERMAL_TRIP (R56). -/
  | thermalTrip (sensor : Fin 24) (tj now : Nat)
  /-- ENTER_OFF (R431). -/
  | enterOff (v : Via)
  /-- PERST_ASSERT (R117). -/
  | perstAssert (port : Fin 2) (now : Nat)
  /-- LINK_DOWN (R117). -/
  | linkDown (port : Fin 2) (now : Nat)
  /-- LINK_UP (R89). -/
  | linkUp (port : Fin 2) (speed width now : Nat)
  /-- FLR (R117). -/
  | flr (ctrl now : Nat)
  /-- VF_ENABLE_SET (R111). -/
  | vfEnableSet (port : Fin 2) (now : Nat)
  /-- VF_ENABLE_CLEAR (R117). -/
  | vfEnableClear (port : Fin 2) (now : Nat)
  /-- NUMVFS_WRITE (R111). -/
  | numvfsWrite (port : Fin 2) (value now : Nat)
  /-- BUS_MASTER_ENABLE_CLEAR (R120). -/
  | busMasterEnableClear (ctrl now : Nat)
  /-- CC_ENABLE (R111). -/
  | ccEnable (ctrl now : Nat)
  /-- CC_DISABLE (R117). -/
  | ccDisable (ctrl now : Nat)
  /-- SQ_TAIL_DOORBELL (R81). -/
  | sqTailDoorbell (now ctrl qid value : Nat) (unknown : List Cmd)
  /-- CQ_HEAD_DOORBELL (R120). -/
  | cqHeadDoorbell (now ctrl qid value : Nat)
  /-- DMA_READ_COMPLETION (R120). -/
  | dmaReadCompletion (now ctrl sq cid : Nat) (list ok : Bool)
  /-- UNEXPECTED_COMPLETION (R120). -/
  | unexpectedCompletion (now ctrl : Nat) (header : Bytes)
  /-- COMPLETION_TIMEOUT (R120). -/
  | completionTimeout (now ctrl sq cid : Nat) (list : Bool)
  /-- PEER_FLUSH_READ_COMPLETE (R83). -/
  | peerFlushReadComplete (tag : Nat) (ok : Bool)
  /-- ATS_INVALIDATE (R93). -/
  | atsInvalidate (now ctrl tag page : Nat)
  /-- PAGE_REQUEST_RESPONSE (R94). -/
  | pageRequestResponse (ctrl tag code : Nat)
  /-- PAGE_REQUEST_TIMEOUT (R94). -/
  | pageRequestTimeout (ctrl tag now : Nat)
  /-- REGISTER_WRITE (R461). -/
  | registerWrite (now : Nat) (w : RegWrite)
  /-- CREATE_IO_SUBMISSION_QUEUE (R107). -/
  | createIoSubmissionQueue (c : Cmd)
  /-- DELETE_IO_SUBMISSION_QUEUE (R97). -/
  | deleteIoSubmissionQueue (c : Cmd)
  /-- CREATE_IO_COMPLETION_QUEUE (R107). -/
  | createIoCompletionQueue (c : Cmd)
  /-- DELETE_IO_COMPLETION_QUEUE (R97). -/
  | deleteIoCompletionQueue (c : Cmd)
  /-- GET_LOG_PAGE (R99). -/
  | getLogPage (c : Cmd)
  /-- IDENTIFY (R100). -/
  | identify (c : Cmd)
  /-- ABORT (R101). -/
  | abort (c : Cmd) (queued : Bool) (outstanding : Nat)
  /-- SET_FEATURES (R98). -/
  | setFeatures (c : Cmd)
  /-- GET_FEATURES (R98). -/
  | getFeatures (c : Cmd)
  /-- ASYNCHRONOUS_EVENT_REQUEST (R534). -/
  | asynchronousEventRequest (c : Cmd)
  /-- NAMESPACE_CREATE (R103). -/
  | namespaceCreate (c : Cmd) (origin : NsOrigin)
  /-- NAMESPACE_DELETE (R103). -/
  | namespaceDelete (c : Cmd)
  /-- NAMESPACE_ATTACH (R106). -/
  | namespaceAttach (c : Cmd)
  /-- NAMESPACE_DETACH (R106). -/
  | namespaceDetach (c : Cmd)
  /-- FIRMWARE_IMAGE_DOWNLOAD (R541). -/
  | firmwareImageDownload (c : Cmd)
  /-- FIRMWARE_COMMIT_WRITE (R542). -/
  | firmwareCommitWrite (c : Cmd)
  /-- FIRMWARE_COMMIT_ACTIVATE_NEXT (R542). -/
  | firmwareCommitActivateNext (c : Cmd)
  /-- FIRMWARE_COMMIT_SELECT_SLOT (R542). -/
  | firmwareCommitSelectSlot (c : Cmd)
  /-- FIRMWARE_COMMIT_RESTART (R542). -/
  | firmwareCommitRestart (c : Cmd)
  /-- FIRMWARE_SLOT_WRITE_DONE (R542). -/
  | firmwareSlotWriteDone (now : Nat)
  /-- FIRMWARE_ACTIVATION_RESTART (R542). -/
  | firmwareActivationRestart (now : Nat)
  /-- DEVICE_SELF_TEST (R97). -/
  | deviceSelfTest (c : Cmd) (result : Nat)
  /-- VIRTUALIZATION_MANAGEMENT (R109). -/
  | virtualizationManagement (c : Cmd)
  /-- NVME_MI_SEND (R97). -/
  | nvmeMiSend (c : Cmd) (len : Nat)
  /-- NVME_MI_RECEIVE (R97). -/
  | nvmeMiReceive (c : Cmd)
  /-- FORMAT_NVM (R377). -/
  | formatNvm (c : Cmd) (lbaf ses : Nat)
  /-- SANITIZE (R377). -/
  | sanitize (c : Cmd) (action : Nat)
  /-- OBJECT_READ (R464). -/
  | objectRead (c : Cmd)
  /-- OBJECT_WRITE (R464). -/
  | objectWrite (c : Cmd) (noPersist : List Nat)
  /-- TXN_BEGIN (R478). -/
  | txnBegin (v : Via)
  /-- TXN_COMMIT (R480). -/
  | txnCommit (v : Via)
  /-- TXN_ROLLBACK (R478). -/
  | txnRollback (v : Via)
  /-- TXN_TIMEOUT (R482). -/
  | txnTimeout (now : Nat)
  /-- KEY_SLOT_ALLOCATE (R201). -/
  | keySlotAllocate (c : Cmd)
  /-- KEY_SLOT_LOAD (R204). -/
  | keySlotLoad (c : Cmd)
  /-- KEK_LOAD (R205). -/
  | kekLoad (c : Cmd)
  /-- KEY_SLOT_ERASE (R211). -/
  | keySlotErase (c : Cmd)
  /-- GENERATION_BUSY_TIMEOUT (R210). -/
  | generationBusyTimeout (slot now : Nat)
  /-- CASCADE_REMOVE_MEMBER (R517). -/
  | cascadeRemoveMember (c : Cmd)
  /-- CASCADE_REBALANCE (R517). -/
  | cascadeRebalance (c : Cmd)
  /-- CASCADE_LOAD_KEK1 (R517). -/
  | cascadeLoadKek1 (c : Cmd)
  /-- CASCADE_STATUS (R518). -/
  | cascadeStatus (c : Cmd) (seen : List (Nat × Nat × Nat × Nat))
  /-- NVM_READ (R352). -/
  | nvmRead (c : Cmd) (slba nlb : Nat) (dec : List (Nat × Decode)) (fails : Nat) (mapBad : Option Nat)
  /-- NVM_WRITE (R359). -/
  | nvmWrite (c : Cmd) (slba nlb : Nat) (dec : List (Nat × Decode)) (fails : Nat)
  /-- FLUSH (R360). -/
  | flush (c : Cmd)
  /-- COMPARE (R100). -/
  | compare (c : Cmd) (slba nlb : Nat) (dec : List (Nat × Decode)) (fails : Nat) (mapBad : Option Nat)
  /-- WRITE_ZEROES (R376). -/
  | writeZeroes (c : Cmd) (slba nlb : Nat) (dec : List (Nat × Decode))
  /-- DATASET_MANAGEMENT (R376). -/
  | datasetManagement (c : Cmd) (deallocate : Bool) (ranges : List (Nat × Nat))
  /-- VERIFY (R100). -/
  | verify (c : Cmd) (slba nlb : Nat) (dec : List (Nat × Decode)) (fails : Nat) (mapBad : Option Nat)
  /-- RESERVATION_REGISTER (R106). -/
  | reservationRegister (c : Cmd) (action cptpl crkey nrkey : Nat) (iekey : Bool)
  /-- RESERVATION_REPORT (R106). -/
  | reservationReport (c : Cmd) (len : Nat)
  /-- RESERVATION_ACQUIRE (R106). -/
  | reservationAcquire (c : Cmd) (action crkey prkey rtype : Nat)
  /-- RESERVATION_RELEASE (R106). -/
  | reservationRelease (c : Cmd) (action crkey rtype : Nat)
  /-- KV_STORE (R102). -/
  | kvStore (c : Cmd) (key : Bytes) (mustExist noOverwrite : Bool) (fails : Nat)
  /-- KV_RETRIEVE (R102). -/
  | kvRetrieve (c : Cmd) (key : Bytes) (len : Nat) (dec : List (Nat × Decode)) (fails : Nat) (mapBad : Option Nat)
  /-- KV_DELETE (R376). -/
  | kvDelete (c : Cmd) (key : Bytes)
  /-- KV_EXIST (R105). -/
  | kvExist (c : Cmd) (key : Bytes)
  /-- KV_LIST (R102). -/
  | kvList (c : Cmd) (key : Bytes) (len : Nat)
  /-- LOAD_PROGRAM (R327). -/
  | loadProgram (c : Cmd) (slot : Nat) (mladide : Bool)
  /-- LOAD_PROGRAM_UNLOAD (R332). -/
  | loadProgramUnload (c : Cmd) (slot : Nat) (mladide : Bool)
  /-- ACTIVATE_PROGRAM (R331). -/
  | activateProgram (c : Cmd) (slot : Nat)
  /-- DEACTIVATE_PROGRAM (R331). -/
  | deactivateProgram (c : Cmd) (slot : Nat)
  /-- EXECUTE_PROGRAM (R340). -/
  | executeProgram (c : Cmd) (slot set_ : Nat)
  /-- MEMORY_RANGE_SET_MANAGEMENT (R334). -/
  | memoryRangeSetManagement (c : Cmd) (create : Bool) (id : Nat) (ranges : List (Nat × Nat × Nat))
  /-- SLM_READ (R333). -/
  | slmRead (c : Cmd) (off len : Nat) (ecc : List (Nat × Ecc))
  /-- SLM_WRITE (R333). -/
  | slmWrite (c : Cmd) (off : Nat) (ecc : Ecc)
  /-- MEMORY_COPY (R333). -/
  | memoryCopy (c : Cmd) (off : Nat) (sources : List (Nat × Nat × Nat)) (ecc : List (Nat × Ecc))
  /-- SESSION_OPEN (R130). -/
  | sessionOpen (c : Cmd)
  /-- SESSION_CLOSE (R132). -/
  | sessionClose (c : Cmd)
  /-- SESSION_QUERY (R134). -/
  | sessionQuery (c : Cmd)
  /-- SESSION_IDLE_CHECK (R133). -/
  | sessionIdleCheck (now : Nat)
  /-- OBJECT_PUT (R137). -/
  | objectPut (c : Cmd)
  /-- PUT_DATA_ARRIVAL (R189). -/
  | putDataArrival (tag u fails : Nat) (data : Bytes)
  /-- OBJECT_PUT_VALIDATE (R138). -/
  | objectPutValidate (tag now : Nat)
  /-- STREAM_READ (R22). -/
  | streamRead (c : Cmd) (bad : List Nat) (mapBad : Option Nat) (fault : Bool)
  /-- STREAM_READ_SIZE (R142). -/
  | streamReadSize (c : Cmd) (bad : List Nat) (mapBad : Option Nat)
  /-- LOOKUP (R146). -/
  | lookup (c : Cmd) (bad : List Nat)
  /-- OBJECT_EVICT (R145). -/
  | objectEvict (c : Cmd) (bad : List Nat)
  /-- FENCE (R149). -/
  | fence (c : Cmd)
  /-- UNIT_DECODE (R373). -/
  | unitDecode (tag u : Nat) (dec : Decode)
  /-- ESTUARY_ASSIGN (R187). -/
  | estuaryAssign (tag : Nat)
  /-- XTS_DECRYPT_UNIT (R189). -/
  | xtsDecryptUnit (tag u : Nat) (same : Bool)
  /-- BRAID_LENGTH_PASS (R167). -/
  | braidLengthPass (tag now : Nat) (poison : Bool)
  /-- BRAID_ASSEMBLY_PASS (R167). -/
  | braidAssemblyPass (tag now : Nat) (poison : Bool)
  /-- RIFFLE_DELIVERY_DECODE (R237). -/
  | riffleDeliveryDecode (tag : Nat) (poison : Bool)
  /-- ESTUARY_ENCRYPT_RANGE (R189). -/
  | estuaryEncryptRange (tag i : Nat) (same : Bool)
  /-- OUTPUT_DMA_DONE (R26). -/
  | outputDmaDone (tag now : Nat) (ok : Bool)
  /-- LOOKUP_WINDOW_KEY_WRITE (R153). -/
  | lookupWindowKeyWrite (now ctrl w : Nat) (off : Fin 16) (bytes : Bytes)
  /-- LOOKUP_WINDOW_RESULT (R153). -/
  | lookupWindowResult (now ctrl w : Nat) (bad : List Nat)
  /-- EDDY_PARITY_SCAN (R260). -/
  | eddyParityScan (now : Nat) (bad : List Nat)
  /-- EDDY_ENTRY_REWRITE (R260). -/
  | eddyEntryRewrite (a now : Nat)
  /-- EDDY_SEARCH (R258). -/
  | eddySearch (n : CoreId) (cmd : Nat) (bad : List Nat)
  /-- EDDY_INSERT (R258). -/
  | eddyInsert (n : CoreId) (cmd : Nat)
  /-- EDDY_WRITE (R258). -/
  | eddyWrite (n : CoreId) (cmd : Nat)
  /-- EDDY_INVALIDATE (R258). -/
  | eddyInvalidate (n : CoreId) (cmd : Nat)
  /-- EDDY_SETDATA (R258). -/
  | eddySetdata (n : CoreId) (cmd : Nat)
  /-- EDDY_READ (R258). -/
  | eddyRead (n : CoreId) (cmd : Nat)
  /-- EDDY_OPERATION_DONE (R258). -/
  | eddyOperationDone (n : CoreId)
  /-- SESSION_LABEL_SEARCH (R262). -/
  | sessionLabelSearch (v : Via) (value : Nat)
  /-- PARTITION_LAYOUT_WRITE (R249). -/
  | partitionLayoutWrite (v : Via) (p : Fin 8) (word : Nat)
  /-- RIFFLE_DECOMPRESS (R239). -/
  | riffleDecompress (i : Fin 2) (n : CoreId) (addr64 : Nat)
  /-- RIFFLE_COMPRESS (R239). -/
  | riffleCompress (i : Fin 2) (n : CoreId) (addr64 : Nat)
  /-- RIFFLE_CHECK (R239). -/
  | riffleCheck (i : Fin 2) (n : CoreId) (addr64 : Nat)
  /-- RIFFLE_DESCRIPTOR_DONE (R240). -/
  | riffleDescriptorDone (i : Fin 2)
  /-- PROFILE_IMAGE_WRITE (R180). -/
  | profileImageWrite (v : Via) (p : Fin 64) (off : Nat) (last : Bool) (data : Bytes)
  /-- PROFILE_UNDEFINE (R181). -/
  | profileUndefine (v : Via) (p : Fin 64)
  /-- PROGRAM_IMAGE_CHUNK (R330). -/
  | programImageChunk (v : Via) (slot : Fin 32) (data : Bytes)
  /-- PROGRAM_ACTION_LOAD (R330). -/
  | programActionLoad (v : Via) (slot : Fin 32)
  /-- PROGRAM_ACTION_ACTIVATE (R330). -/
  | programActionActivate (v : Via) (slot : Fin 32)
  /-- PROGRAM_ACTION_DEACTIVATE (R330). -/
  | programActionDeactivate (v : Via) (slot : Fin 32)
  /-- PROGRAM_ACTION_UNLOAD (R330). -/
  | programActionUnload (v : Via) (slot : Fin 32)
  /-- INVOCATION_DISPATCH (R341). -/
  | invocationDispatch (n : CoreId) (now : Nat)
  /-- PROGRAM_TIME_LIMIT (R342). -/
  | programTimeLimit (n : CoreId) (now : Nat)
  /-- HALTED_CORE_RESET (R345). -/
  | haltedCoreReset (n : CoreId) (now : Nat)
  /-- ESTUARY_RETURN_TO_SERVICE (R215). -/
  | estuaryReturnToService (v : Via) (unit : Nat)
  /-- KNOWN_ANSWER_TEST_DONE (R215). -/
  | knownAnswerTestDone (u : Fin 2) (passed : Bool)
  /-- SPRINGHEAD_ALARM (R217). -/
  | springheadAlarm (now cause : Nat)
  /-- KEY_STORE_UNLOCK (R218). -/
  | keyStoreUnlock (now : Nat)
  /-- MANAGEMENT_KEY_WRITE (R467). -/
  | managementKeyWrite (v : Via) (key : Fin 4) (value : Bytes)
  /-- AOP_FRAME (R472). -/
  | aopFrame (now : Nat) (f : AopFrame) (full : Bool) (noPersist : List Nat)
  /-- MCTP_OBJECT_REQUEST (R465). -/
  | mctpObjectRequest (now eid : Nat) (packetOk : Bool) (type count : Nat) (body : Bytes) (noPersist : List Nat)
  /-- WAKE_LATCH (R437). -/
  | wakeLatch (now ports other held levels : Nat) (frame : Bytes) (toSelf : Bool)
  /-- RTC_ALARM (R437). -/
  | rtcAlarm (now : Nat)
  /-- AUTO_DOZE (R429). -/
  | autoDoze (now : Nat)
  /-- DOZE_ENTRY (R433). -/
  | dozeEntry (now wake : Nat)
  /-- SLUMBER_ENTRY (R434). -/
  | slumberEntry (now : Nat)
  /-- SLUMBER_COMMIT_POINT (R434). -/
  | slumberCommitPoint (now late : Nat)
  /-- ISLAND_STAGE_RELEASE (R441). -/
  | islandStageRelease (now : Nat)
  /-- XTAL25_LOCK (R440). -/
  | xtal25Lock (now : Nat)
  /-- TIDEMARK_HANDOVER (R443). -/
  | tidemarkHandover (n : Nat)
  /-- WEIR_SAMPLE (R450). -/
  | weirSample (now : Nat) (temps : Vector Word 24) (volts0 volts1 power phy : Word) (late : Bool) (delayNs : Nat)
  /-- WEIR_FREEZE (R455). -/
  | weirFreeze (v : Via)
  /-- WEIR_UNFREEZE (R455). -/
  | weirUnfreeze (v : Via)
  /-- WEIR_LAW_ENABLE (R453). -/
  | weirLawEnable (v : Via) (noPersist : List Nat)
  /-- WEIR_LAW_DISABLE (R448). -/
  | weirLawDisable (v : Via) (noPersist : List Nat)
  /-- LIFE_RECORD_UPDATE (R55). -/
  | lifeRecordUpdate (now mean peak : Nat)
  /-- DRAM_READ_REQUEST (R402). -/
  | dramReadRequest (addr : Nat) (ecc : List (Nat × Ecc)) (cbBad : List Nat) (now : Nat)
  /-- DRAM_WRITE_REQUEST (R402). -/
  | dramWriteRequest (addr : Nat) (bytes : Bytes) (ecc : List (Nat × Ecc)) (cbBad : List Nat) (now : Nat)
  /-- REAL_TIME_BURST (R398). -/
  | realTimeBurst (addr n : Nat) (data : Option Bytes) (ns : Nat) (forced : Option (Fin 4)) (metStep : Bool) (now : Nat)
  /-- WRITE_AGE_DRAIN (R402). -/
  | writeAgeDrain (sub : Fin 4) (now : Nat)
  /-- REFSB_DUE (R393). -/
  | refsbDue (sub : Fin 4) (rank : Fin 2) (idx : Fin 4) (now : Nat)
  /-- REFSB_ISSUE (R394). -/
  | refsbIssue (sub : Fin 4) (rank : Fin 2) (idx : Fin 4) (now : Nat)
  /-- RFM_ISSUE (R397). -/
  | rfmIssue (sub : Fin 4) (bank now : Nat)
  /-- NEIGHBOUR_REFRESH (R396). -/
  | neighbourRefresh (sub : Fin 4) (now : Nat)
  /-- DRAM_TEMP_POLL (R393). -/
  | dramTempPoll (hot : List (Fin 4 × Fin 2)) (now : Nat)
  /-- CA_PARITY_ALERT (R389). -/
  | caParityAlert (sub : Fin 4) (now : Nat)
  /-- DRAM_RETRAIN_STEP (R391). -/
  | dramRetrainStep (sub : Fin 4) (passing : List Bool) (temp : Word) (now : Nat)
  /-- LANE_RETRY (R392). -/
  | laneRetry (sub : Fin 4) (passing : List Bool) (now : Nat)
  /-- WRITE_BACK (R409). -/
  | writeBack (i now : Nat)
  /-- WRITE_BACK_TIMEOUT (R409). -/
  | writeBackTimeout (i now : Nat)
  /-- REMAP_COPY (R412). -/
  | remapCopy (i : Nat) (ecc : List (Nat × Ecc)) (now : Nat)
  /-- BUCKET_LEAK (R417). -/
  | bucketLeak (now : Nat)
  /-- TRIPLICATE_VOTE (R419). -/
  | triplicateVote (repaired : Nat) (power remap layout : Bool) (now : Nat)
  /-- DREDGE_START (R420). -/
  | dredgeStart (v : Via)
  /-- DREDGE_STOP (R420). -/
  | dredgeStop (v : Via)
  /-- DREDGE_PASS_DONE (R423). -/
  | dredgePassDone (now : Nat) (ecc : List (Nat × Ecc)) (corrected : Nat) (reads : List (Nat × Decode)) (weak : List (Nat × Nat))
  /-- PERIODIC_DREDGE (R424). -/
  | periodicDredge (now : Nat) (target : Fin 3)
  /-- GAUGE_SNAPSHOT (R497). -/
  | gaugeSnapshot (v : Via)
  /-- GAUGE_RESET_ALL (R521). -/
  | gaugeResetAll (v : Via)
  /-- GAUGE_COUNTER_WRITE (R496). -/
  | gaugeCounterWrite (v : Via) (n : Fin 64) (value : Nat)
  /-- GAUGE_SOURCE_WRITE (R497). -/
  | gaugeSourceWrite (v : Via) (n : Fin 64) (source : Nat) (noPersist : List Nat)
  /-- PAGE_PROGRAM_DONE (R359). -/
  | pageProgramDone (p : PageOf) (r : PageEnd) (now : Nat)
  /-- FOLD_IDLE_TIMER (R361). -/
  | foldIdleTimer (now : Nat)
  /-- BAND_ERASE_DONE (R368). -/
  | bandEraseDone (band : Nat) (failed : List Nat) (now : Nat)
  /-- LUN_ANSWER_TIMEOUT (R374). -/
  | lunAnswerTimeout (ch : Fin 16) (row now : Nat)
  /-- JOURNAL_COMMIT (R363). -/
  | journalCommit (now n : Nat)
  /-- MAP_WORD_REBUILT (R355). -/
  | mapWordRebuilt (ns lu now : Nat)
  /-- METADATA_REMIRROR (R365). -/
  | metadataRemirror (i : MetaItem) (both : Bool) (now : Nat)
  /-- CONFLUENCE_PORT_TRAINED (R505). -/
  | confluencePortTrained (port : Fin 2) (lanes peer now : Nat)
  /-- JOIN (R505). -/
  | join (port : Fin 2) (m : JoinMsg) (now : Nat)
  /-- HEARTBEAT (R506). -/
  | heartbeat (port : Fin 2) (src : Nat) (losing : Bool) (now : Nat)
  /-- HEARTBEAT_SEND (R506). -/
  | heartbeatSend (now : Nat)
  /-- MASTER_LOST (R507). -/
  | masterLost (reach : List (Nat × Bool)) (now : Nat)
  /-- ELECTION_TIMEOUT (R506). -/
  | electionTimeout (reach : List (Nat × Bool)) (now : Nat)
  /-- FORWARD_REQUEST (R513). -/
  | forwardRequest (port : Fin 2) (f : FwdReq) (bad : List Nat) (mapBad : Option Nat) (now : Nat)
  /-- DATA_FLIT (R513). -/
  | dataFlit (port : Fin 2) (src t u : Nat) (fields : List Nat) (breach : Option (Fin 2)) (now : Nat)
  /-- FORWARD_COMPLETION (R514). -/
  | forwardCompletion (port : Fin 2) (src t sct sc dw0 dw1 now : Nat)
  /-- INDEX_LOOKUP (R513). -/
  | indexLookup (port : Fin 2) (src t op a key now : Nat)
  /-- INDEX_REPLY (R513). -/
  | indexReply (port : Fin 2) (src t : Nat) (found : Bool) (holder : Nat) (back : Bool) (bad : List Nat) (mapBad : Option Nat) (now : Nat)
  /-- KEY_RELAY (R515). -/
  | keyRelay (port : Fin 2) (src t opc : Nat) (fields : List Nat) (now : Nat)
  /-- PLACEMENT_UPDATE (R511). -/
  | placementUpdate (port : Fin 2) (src : Nat) (table : List Nat) (ms : List (Nat × Nat × Bool)) (now : Nat)
  /-- ABORT_FLIT (R516). -/
  | abortFlit (port : Fin 2) (src t now : Nat)
  /-- FORWARD_TIMEOUT (R516). -/
  | forwardTimeout (t now : Nat)
  /-- INDEX_REBUILD_DONE (R516). -/
  | indexRebuildDone (entries : List (Nat × Nat × Nat)) (bad : List Nat) (mapBad : Option Nat) (now : Nat)
  /-- PORT_RETRAIN (R494). -/
  | portRetrain (v : Via) (p : Fin 2)
  /-- INTERRUPT_TAKEN (R273). -/
  | interruptTaken (n : CoreId)
  /-- LOAD_DATA_RETURN (R277). -/
  | loadDataReturn (n : CoreId) (i : Nat)
  /-- PRODUCT_LANDS (R296). -/
  | productLands (n : CoreId)
  /-- QUOTIENT_LANDS (R297). -/
  | quotientLands (n : CoreId)
  /-- LINE_FILL_DONE (R284). -/
  | lineFillDone (n : CoreId) (glitches : Nat)
  /-- STORE_REFUSED (R278). -/
  | storeRefused (n : CoreId) (i : Nat)
  /-- TIMER_COMPARE (R271). -/
  | timerCompare (n : CoreId)
  /-- MBOX_POST (R283). -/
  | mboxPost (n : CoreId) (value : BitVec 64)
  /-- ADD (R304). -/
  | fxAdd (n : CoreId) (rd ra rb : Reg)
  /-- ADC (R304). -/
  | fxAdc (n : CoreId) (rd ra rb : Reg)
  /-- SUB (R304). -/
  | fxSub (n : CoreId) (rd ra rb : Reg)
  /-- SBC (R304). -/
  | fxSbc (n : CoreId) (rd ra rb : Reg)
  /-- NEG (R304). -/
  | fxNeg (n : CoreId) (rd ra : Reg)
  /-- CMP (R304). -/
  | fxCmp (n : CoreId) (ra rb : Reg)
  /-- AND (R304). -/
  | fxAnd (n : CoreId) (rd ra rb : Reg)
  /-- OR (R304). -/
  | fxOr (n : CoreId) (rd ra rb : Reg)
  /-- XOR (R304). -/
  | fxXor (n : CoreId) (rd ra rb : Reg)
  /-- TST (R304). -/
  | fxTst (n : CoreId) (ra rb : Reg)
  /-- CLZ (R304). -/
  | fxClz (n : CoreId) (rd ra : Reg)
  /-- BSWAP (R304). -/
  | fxBswap (n : CoreId) (rd ra : Reg)
  /-- SEXTB (R304). -/
  | fxSextb (n : CoreId) (rd ra : Reg)
  /-- SEXTH (R304). -/
  | fxSexth (n : CoreId) (rd ra : Reg)
  /-- LSL (R306). -/
  | fxLsl (n : CoreId) (rd ra rb : Reg)
  /-- LSR (R306). -/
  | fxLsr (n : CoreId) (rd ra rb : Reg)
  /-- ASR (R306). -/
  | fxAsr (n : CoreId) (rd ra rb : Reg)
  /-- ROR (R306). -/
  | fxRor (n : CoreId) (rd ra rb : Reg)
  /-- LSLI (R304). -/
  | fxLsli (n : CoreId) (rd ra : Reg) (sh : BitVec 5)
  /-- LSRI (R304). -/
  | fxLsri (n : CoreId) (rd ra : Reg) (sh : BitVec 5)
  /-- ASRI (R304). -/
  | fxAsri (n : CoreId) (rd ra : Reg) (sh : BitVec 5)
  /-- RORI (R304). -/
  | fxRori (n : CoreId) (rd ra : Reg) (sh : BitVec 5)
  /-- ADDI (R305). -/
  | fxAddi (n : CoreId) (rd ra : Reg) (imm : BitVec 16)
  /-- ANDI (R305). -/
  | fxAndi (n : CoreId) (rd ra : Reg) (imm : BitVec 16)
  /-- ORI (R305). -/
  | fxOri (n : CoreId) (rd ra : Reg) (imm : BitVec 16)
  /-- XORI (R305). -/
  | fxXori (n : CoreId) (rd ra : Reg) (imm : BitVec 16)
  /-- LUI (R305). -/
  | fxLui (n : CoreId) (rd : Reg) (imm : BitVec 16)
  /-- CMPI (R305). -/
  | fxCmpi (n : CoreId) (ra : Reg) (imm : BitVec 16)
  /-- MUL (R307). -/
  | fxMul (n : CoreId) (ra rb : Reg)
  /-- MULU (R307). -/
  | fxMulu (n : CoreId) (ra rb : Reg)
  /-- DIV (R308). -/
  | fxDiv (n : CoreId) (ra rb : Reg)
  /-- DIVU (R308). -/
  | fxDivu (n : CoreId) (ra rb : Reg)
  /-- DADD (R311). -/
  | fxDadd (n : CoreId) (rd ra rb : Reg)
  /-- DADC (R311). -/
  | fxDadc (n : CoreId) (rd ra rb : Reg)
  /-- DSUB (R311). -/
  | fxDsub (n : CoreId) (rd ra rb : Reg)
  /-- DSBC (R311). -/
  | fxDsbc (n : CoreId) (rd ra rb : Reg)
  /-- DADJ (R311). -/
  | fxDadj (n : CoreId) (rd ra : Reg)
  /-- DCVT (R311). -/
  | fxDcvt (n : CoreId) (rd ra : Reg)
  /-- DTXTL (R312). -/
  | fxDtxtl (n : CoreId) (rd ra : Reg)
  /-- DTXTH (R312). -/
  | fxDtxth (n : CoreId) (rd ra : Reg)
  /-- DLZ (R311). -/
  | fxDlz (n : CoreId) (rd ra : Reg)
  /-- LDB (R314). -/
  | fxLdb (n : CoreId) (rd ra : Reg) (mode : BitVec 2) (off : BitVec 14) (ecc : Ecc)
  /-- LDBU (R314). -/
  | fxLdbu (n : CoreId) (rd ra : Reg) (mode : BitVec 2) (off : BitVec 14) (ecc : Ecc)
  /-- LDH (R314). -/
  | fxLdh (n : CoreId) (rd ra : Reg) (mode : BitVec 2) (off : BitVec 14) (ecc : Ecc)
  /-- LDHU (R314). -/
  | fxLdhu (n : CoreId) (rd ra : Reg) (mode : BitVec 2) (off : BitVec 14) (ecc : Ecc)
  /-- LDW (R314). -/
  | fxLdw (n : CoreId) (rd ra : Reg) (mode : BitVec 2) (off : BitVec 14) (ecc : Ecc)
  /-- LDD (R315). -/
  | fxLdd (n : CoreId) (rd ra : Reg) (mode : BitVec 2) (off : BitVec 14) (ecc0 ecc1 : Ecc)
  /-- STB (R314). -/
  | fxStb (n : CoreId) (rs ra : Reg) (mode : BitVec 2) (off : BitVec 14) (ecc : Ecc)
  /-- STH (R314). -/
  | fxSth (n : CoreId) (rs ra : Reg) (mode : BitVec 2) (off : BitVec 14) (ecc : Ecc)
  /-- STW (R314). -/
  | fxStw (n : CoreId) (rs ra : Reg) (mode : BitVec 2) (off : BitVec 14)
  /-- STD (R315). -/
  | fxStd (n : CoreId) (rs ra : Reg) (mode : BitVec 2) (off : BitVec 14)
  /-- SWP (R316). -/
  | fxSwp (n : CoreId) (rd rb ra : Reg) (ecc : Ecc)
  /-- CAS (R316). -/
  | fxCas (n : CoreId) (rd rb ra : Reg) (ecc : Ecc)
  /-- BCC (R317). -/
  | fxBcc (n : CoreId) (cond : BitVec 4) (off : BitVec 22)
  /-- J (R317). -/
  | fxJ (n : CoreId) (off : BitVec 26)
  /-- CALL (R317). -/
  | fxCall (n : CoreId) (off : BitVec 26)
  /-- JR (R317). -/
  | fxJr (n : CoreId) (ra : Reg)
  /-- CALLR (R317). -/
  | fxCallr (n : CoreId) (ra : Reg)
  /-- LOOP (R318). -/
  | fxLoop (n : CoreId) (k : LoopLevel) (len : BitVec 11) (ra : Reg)
  /-- LOOPI (R318). -/
  | fxLoopi (n : CoreId) (k : LoopLevel) (len : BitVec 11) (count : BitVec 13)
  /-- REP (R292). -/
  | fxRep (n : CoreId) (next : Word)
  /-- REPI (R292). -/
  | fxRepi (n : CoreId) (next : Word)
  /-- MFS (R320). -/
  | fxMfs (n : CoreId) (rd : Reg) (spec : BitVec 6)
  /-- MTS (R320). -/
  | fxMts (n : CoreId) (spec : BitVec 6) (ra : Reg)
  /-- FENCE_W (R84). -/
  | fxFenceW (n : CoreId)
  /-- FENCE_R (R84). -/
  | fxFenceR (n : CoreId)
  /-- FENCE_RW (R84). -/
  | fxFenceRw (n : CoreId)
  /-- FENCE_I (R285). -/
  | fxFenceI (n : CoreId)
  /-- ERET (R273). -/
  | fxEret (n : CoreId)
  /-- WAIT (R275). -/
  | fxWait (n : CoreId)
  /-- SYS (R321). -/
  | fxSys (n : CoreId) (imm : BitVec 16)
  /-- BRK (R321). -/
  | fxBrk (n : CoreId) (imm : BitVec 16)
  /-- PERST_DEASSERT (R538). -/
  | perstDeassert (port : Fin 2) (now : Nat)
  /-- AUTONOMOUS_POWER_STATE_TRANSITION (R427). -/
  | autonomousPowerStateTransition (ctrl now : Nat)
  /-- LINK_L1_ENTRY (R429). -/
  | linkL1Entry (port : Fin 2) (now : Nat)
  /-- FLIT_REPLAY (R503). -/
  | flitReplay (port : Fin 2) (now : Nat)
  /-- CONFLUENCE_PORT_DOWN (R503). -/
  | confluencePortDown (port : Fin 2) (lost : List Nat) (now : Nat)
  /-- MALFORMED_TLP (R120). -/
  | malformedTlp (now ctrl : Nat) (header : Bytes)
  /-- BAR_READ (R120). -/
  | barRead (now ctrl bar off len : Nat)
  /-- TIDEMARK_STEP_RECOVERY (R75). -/
  | tidemarkStepRecovery (steps now : Nat)
  /-- UNDEFINED_INSTRUCTION (R300). -/
  | undefinedInstruction (n : CoreId) (w : Word)
  deriving DecidableEq, Repr

end Sys2Proof
end

