-- ==== Sys2Proof/Decode.lean ====
section
/-! DEFINITION. Decode.lean: the rows of spec/opcode_table.json give no bits to any command of this block, so no word spells one. -/
namespace Sys2Proof

/-- The command that a word of the table spells: no row gives bits. -/
def decodeTableWord (_nbits _w : Nat) : Option Instr := none

end Sys2Proof
end

