-- ==== Sys2Proof/Machine/Bits.lean ====
section
/-! DEFINITION. Machine/Bits.lean: byte order (R10), bit fields, and the check codes of the spec (CRC-8 R226, CRC-32C R284, the MPEG CRC
of container sections). -/
namespace Sys2Proof.Machine

/-- A function of a number, which the kernel evaluates before the function. -/
def forced {α : Type} (n : Nat) (f : Nat → α) : α :=
  match n with
  | 0 => f 0
  | k + 1 => f (k + 1)

/-- The low `n` bytes of a number, least significant first (little-endian, R10). -/
def leBytes : Nat → Nat → Bytes
  | 0, _ => []
  | n + 1, x => BitVec.ofNat 8 x :: leBytes n (x / 256)

/-- The number whose little-endian bytes these are (R10). -/
def leNat : Bytes → Nat
  | [] => 0
  | b :: bs => b.toNat + 256 * leNat bs

/-- The low `n` bytes of a number, most significant first. -/
def beBytes (n x : Nat) : Bytes := (leBytes n x).reverse

/-- The number whose big-endian bytes these are. -/
def beNat (bs : Bytes) : Nat := leNat bs.reverse

/-- Bits [hi:lo] of a number. -/
def bits (x hi lo : Nat) : Nat := (x / 2 ^ lo) % 2 ^ (hi + 1 - lo)

/-- Bit `i` of a number, as a truth value. -/
def bit (x i : Nat) : Bool := x.testBit i

/-- `len` bytes at offset `off`, with zeros past the end. -/
def slice (bs : Bytes) (off len : Nat) : Bytes :=
  let t := (bs.drop off).take len
  t ++ List.replicate (len - t.length) 0

/-- The little-endian field of `len` bytes at `off`. -/
def leField (bs : Bytes) (off len : Nat) : Nat := leNat (slice bs off len)

/-- A byte string padded with zeros, or cut, to `n` bytes. -/
def padTo (n : Nat) (bs : Bytes) : Bytes := slice bs 0 n

/-- `bs` with `patch` written at `off`, extended with zeros where it is shorter. -/
def overlay (bs : Bytes) (off : Nat) (patch : Bytes) : Bytes :=
  padTo off (bs.take off) ++ patch ++ bs.drop (off + patch.length)

/-- The bytes of a text in ASCII. -/
def ascii (s : String) : Bytes := s.toList.map fun c => BitVec.ofNat 8 c.toNat

/-- The least multiple of `m` at or above `x`. -/
def roundUp (x m : Nat) : Nat := (x + m - 1) / m * m

/-- `x / m` rounded up. -/
def ceilDiv (x m : Nat) : Nat := (x + m - 1) / m

/-- A number capped at `m`. -/
def sat (m x : Nat) : Nat := if x < m then x else m

/-- Sign extension of the low `n` bits of a word. -/
def signExt32 (n : Nat) (x : Nat) : Word := ((BitVec.ofNat n x).signExtend 32)

/-- Repeat a function. -/
def iter {α : Type} : Nat → (α → α) → α → α
  | 0, _, a => a
  | n + 1, f, a => iter n f (f a)

/-- One bit step of a most-significant-first CRC over `w` bits. -/
def crcStep (w poly c : Nat) : Nat := if c < 2 ^ (w - 1) then 2 * c else (2 * c - 2 ^ w) ^^^ poly

/-- One bit step of a least-significant-first CRC. -/
def crcStepR (poly c : Nat) : Nat := if c % 2 = 1 then (c / 2) ^^^ poly else c / 2

/-- Bit steps, `n` of them. -/
def crcBits (f : Nat → Nat) : Nat → Nat → Nat
  | 0, c => c
  | n + 1, c => forced (f c) fun c => crcBits f n c

/-- A CRC over bytes, each XORed in at a shift before its eight steps. -/
def crcBytes (f : Nat → Nat) (shift : Nat) : Bytes → Nat → Nat
  | [], c => c
  | b :: bs, c => forced (c ^^^ (b.toNat <<< shift)) fun c => forced (crcBits f 8 c) fun c => crcBytes f shift bs c

/-- CRC-8, polynomial 0x07, initial 0, most significant bit first (R226). -/
def crc8 (bs : Bytes) : BitVec 8 := BitVec.ofNat 8 (crcBytes (crcStep 8 0x07) 0 bs 0)

/-- CRC-32C: Castagnoli polynomial, reflected, initial and final XOR all ones (R284). -/
def crc32c (bs : Bytes) : Word := BitVec.ofNat 32 (crcBytes (crcStepR 0x82F63B78) 0 bs 0xFFFFFFFF) ^^^ 0xFFFFFFFF

/-- CRC-32 of MPEG-2 sections: polynomial 0x04C11DB7, initial all ones, no final XOR. -/
def crc32mpeg (bs : Bytes) : Word := BitVec.ofNat 32 (crcBytes (crcStep 32 0x04C11DB7) 24 bs 0xFFFFFFFF)

/-- The least value from `a` on, among `n` values, that satisfies a test. -/
def findFrom (p : Nat → Bool) (a : Nat) : Nat → Option Nat
  | 0 => none
  | n + 1 => if p a then some a else findFrom p (a + 1) n

/-- The least value below a bound that satisfies a test. -/
def findBelow (p : Nat → Bool) (n : Nat) : Option Nat := findFrom p 0 n

end Sys2Proof.Machine
end

