-- ==== Sys2Proof/Machine/Maps.lean ====
section
/-! DEFINITION. Machine/Maps.lean: finite maps from numbers as lists of pairs with rising keys. -/
namespace Sys2Proof.Machine

/-- The value held under a key. -/
def mapGet {β : Type} : AMap β → Nat → Option β
  | [], _ => none
  | (k, v) :: m, a => if a = k then some v else if a < k then none else mapGet m a

/-- The map with a value put under a key. -/
def mapSet {β : Type} : AMap β → Nat → β → AMap β
  | [], a, x => [(a, x)]
  | (k, v) :: m, a, x =>
    if a < k then (a, x) :: (k, v) :: m
    else if a = k then (a, x) :: m
    else (k, v) :: mapSet m a x

/-- The map without a key. -/
def mapErase {β : Type} : AMap β → Nat → AMap β
  | [], _ => []
  | (k, v) :: m, a =>
    if a < k then (k, v) :: m
    else if a = k then m
    else (k, v) :: mapErase m a

/-- The value under a key, or a default. -/
def mapGetD {β : Type} (m : AMap β) (a : Nat) (d : β) : β := (mapGet m a).getD d

/-- The map with a held value changed. -/
def mapUpdate {β : Type} (m : AMap β) (a : Nat) (f : β → β) : AMap β :=
  match mapGet m a with
  | some v => mapSet m a (f v)
  | none => m

/-- The keys that satisfy a test together with their values. -/
def mapFilter {β : Type} (m : AMap β) (p : Nat → β → Bool) : AMap β := m.filter fun kv => p kv.1 kv.2

/-- Every value changed in place. -/
def mapValues {β : Type} (m : AMap β) (f : Nat → β → β) : AMap β := m.map fun kv => (kv.1, f kv.1 kv.2)

/-- The least number below `bound` that is no key of the map. -/
def mapFreeKey {β : Type} (m : AMap β) (lo : Nat) : Nat → Option Nat
  | 0 => none
  | n + 1 => match mapGet m lo with
    | none => some lo
    | some _ => mapFreeKey m (lo + 1) n

/-- Keys rise strictly. -/
def mapWf {β : Type} : AMap β → Bool
  | [] => true
  | [_] => true
  | (k, _) :: (k', v') :: m => decide (k < k') && mapWf ((k', v') :: m)

end Sys2Proof.Machine
end

