-- ==== Sys2Proof/Config.lean ====
section
/-! DEFINITION. Config.lean: what an implementation fixes and the spec leaves open.  Each constant is opaque: nothing can be proved about
its value, so a claim holds whatever it is. -/
namespace Sys2Proof.Config

/-- The n-th free number: a value the spec leaves open and the machine goes on (Dev.freeCount counts them). -/
opaque freeNat : Nat → Nat
/-- The n-th free bit. -/
opaque freeBool : Nat → Bool
/-- The Pool bank that holds a Pool byte address; the spec gives no interleave (R65, R188). -/
opaque poolBank : Nat → Fin 16
/-- The Pool bank that holds a byte of a core's local memory (R263). -/
opaque localBank : Nat → Nat → Fin 16
/-- RAAIMT of the DDR5 device (R397); its value is the device's. -/
opaque raaimt : Nat
/-- RAAMMT of the DDR5 device (R397). -/
opaque raammt : Nat
/-- One step of the 64-bit generator of the DRAM island (R396). -/
opaque rngNext : BitVec 64 → BitVec 64
/-- Whether a state of that generator selects the activated row, for an exponent k (R396). -/
opaque rngSelect : BitVec 64 → Nat → Bool
/-- Which of several equally long matches the compressor's hash finds first: given the input position and the number of
candidates, an index (R233). -/
opaque riffleTie : Nat → Nat → Nat
/-- A byte of KID or CONST_IV in a segment whose request has bound no content key (R166 names none): by request tag and byte. -/
opaque unboundByte : Nat → Nat → BitVec 8
/-- KEK 0, the AES-256 key fused into the part (R198). -/
opaque kek0 : Bytes
/-- The Omastoz boot key, a P-384 point whose SHA-384 is fused into the part (R537). -/
opaque bootKey : Nat × Nat
/-- Whether an inexact Q16.16 product or quotient of Weir is rounded up, by its exact numerator (R447 and R452 state no rounding). -/
opaque weirRound : Int → Bool
/-- The measured ring frequency of Springhead as an offset into 204 to 276 MHz, by Tidemark (R65, R71). -/
opaque springheadMHz : Nat → Nat
/-- A number fixed at manufacture, by its object key (R490: boot ROM version, date of manufacture). -/
opaque factoryNum : Nat → Nat
/-- Octets fixed at manufacture, by object key (R484, R490: MAC address, serial number, NQN). -/
opaque factoryOct : Nat → Bytes
/-- Levels at the GPIO balls that are inputs, by Tidemark (R491): the board's. -/
opaque gpioLevel : Nat → Nat
/-- The real-time bound of R401 in ns where the spec gives no figure: by density and data rate. -/
opaque rtBound : Nat → Nat → Nat

end Sys2Proof.Config
end

