-- ==== Sys2Proof/Machine/State.lean ====
section
/-! DEFINITION. Machine/State.lean: everything the spec gives the VL7 (state as plain data), one structure per unit, and the
machine right after reset.  The value after ":=" of a field is its value at reset; each field's comment names the rule of spec/
that gives it.  Objects of the dictionary that only hold a number or a string live in `Dev.num` and `Dev.oct` under their own
index and subindex (R459); all other objects are computed from the unit's structure. -/
namespace Sys2Proof.Machine

/-- Why the block would stop with a fault.  No command of this spec stops the part: the type has the one constructor its form asks for,
and nothing raises it (safe). -/
inductive Fault where
  /-- Raised by nothing.  Safe. -/
  | none
  deriving DecidableEq, Repr

/-- Why a command is refused. -/
inductive Refusal where
  /-- Raised by the dispatcher for a command that has no meaning yet, by its mnemonic in the table.  Safe. -/
  | notModelled (mnemonic : String)
  deriving DecidableEq, Repr

/-! ## Dictionary rows (R459 to R461) -/

/-- Types of R460. -/
inductive ObjType where
  | bool | u8 | u16 | u32 | u64 | i32 | i64 | q16 | octets | vstring | bcd32
  deriving DecidableEq, Repr

/-- Access classes of R461. -/
inductive ObjAccess where
  | ro | rw | wo | rwp | rwt
  deriving DecidableEq, Repr

/-- One row of the object tables: the same subindices of a run of indices (R485, R486). -/
structure ObjRow where
  /-- First index. -/
  ilo : Nat
  /-- Last index. -/
  ihi : Nat
  /-- First subindex. -/
  slo : Nat
  /-- Last subindex. -/
  shi : Nat
  /-- Type. -/
  ty : ObjType
  /-- Access class. -/
  acc : ObjAccess
  /-- Kept in the PRA (R486). -/
  per : Bool
  /-- Default of a number; variant-dependent and instance-dependent defaults stand in Machine/Objects.lean. -/
  dflt : Nat
  /-- Least value. -/
  lo : Nat
  /-- Greatest value. -/
  hi : Nat
  /-- Bytes of the type, or the greatest length. -/
  len : Nat
  deriving DecidableEq, Repr

/-! ## Logs and Gauge (monitoring, R496 to R499, R520 to R528) -/

/-- One 64-byte log record (R525), field by field. -/
structure LogRec where
  /-- Sequence number, 32 bits (R498). -/
  seq : Nat
  /-- Class, 8 bits (R526); 255 is a continuation (R527). -/
  cls : Nat
  /-- Severity 0 notice, 1 warning, 2 error, 3 alarm (R525). -/
  sev : Nat
  /-- Code, 16 bits (R526). -/
  code : Nat
  /-- Tidemark of the occurrence (R525). -/
  first : Nat
  /-- Tidemark of the latest merged occurrence (R525, R528). -/
  last : Nat
  /-- Occurrences in the record, saturating at 65,535 (R525). -/
  repeats : Nat := 1
  /-- Controller, key, endpoint, member or region; 65,535 when none (R525). -/
  origin : Nat := 65535
  /-- Interface code 0 to 6 (R525). -/
  iface : Nat := 0
  /-- Continuation records that follow, 0 to 2 (R527). -/
  conts : Nat := 0
  /-- The Gauge source that counted it (R525). -/
  gauge : Nat := 0
  /-- The 32 detail bytes (R526). -/
  detail : Bytes := []
  deriving DecidableEq, Repr

/-- A log of at most 1,024 records (R498, R499). -/
structure EventLog where
  /-- Records held, newest first, at most 1,024 (R499). -/
  recs : List LogRec := []
  /-- Sequence number of the newest record, 32 bits (R498); numbered from 1 after SYS_RST_n. -/
  newest : Nat := 0
  /-- The selector 0xA0x0.04 (R498). -/
  selector : Nat := 0
  deriving DecidableEq, Repr

/-- One of the 64 Gauge counters (R496). -/
structure GaugeCounter where
  /-- Selected source, 0 to 511 (R496, R551). -/
  source : BitVec 9
  /-- Live count, 48 bits (R522). -/
  count : BitVec 48 := 0
  /-- The bit of 0x9000.03 (R522). -/
  overflow : Bool := false
  /-- Count at the last snapshot (R497). -/
  snap : BitVec 48 := 0
  deriving DecidableEq, Repr

/-- The source a never-written counter selects (R551). -/
def gaugeDefaultSource (n : Nat) : BitVec 9 :=
  if n < 32 then BitVec.ofNat 9 n
  else if n < 48 then BitVec.ofNat 9 (0x103 + 16 * (n - 32))
  else ([0x042, 0x049, 0x04A, 0x04C, 0x0BA, 0x0BD, 0x0E9, 0x0EB, 0x0EF, 0x0F0, 0x0F9, 0x0FA, 0x050, 0x074, 0x075,
    0x076] : List (BitVec 9)).getD (n - 48) 0

/-- Gauge (R496). -/
structure Gauge where
  /-- The 64 counters (R496). -/
  counters : Vector GaugeCounter 64 := Vector.ofFn fun i => { source := gaugeDefaultSource i.val }
  /-- Tidemark of the last snapshot, object 0x9000.02 (R496). -/
  snapAt : Nat := 0
  deriving DecidableEq, Repr

/-! ## Memory integrity (R405 to R425) -/

/-- An entry of a region's tracking table (R411). -/
structure TrackEntry where
  /-- Word address, as the memory's byte key divided by 4. -/
  word : Nat
  /-- Corrections since the first write-back. -/
  count : Nat := 0
  /-- Tidemark of the first write-back, once performed. -/
  firstWb : Option Nat := none
  /-- True once a write-back has been performed since the last correction (R411). -/
  wbDone : Bool := false
  /-- True for a hard-faulted word whose region has no spare left (R414). -/
  stuck : Bool := false
  /-- Tidemark of the last correction, for the replacement rule. -/
  lastCorr : Nat := 0
  deriving DecidableEq, Repr

/-- One integrity region: bucket, tracking table and spares (R405, R411, R412, R417). -/
structure IntRegion where
  /-- Bucket level, 0 to the capacity (R417). -/
  level : Nat := 0
  /-- Overflows, saturating at 65,535 (R425). -/
  overflows : Nat := 0
  /-- True while the bucket may raise its event (R417). -/
  armed : Bool := true
  /-- Tracking table, at most 16 entries (R411). -/
  table : List TrackEntry := []
  /-- Spare rows used (R412). -/
  sparesUsed : Nat := 0
  deriving DecidableEq, Repr

/-- A queued write-back of a word (R408 to R410). -/
structure WriteBack where
  /-- Region 0 to 20 (R405). -/
  region : Nat
  /-- Word key (byte key divided by 4). -/
  word : Nat
  /-- True when the write-back poisons the word (R407). -/
  poison : Bool
  /-- Tidemark at which it was queued. -/
  since : Nat
  deriving DecidableEq, Repr

/-- A remap record of the PRA (R412, R413). -/
structure Remap where
  /-- Region 0 to 20. -/
  region : Nat
  /-- Row that failed (byte key divided by the row size). -/
  row : Nat
  /-- Spare row number, counted downwards from the highest (R412). -/
  spare : Nat
  /-- True once the row has been copied and every part redirected (R412). -/
  copied : Bool := false
  deriving DecidableEq, Repr

/-- State of a Dredge pass (R423). -/
structure DredgePass where
  /-- Target 0 Pool, 1 DRAM, 2 flash (R420). -/
  target : Nat := 0
  /-- 0 none, 1 running, 2 done, 3 stopped, 4 power fail (R423). -/
  state : Nat := 0
  /-- 0 software, 1 periodic (R424). -/
  origin : Nat := 0
  /-- Flash class (R425). -/
  cls : Nat := 0
  /-- Start as given (R423). -/
  start : Nat := 0
  /-- Length as given (R423). -/
  length : Nat := 0
  /-- Bytes or bands done (R423). -/
  progress : Nat := 0
  /-- Tidemark at start (R423). -/
  startedAt : Nat := 0
  /-- Tidemark at end, 0 while running (R423). -/
  endedAt : Nat := 0
  /-- Corrected words or codewords (R423). -/
  corrected : Nat := 0
  /-- Words poisoned or codewords that failed every step (R423). -/
  uncorrectable : Nat := 0
  /-- Poisoned words found or weak bands (R423). -/
  poisonedOrWeak : Nat := 0
  /-- Hard faults declared or objects withdrawn (R423). -/
  faults : Nat := 0
  /-- True while Doze or Slumber suspends the pass (R423). -/
  suspended : Bool := false
  deriving DecidableEq, Repr

/-- The integrity unit and the scrubber. -/
structure Integrity where
  /-- Regions 0 to 20 (R405). -/
  regions : Vector IntRegion 21 := Vector.replicate 21 {}
  /-- Queued write-backs, oldest first (R408). -/
  writeBacks : List WriteBack := []
  /-- Remap records; persistent (R413). -/
  remaps : List Remap := []
  /-- Tidemark of the last leak step, counted from SYS_RST_n (R417). -/
  leakAt : Nat := 0
  /-- The current or last Dredge pass (R423). -/
  dredge : DredgePass := {}
  /-- Tidemark of the last periodic pass per target: Pool, DRAM, flash (R424). -/
  periodicAt : Vector Nat 3 := Vector.replicate 3 0
  /-- A due periodic pass that waits for a running pass to end (R424). -/
  periodicDue : List Nat := []
  deriving DecidableEq, Repr

/-! ## DRAM controller (R383 to R404) -/

/-- A line held in a sub-channel's write queue (R402, R403).  Reads take queued data (R403), so the bytes are in `Dev.mem` from the
arrival on and the queue holds what the scheduler needs. -/
structure DramWrite where
  /-- Line number (DRAM byte address divided by 64). -/
  line : Nat
  /-- Tidemark of arrival (R402). -/
  since : Nat
  deriving DecidableEq, Repr

/-- One lane of one rank (R390 to R392). -/
structure DramLane where
  /-- Read eye width, 1/64 UI (R404). -/
  readEye : Nat := 0
  /-- Read delay, 1/64 UI (R404). -/
  readDelay : Nat := 0
  /-- Write eye width (R404). -/
  writeEye : Nat := 0
  /-- Write delay (R404). -/
  writeDelay : Nat := 0
  /-- Retrains failed in a row (R392). -/
  failsInRow : Nat := 0
  /-- True when the lane's read step failed in the present retrain (R392). -/
  readFailed : Bool := false
  deriving DecidableEq, Repr

/-- One sub-channel (R385, R393 to R402). -/
structure SubChannel where
  /-- Queued writes, oldest first, at most 64 lines (R402). -/
  writes : List DramWrite := []
  /-- Queued reads as (line, arrival), oldest first, at most 64 (R402). -/
  reads : List (Nat × Nat) := []
  /-- True while the write queue drains to the low watermark (R402). -/
  draining : Bool := false
  /-- Open row per bank; a bank is rank * 32 + group * 4 + index (R385). -/
  openRows : AMap Nat := []
  /-- REFsb owed per rank * 4 + bank index (R393, R394). -/
  owed : Vector Nat 8 := Vector.replicate 8 0
  /-- Rolling accumulated activate count per bank (R397). -/
  raa : AMap Nat := []
  /-- Banks that are owed an RFM, oldest first (R397). -/
  owedRfm : List Nat := []
  /-- Neighbour list as (bank, row), oldest first, at most 16 (R396). -/
  neighbours : List (Nat × Nat) := []
  /-- Refresh interval per rank, ns (R393). -/
  trefi : Vector Nat 2 := Vector.replicate 2 3900
  /-- True while a rank is in self-refresh (R395). -/
  selfRefresh : Bool := false
  /-- Lanes: rank * 5 + lane (R404). -/
  lanes : Vector DramLane 10 := Vector.replicate 10 {}
  /-- Tidemark of the last ALERT_n assertion (R389). -/
  alertAt : Option Nat := none
  /-- True while a retrain is owed to the sub-channel (R391). -/
  retrainDue : Bool := false
  /-- Retraining steps done of the present retrain (R391). -/
  retrainStep : Nat := 0
  /-- Tidemark of the last retraining step (R391). -/
  stepAt : Option Nat := none
  /-- Steps to be retried every second: (rank * 5 + lane, write) and the Tidemark of the last try (R392). -/
  retryLanes : List (Nat × Bool × Nat) := []
  deriving DecidableEq, Repr

/-- The DRAM island. -/
structure Dram where
  /-- DDR0A, DDR0B, DDR1A, DDR1B (R383). -/
  sub : Vector SubChannel 4 := Vector.replicate 4 {}
  /-- True once training has completed (R390). -/
  trained : Bool := false
  /-- True when training failed and the boot stopped (R547). -/
  failed : Bool := false
  /-- The configuration in use, latched at SYS_RST_n: width, density, ranks, rate (R384). -/
  cfg : Nat × Nat × Nat × Nat := (8, 16, 1, 6400)
  /-- The 64-bit generator of the neighbour selection, seeded from Springhead (R396). -/
  rng : BitVec 64 := 0
  deriving DecidableEq, Repr

/-! ## FX32 cores (R263 to R321) -/

/-- Whether a core executes (R272, R274, R275). -/
inductive CoreRun where
  /-- In reset, until the firmware releases it (R272). -/
  | inReset
  /-- Executing. -/
  | running
  /-- Stopped by WAIT (R275). -/
  | waiting
  /-- Stopped by an exception raised with EXL set (R274). -/
  | halted
  deriving DecidableEq, Repr

/-- A load whose data has not returned to the core (R264, R277). -/
structure CoreLoad where
  /-- Destination registers and the values that will land. -/
  dests : List (Reg × Word)
  /-- True when the data returns poisoned (R277). -/
  poison : Bool
  /-- The load's address, for EVAL. -/
  addr : Word
  /-- True once poisoned data has come back and waits to be reported (R277). -/
  returned : Bool := false
  deriving DecidableEq, Repr

/-- One entry of a core's write buffer (R78). -/
structure CoreStore where
  /-- The core address, for SERR. -/
  addr : Word
  /-- Memory key of the first byte (Machine/Ops.lean); none when the address has no target (R279). -/
  key : Option Nat
  /-- The bytes written. -/
  bytes : Bytes
  /-- Class that the read of a partial write finds (R415). -/
  ecc : Ecc := .clean
  deriving DecidableEq, Repr

/-- A repeat in progress (R292 to R295). -/
structure CoreRepeat where
  /-- True for REPI (R292). -/
  interruptible : Bool
  /-- Address of the prefix. -/
  prefixAt : Word
  /-- The instruction word that repeats. -/
  word : Word
  /-- Repetitions not yet completed. -/
  left : Nat
  deriving DecidableEq, Repr

/-- A data window (R280, R283). -/
structure DataWindow where
  /-- BASE, bits [5:0] read 0. -/
  base : Word := 0
  /-- LIMIT, bits [5:0] read 0x3F. -/
  limit : Word := 0x3F
  /-- PERM: bit 0 reads, bit 1 writes. -/
  perm : Word := 0
  deriving DecidableEq, Repr

/-- A code window (R281, R283). -/
structure CodeWindow where
  /-- BASE. -/
  base : Word := 0
  /-- LIMIT. -/
  limit : Word := 0x3F
  /-- CHECK: address of the line check table. -/
  check : Word := 0
  deriving DecidableEq, Repr

/-- One hardware loop level (R289). -/
structure LoopRegs where
  /-- LSk, bits [1:0] read 0. -/
  start : Word := 0
  /-- LEk, bits [1:0] read 0. -/
  stop : Word := 0
  /-- LCk, 0 when inactive. -/
  count : Word := 0
  deriving DecidableEq, Repr

/-- What a port operation will return when it ends (R258). -/
structure EddyPending where
  /-- KEY as the operation returns it, when it does. -/
  key : Option (BitVec 128) := none
  /-- DATA as the operation returns it, when it does. -/
  data : Option (BitVec 128) := none
  /-- RESULT with DONE clear. -/
  result : Word := 0
  deriving DecidableEq, Repr

/-- The Eddy port of a core (R257). -/
structure EddyPort where
  /-- KEY, 0x00 to 0x0F. -/
  key : BitVec 128 := 0
  /-- PART [2:0]. -/
  part : BitVec 3 := 0
  /-- RESULT. -/
  result : Word := 0
  /-- DATA, 0x20 to 0x2F. -/
  data : BitVec 128 := 0
  /-- The operation that has not yet set DONE. -/
  pending : Option EddyPending := none
  deriving DecidableEq, Repr

/-- One FX32 core (R266 to R298). -/
structure FxCore where
  /-- Whether the core executes. -/
  run : CoreRun := .inReset
  /-- Program counter (R272). -/
  pc : Word := 0
  /-- g0 to g31; the cell of g0 is never read (R266). -/
  g : Vector Word 32 := Vector.replicate 32 0
  /-- FL, six flags in bits [5:0] (R268). -/
  fl : Word := 0
  /-- CTL, bits [6:0] (R269). -/
  ctl : Word := 0
  /-- EPC (R267). -/
  epc : Word := 0
  /-- ECAUSE (R276). -/
  ecause : Word := 0
  /-- EVAL (R276). -/
  eval : Word := 0
  /-- VBR, bits [9:0] read 0 (R267). -/
  vbr : Word := 0
  /-- Latched pending sources 0, 1, 3, 4 of IPEND (R278). -/
  latched : BitVec 8 := 0
  /-- Conditions of the level sources 5, 6, 7 (R278). -/
  level : BitVec 8 := 0
  /-- IMASK, 32 bits (R267). -/
  imask : Word := 0
  /-- PH (R296). -/
  ph : Word := 0
  /-- PL (R296). -/
  pl : Word := 0
  /-- QT (R297). -/
  qt : Word := 0
  /-- RM (R297). -/
  rm : Word := 0
  /-- LS0 to LS3, LE0 to LE3, LC0 to LC3 (R289). -/
  loops : Vector LoopRegs 4 := Vector.replicate 4 {}
  /-- RC (R293). -/
  rc : Word := 0
  /-- ERC (R294). -/
  erc : Word := 0
  /-- TCL (R271). -/
  tcl : Word := 0xFFFFFFFF
  /-- TCH (R271). -/
  tch : Word := 0xFFFFFFFF
  /-- DAB0 (R279). -/
  dab0 : Word := 0
  /-- DAB1 (R279). -/
  dab1 : Word := 0
  /-- SERR (R278). -/
  serr : Word := 0
  /-- Cycle of the core's clock at which the next instruction issues (R296); no reset value is given, counting starts at 0. -/
  cycle : Nat := 0
  /-- Products in flight as (landing cycle, PH, PL), in issue order (R296). -/
  products : List (Nat × Word × Word) := []
  /-- The divide in flight as (landing cycle, QT, RM) (R297). -/
  divide : Option (Nat × Word × Word) := none
  /-- Loads outstanding, oldest first, at most 8 (R264). -/
  loads : List CoreLoad := []
  /-- Write buffer, oldest first, at most 16 (R78). -/
  stores : List CoreStore := []
  /-- The repeat in progress (R292). -/
  rep : Option CoreRepeat := none
  /-- Data windows 0 to 7 (R280). -/
  dwin : Vector DataWindow 8 := Vector.replicate 8 {}
  /-- Code windows 0 to 3 (R281). -/
  cwin : Vector CodeWindow 4 := Vector.replicate 4 {}
  /-- MBOX_IN (R283). -/
  mboxIn : Word := 0
  /-- The Eddy port (R257). -/
  eddy : EddyPort := {}
  /-- Program slot whose image the core runs, when it runs an invocation (R341). -/
  slot : Option Nat := none
  deriving DecidableEq, Repr

/-- True on the supervisor cores 32 and 33 (R263). -/
def CoreId.isSupervisor (n : CoreId) : Bool := 32 ≤ n.val

/-- A core right after core reset (R267, R272): VBR 0x1F00_0000 on a supervisor core, 0 on a service core, pc at VBR + 0x200. -/
def FxCore.atReset (n : CoreId) : FxCore :=
  if CoreId.isSupervisor n then { vbr := 0x1F000000, pc := 0x1F000200 } else { vbr := 0, pc := 0x200 }

/-! ## Eddy (R244 to R262) -/

/-- One entry of the array with its associated data word (R244). -/
structure EddyEntry where
  /-- Key, 128 bits. -/
  key : BitVec 128 := 0
  /-- Priority, 8 bits. -/
  prio : BitVec 8 := 0
  /-- Valid. -/
  valid : Bool := false
  /-- Associated data, 128 bits. -/
  data : BitVec 128 := 0
  /-- True while the firmware rewrites the entry from its copy in DRAM after a parity failure (R260). -/
  rewriting : Bool := false
  /-- True when the associated data word reads poisoned (R260). -/
  poison : Bool := false
  deriving DecidableEq, Repr

/-- Eddy. -/
structure Eddy where
  /-- Entries by address; an absent address holds the reset entry (R244). -/
  entries : AMap EddyEntry := []
  /-- Mask registers 4 to 15, default all ones; persistent (R247, R262). -/
  masks : Vector (BitVec 128) 12 := Vector.replicate 12 (BitVec.allOnes 128)
  /-- Partition layout words 0x6020.01 to .08; persistent (R262). -/
  layout : Vector Word 8 := #v[0x00FE3800, 0x00FE0838, 0x00FF0000, 0x00FF0000, 0x00FF0000, 0x00FF0000, 0x00FF0000, 0x00FF0000]
  deriving DecidableEq, Repr

/-! ## Riffle (R224 to R243) -/

/-- A program descriptor as an instance took it from the core's queue-register store (R239, R282). -/
structure RiffleJob where
  /-- The issuing core. -/
  core : CoreId
  /-- Memory key of the descriptor; none when the address did not resolve. -/
  desc : Option Nat
  /-- Operation byte. -/
  op : Nat
  /-- CONTINUE (R239). -/
  cont : Bool
  /-- Source length. -/
  srcLen : Nat
  /-- Memory key of the source; none outside the windows. -/
  src : Option Nat
  /-- Memory key of the destination; none outside the windows. -/
  dst : Option Nat
  /-- Destination capacity. -/
  cap : Nat
  /-- True for BAD_DESCRIPTOR (R240). -/
  bad : Bool
  /-- True when a word of the descriptor read poisoned (R240). -/
  poison : Bool
  deriving DecidableEq, Repr

/-- One Riffle instance (R238, R241). -/
structure RiffleUnit where
  /-- Program descriptors queued, oldest first, at most 64 (R241). -/
  jobs : List RiffleJob := []
  /-- Delivery and Put requests queued or running, by request tag, with their queued bytes (R236). -/
  delivery : List (Nat × Nat) := []
  deriving DecidableEq, Repr

/-! ## Host interface (R86 to R121, R533, R534) -/

/-- A submission queue (R97, R108). -/
structure SubQueue where
  /-- Completion queue identifier. -/
  cq : Nat
  /-- Entries of the queue. -/
  size : Nat
  /-- Device head: the next entry to fetch. -/
  head : Nat := 0
  /-- Host tail, as the doorbell gave it. -/
  tail : Nat := 0
  /-- Command identifiers in flight (R120). -/
  inflight : List Nat := []
  /-- Commands of the present span that completed with other than Success, saturating (R149). -/
  spanFails : Nat := 0
  /-- The first of them, as command identifier (R149). -/
  spanFirst : Nat := 0
  /-- The Fence that stops fetching: its command identifier and FAIL_CHAIN (R149, R150). -/
  fence : Option (Nat × Bool) := none
  /-- Commands in flight of a span whose Fence was aborted: no later Fence waits for them or counts them (R148, R151). -/
  earlier : List Nat := []
  /-- True while the commands up to the next Fence are cancelled (R150). -/
  cancelling : Bool := false
  /-- Identifiers of entries that an Abort has hit before their fetch (R101). -/
  doomed : List Nat := []
  deriving DecidableEq, Repr

/-- A completion queue entry (R125). -/
structure Cqe where
  /-- Controller ID. -/
  ctrl : Nat
  /-- Submission queue. -/
  sq : Nat
  /-- Command identifier. -/
  cid : Nat
  /-- Status code type. -/
  sct : Nat
  /-- Status code. -/
  sc : Nat
  /-- Do Not Retry. -/
  dnr : Bool := false
  /-- M: more information in a log (R127). -/
  more : Bool := false
  /-- Dword 0. -/
  dw0 : Nat := 0
  /-- Dword 1. -/
  dw1 : Nat := 0
  deriving DecidableEq, Repr

/-- A completion queue (R108). -/
structure CompQueue where
  /-- Entries of the queue. -/
  size : Nat
  /-- Interrupt vector. -/
  vector : Nat := 0
  /-- Interrupts enabled. -/
  ien : Bool := true
  /-- Host head, as the doorbell gave it. -/
  head : Nat := 0
  /-- Device tail. -/
  tail : Nat := 0
  /-- True while the queue stands full and the stall has been reported (R530 row 16). -/
  stalled : Bool := false
  /-- Completions that wait for the host to free entries; nothing is lost (R120). -/
  waiting : List Cqe := []
  deriving DecidableEq, Repr

/-- A notice: event type, information code, log page (R120, R533). -/
structure Notice where
  /-- Event type: 0 Error status, 1 SMART / Health, 2 Notice, 7 vendor. -/
  type : Nat
  /-- Information code. -/
  info : Nat
  /-- Log page identifier. -/
  lid : Nat
  deriving DecidableEq, Repr

/-- An entry of the Content Withdrawal log page (R532). -/
structure Withdrawal where
  /-- Object key, 16 bytes as a number. -/
  key : Nat
  /-- Tidemark. -/
  at_ : Nat
  /-- Session label, or 0. -/
  label : Nat
  /-- Cause 0 to 4. -/
  cause : Nat
  deriving DecidableEq, Repr

/-- One lookup window of a function (R152 to R155). -/
structure LookupWindow where
  /-- KEY, bytes 0x00 to 0x0F. -/
  key : Bytes := List.replicate 16 0
  /-- SEQ (R153). -/
  seq : Nat := 0
  /-- VALID (R153). -/
  valid : Bool := false
  /-- KEY, CTL and NSID as the search that runs took them (R153). -/
  job : Option (Bytes × Nat × Nat) := none
  /-- CTL, bits [6:0]. -/
  ctl : Nat := 0
  /-- NSID. -/
  nsid : Nat := 0
  /-- STATUS [15:1] of the last search. -/
  status : Nat := 0
  /-- VERSION, DECODED_LEN, STORED_LEN and TIDEMARK of the last search: bytes 0x1C to 0x2F. -/
  result : Bytes := List.replicate 20 0
  deriving DecidableEq, Repr

/-- One controller (a PF or a VF, R91). -/
structure Ctrl where
  /-- Port, 0 or 1. -/
  port : Nat := 0
  /-- VF number on the port; 0 for the PF. -/
  vf : Nat := 0
  /-- Device VF number d; 0 for a PF (R91). -/
  dvf : Nat := 0
  /-- Secondary controller online; PFs always (R111). -/
  online : Bool := true
  /-- Pool state of a VF: 0, 1, 2 (R112). -/
  poolState : Nat := 0
  /-- VQ assigned, admin queue included (R111). -/
  vq : Nat := 17
  /-- VI assigned (R111). -/
  vi : Nat := 17
  /-- CC.EN. -/
  enabled : Bool := false
  /-- CSTS.RDY. -/
  ready : Bool := false
  /-- CSTS.CFS. -/
  cfs : Bool := false
  /-- Memory Space Enable (R120). -/
  memSpace : Bool := true
  /-- Bus Master Enable (R120). -/
  busMaster : Bool := true
  /-- ATS Enable (R92). -/
  ats : Bool := false
  /-- PRI Enable (R94). -/
  pri : Bool := false
  /-- Stopped from issuing page requests by a Response Failure (R94). -/
  priStopped : Bool := false
  /-- Page requests outstanding, by request tag (R94). -/
  pageRequests : List Nat := []
  /-- AQA, ASQ and ACQ, as the host wrote them. -/
  aqa : Nat := 0
  /-- ASQ base. -/
  asq : Nat := 0
  /-- ACQ base. -/
  acq : Nat := 0
  /-- Submission queues by identifier; 0 is the admin queue. -/
  sqs : AMap SubQueue := []
  /-- Completion queues by identifier. -/
  cqs : AMap CompQueue := []
  /-- True once an I/O queue has been created since the enable (R107). -/
  ioCreated : Bool := false
  /-- Feature values by feature identifier + 2^32 * namespace or vector (R98); Number of Queues holds what has been granted. -/
  features : AMap Nat := []
  /-- Outstanding Asynchronous Event Requests, oldest first, as command identifiers (R120). -/
  aers : List Nat := []
  /-- Vendor notice codes masked until their log page is read (R534). -/
  masked : List Nat := []
  /-- Notices held for the next request, oldest first (R120, R534). -/
  held : List Notice := []
  /-- Error Information log, newest first, at most 256 entries of (SQ, CID, object key) (R99, R127). -/
  errorLog : List (Nat × Nat × Nat) := []
  /-- Content Withdrawal page, oldest first, at most 256 (R532). -/
  withdrawals : List Withdrawal := []
  /-- Withdrawals reported to the function since SYS_RST_n (R532). -/
  withdrawalsTotal : Nat := 0
  /-- Entries lost because the page was full (R532). -/
  withdrawalsLost : Nat := 0
  /-- Changed Namespace List (R99). -/
  changedNs : List Nat := []
  /-- NVMe power state the controller is in, 0 to 4 (R427). -/
  ps : Nat := 0
  /-- The last operational power state (R428). -/
  lastPs : Nat := 0
  /-- PME_En and D3hot of a PF (R428, R439): bit 0 D3hot, bit 1 PME_En. -/
  pm : Nat := 0
  /-- NVMe-MI response that NVMe-MI Receive will return (R97). -/
  miResponse : Bytes := []
  /-- Lookup windows by number (R152). -/
  windows : AMap LookupWindow := []
  /-- MSI-X table by dword (four per entry); an absent vector control reads 1, masked. -/
  msix : AMap Nat := []
  /-- Vectors whose message waits while masked: the PBA (R90), in order. -/
  msixPending : List Nat := []
  /-- CC as the host last wrote it; bit 0 is held in `enabled`. -/
  cc : Nat := 0
  deriving DecidableEq, Repr

/-- One PCIe port (R86 to R89). -/
structure Port where
  /-- Link speed code, 0 while the link is down (R89). -/
  speed : Nat := 0
  /-- Link width. -/
  width : Nat := 0
  /-- True while the port's PERST_n is asserted (R57). -/
  perst : Bool := true
  /-- True once the port may train (R538). -/
  training : Bool := false
  /-- True while the link is in L1 (R429). -/
  l1 : Bool := false
  /-- VF Enable (R111). -/
  vfEnable : Bool := false
  /-- NumVFs (R111). -/
  numVfs : Nat := 0
  /-- TotalVFs (R116). -/
  totalVfs : Nat := 0
  /-- Invalidations that wait for their writes, as (tag, controller, page) (R93). -/
  invalidations : List (Nat × Nat × Nat) := []
  deriving DecidableEq, Repr

/-- The Host island. -/
structure HostIf where
  /-- Controllers by controller ID (R91). -/
  ctrls : AMap Ctrl := []
  /-- Ports 0 and 1. -/
  ports : Vector Port 2 := Vector.replicate 2 {}
  /-- Flexible VQ left per port (R110). -/
  flexVq : Vector Nat 2 := Vector.replicate 2 0
  /-- Flexible VI left per port (R110). -/
  flexVi : Vector Nat 2 := Vector.replicate 2 0
  /-- The next request tag of the Host island (R188); no reset value is given. -/
  nextTag : Nat := 1
  deriving DecidableEq, Repr

/-! ## Transactions (R478 to R483) and access paths (R462) -/


/-- The open transaction (R478 to R482). -/
structure Txn where
  /-- 0 none, 1 open, 2 committing (R484). -/
  state : Nat := 0
  /-- ID of the open transaction (R478). -/
  id : Nat := 0
  /-- Identity of the owner. -/
  owner : Option Path := none
  /-- Staged values in staging order, as little-endian bytes by object key (R479). -/
  staged : List (Nat × Bytes) := []
  /-- Segmented values whose LAST segment has not come (R469, R483). -/
  partials : AMap Bytes := []
  /-- Tidemark of the owner's last operation (R482). -/
  activeAt : Nat := 0
  /-- Former owners that have not yet met TXN_TIMEOUT (R482). -/
  formers : List Path := []
  deriving DecidableEq, Repr
/-! ## Springhead key store and Estuary (R186 to R223) -/

/-- One installed generation of a slot (R203, R208 to R210). -/
structure KeyGen where
  /-- Generation number, 1 to 65,535 (R208). -/
  gen : Nat
  /-- Key material (R197). -/
  key : Bytes
  /-- KID (R203). -/
  kid : Bytes
  /-- IV field (R203). -/
  iv : Bytes
  /-- EXPLICIT_IV (R203). -/
  explicitIv : Bool
  /-- Key check value (R197). -/
  kcv : Nat
  /-- Requests in use (R209). -/
  inUse : Nat := 0
  /-- Next GCM counter (R196). -/
  gcmNext : Nat := 0
  deriving DecidableEq, Repr

/-- A load held for a retiring generation (R210). -/
structure HeldLoad where
  /-- Issuing controller; 0 for a load that a deepen master relayed. -/
  ctrl : Nat
  /-- Command identifier on the admin queue, or the relay tag. -/
  cid : Nat
  /-- What it will install; its gen is assigned at installation. -/
  new : KeyGen
  /-- The wrapped buffer as it came, for the relay of R515. -/
  buf : Bytes := []
  /-- Tidemark at which it was held. -/
  since : Nat
  deriving DecidableEq, Repr

/-- A key slot (R197 to R223). -/
structure KeySlot where
  /-- True while allocated. -/
  allocated : Bool := false
  /-- 0 storage, 1 content, 2 transport (R201). -/
  type : Nat := 0
  /-- Controller ID of the owner. -/
  owner : Nat := 0
  /-- Last installed generation (R208). -/
  lastGen : Nat := 0
  /-- The current generation, when loaded. -/
  current : Option KeyGen := none
  /-- The retiring generation (R210). -/
  retiring : Option KeyGen := none
  /-- Held loads, in order of acceptance (R210, R212). -/
  held : List HeldLoad := []
  /-- Tidemark of the last installation or erase (R223). -/
  changedAt : Nat := 0
  deriving DecidableEq, Repr

/-- An Estuary unit (R186, R187, R215). -/
structure EstuaryUnit where
  /-- 0 online, 1 offline, 2 absent (R221). -/
  state : Nat := 2
  /-- Request tags that hold a descriptor, at most 48 (R187). -/
  held : List Nat := []
  /-- Request tags that wait for room (R187). -/
  waiting : List Nat := []
  /-- Tidemarks of the latest compare failures per pipeline: decrypt, encrypt (R215). -/
  failures : Vector (List Nat) 2 := Vector.replicate 2 []
  /-- True while the known-answer test of a return to service runs (R215). -/
  testing : Bool := false
  deriving DecidableEq, Repr

/-- Springhead's key store. -/
structure KeyStore where
  /-- Slots by number; an absent slot is free and has never held a key (R197). -/
  slots : AMap KeySlot := []
  /-- KEK 1, 32 bytes, in Springhead's private record; only an alarm erases it (R198). -/
  kek1 : Option Bytes := none
  /-- True while the key store is locked (R218). -/
  locked : Bool := false
  /-- Namespace keys by internal namespace index, of the private record, which holds them wrapped under KEK 0 (R192). -/
  nsKeys : AMap Bytes := []
  /-- True while the namespace keys are unwrapped (R192). -/
  nsKeysReady : Bool := true
  /-- Estuary A and B (R186). -/
  estuary : Vector EstuaryUnit 2 := Vector.replicate 2 {}
  /-- AOP management keys 0 to 3 of the private record, 40 bytes each, still wrapped under KEK 1 (R467). -/
  mgmt : Vector (Option Bytes) 4 := Vector.replicate 4 none
  deriving DecidableEq, Repr

/-! ## Namespaces and media management (R102 to R106, R348 to R382) -/

/-- A registrant of a reservation (R106). -/
structure Registrant where
  /-- Controller through which the host registered. -/
  ctrl : Nat
  /-- Reservation key. -/
  key : Nat
  deriving DecidableEq, Repr

/-- The reservation of a block namespace (R106). -/
structure Reservation where
  /-- Generation of the reservation state. -/
  gen : Nat := 0
  /-- Reservation type 1 to 6, 0 when none is held. -/
  rtype : Nat := 0
  /-- Holder's controller. -/
  holder : Nat := 0
  /-- Registrants in order. -/
  regs : List Registrant := []
  /-- Persist Through Power Loss. -/
  ptpl : Bool := false
  deriving DecidableEq, Repr

/-- A value of a Key Value namespace (R102). -/
structure KvEntry where
  /-- Key, 1 to 16 bytes. -/
  key : Bytes
  /-- First map entry. -/
  base : Nat
  /-- Value length in bytes. -/
  len : Nat
  deriving DecidableEq, Repr

/-- A block, Key Value or cache namespace (R102, R103). -/
structure Namespace where
  /-- Internal namespace index 0 to 127 (R351). -/
  idx : Nat
  /-- 0 block, 1 Key Value, 2 cache. -/
  kind : Nat
  /-- Indirection unit: 0 = 4 KiB, 1 = 16 KiB, 2 = 64 KiB (R103). -/
  iu : Nat
  /-- LBA format: 0 = 512 bytes, 1 = 4 KiB (R103); 0 for other kinds. -/
  fmt : Nat
  /-- NSZE in blocks of the format, or bytes for Key Value. -/
  nsze : Nat
  /-- NCAP in the same unit; lowered by R375 for cache namespaces. -/
  ncap : Nat
  /-- Namespace tag of a cache namespace (R14), else 0. -/
  tag : Nat := 0
  /-- Attached controllers. -/
  attached : List Nat := []
  /-- True for a cascade namespace (R510). -/
  cascade : Bool := false
  /-- Reservation (R106). -/
  rsv : Reservation := {}
  deriving DecidableEq, Repr

/-- An object record (R356). -/
structure ObjRec where
  /-- Object key with namespace tag (R12). -/
  key : Nat
  /-- Run base. -/
  base : Nat
  /-- Units of the run. -/
  units : Nat
  /-- Withdrawn. -/
  withdrawn : Bool := false
  /-- Compressed. -/
  compressed : Bool
  /-- Stored length. -/
  stored : Nat
  /-- Decoded length. -/
  decoded : Nat
  /-- Version tag. -/
  version : Nat
  /-- Storage slot. -/
  slot : Nat
  /-- Controller charged. -/
  charged : Nat
  /-- Tidemark of the validate step. -/
  storedAt : Nat
  /-- Tidemark of the withdrawal. -/
  withdrawnAt : Nat := 0
  /-- Journal sequence of the last change. -/
  lastSeq : Nat := 0
  deriving DecidableEq, Repr

/-- A title binding of a cache namespace (R136, R206). -/
structure TitleBinding where
  /-- Bound storage slot. -/
  slot : Nat
  /-- The KCV recorded at the first Put (R206). -/
  kcv : Nat
  deriving DecidableEq, Repr

/-- A unit written: its out-of-band record and its at-rest ciphertext (R351, R359). -/
structure FlashUnit where
  /-- Internal namespace index. -/
  ns : Nat
  /-- Logical unit. -/
  lu : Nat
  /-- Write sequence. -/
  seq : Nat
  /-- At-rest ciphertext. -/
  data : Bytes
  /-- False while the unit is only in the write buffer (R359). -/
  programmed : Bool := false
  deriving DecidableEq, Repr

/-- State of a band (R353, R362). -/
inductive BandState where
  | open | closed | source | free | retired
  deriving DecidableEq, Repr

/-- A band (R350, R353). -/
structure Band where
  /-- Class 0 C4, 1 C16, 2 C64. -/
  cls : Nat
  /-- Band number in its class. -/
  num : Nat
  /-- Row. -/
  row : Nat
  /-- Block index. -/
  block : Nat
  /-- State. -/
  state : BandState := .open
  /-- True for a Backwater band (R361). -/
  backwater : Bool := false
  /-- True for a band that receives copied units (R371). -/
  copies : Bool := false
  /-- Offset of the next unit. -/
  next : Nat := 0
  /-- Pin count (R358). -/
  pins : Nat := 0
  /-- Order of closing, for the choice of a victim (R367). -/
  closedAt : Nat := 0
  deriving DecidableEq, Repr

/-- Per-block facts by physical block, row * 65536 + block (every block of a band is erased together, R350, R370). -/
structure BlockWear where
  /-- Erase counter, saturating at 2^20 - 1 (R370). -/
  erases : Nat := 0
  /-- Reads since the last erase (R372). -/
  reads : Nat := 0
  /-- Verify failures over the life (R374). -/
  verifyFails : Nat := 0
  /-- Blocks of the band that are retired, as LUN channel * 4 + plane (R374). -/
  retired : List Nat := []
  deriving DecidableEq, Repr

/-- A copy of a reclamation (R368): the unit, its source and its target as unit keys. -/
structure GcCopy where
  /-- Internal namespace index. -/
  ns : Nat
  /-- Logical unit. -/
  lu : Nat
  /-- Source virtual unit address. -/
  src : Nat
  /-- Target virtual unit address; none once a block namespace's unit is uncorrectable (R369). -/
  dst : Option Nat
  deriving DecidableEq, Repr

/-- Steps of a reclamation (R368). -/
inductive GcStep where
  | copy | commit | drain | erase
  deriving DecidableEq, Repr

/-- A reclamation, fold, refresh or relocation in progress (R368). -/
structure GcJob where
  /-- Source band key. -/
  source : Nat
  /-- Class. -/
  cls : Nat
  /-- 0 reclamation, 1 fold, 2 refresh, 3 relocation. -/
  cause : Nat
  /-- Step. -/
  step : GcStep := .copy
  /-- Copies made. -/
  made : List GcCopy := []
  deriving DecidableEq, Repr

/-- A journal record (R362). -/
inductive JRec where
  /-- MAP: namespace, first logical unit, new entries; none = UNMAPPED. -/
  | map (ns first : Nat) (entries : List (Option Nat))
  /-- OBJECT: record number and new contents (none = not in use), with the runs of map entries that the change sets at once: namespace, and
  first unit with its entries. -/
  | object (rec : Nat) (o : Option ObjRec) (ns : Nat) (runs : List (Nat × List (Option Nat)))
  /-- MAP of a Key Value namespace with the values that its entries now hold (log entry 31): namespace, values, and runs as in OBJECT. -/
  | kv (ns : Nat) (values : List KvEntry) (runs : List (Nat × List (Option Nat)))
  /-- GC_COMMIT: source band and copies. -/
  | gcCommit (band : Nat) (copies : List GcCopy)
  /-- BAND: band key and its new state. -/
  | band (key : Nat) (b : Band)
  /-- RETIRE: row, block, part code. -/
  | retire (row block part : Nat)
  /-- CHECKPOINT: chunk. -/
  | checkpoint (ns chunk : Nat)
  deriving DecidableEq, Repr

/-- What journal records change (R362): the map by namespace * 2^32 + unit, and the object records. -/
structure Store where
  /-- Map entries (R352); an absent entry is UNMAPPED, 0xFFFFFFFE is UNCORRECTABLE. -/
  map : AMap Nat := []
  /-- Object records in use (R356). -/
  objs : AMap ObjRec := []
  /-- Values of the Key Value namespaces, by internal namespace index (R102). -/
  kv : AMap (List KvEntry) := []
  /-- Band table by class * 2^32 + number (R353). -/
  bands : AMap Band := []
  deriving DecidableEq, Repr

/-- Geometry that the fitted flash reports (R348, R349). -/
structure Geometry where
  /-- CE per channel. -/
  ce : Nat := 0
  /-- LUNs per CE. -/
  luns : Nat := 0
  /-- Planes per LUN. -/
  planes : Nat := 0
  /-- Pages per block, native. -/
  pages : Nat := 0
  /-- Blocks per plane. -/
  blocks : Nat := 0
  /-- Cell type 3 or 4. -/
  cell : Nat := 0
  deriving DecidableEq, Repr

/-- A Format NVM or Sanitize that waits for its erases and its records (R377). -/
structure MediaWait where
  /-- Issuing controller. -/
  ctrl : Nat
  /-- Command identifier on the admin queue. -/
  cid : Nat
  /-- Opcode. -/
  opc : Nat
  /-- NSID. -/
  nsid : Nat
  /-- Bands that are still to be erased. -/
  bands : List Nat
  /-- Sequence number of the last record that must be committed. -/
  seq : Nat
  deriving DecidableEq, Repr

/-- Media management. -/
structure Media where
  /-- True once mount has completed (R380). -/
  ready : Bool := false
  /-- Media state 0 to 3 (0x3830.04). -/
  state : Nat := 0
  /-- Geometry found at mount (R349). -/
  geo : Geometry := {}
  /-- Raw capacity held by metadata bands, bytes, as mount finds it (R553). -/
  metaBytes : Nat := 0
  /-- Namespaces by NSID; survive resets in the metadata (R352, R365). -/
  nss : AMap Namespace := []
  /-- Title bindings by tag * 2^32 + title (R136). -/
  titles : AMap TitleBinding := []
  /-- The store in DRAM. -/
  store : Store := {}
  /-- The store as the committed journal leaves it; on flash (R363). -/
  durable : Store := {}
  /-- Records queued and not committed, oldest first, with their sequence numbers (R363). -/
  journal : List (Nat × JRec) := []
  /-- Sequence number of the newest record; survives resets (R362). -/
  seq : Nat := 0
  /-- Tidemark of the oldest queued record (R363). -/
  journalSince : Nat := 0
  /-- Units written and not erased, by class * 2^48 + virtual unit address. -/
  units : AMap FlashUnit := []
  /-- Keys of units that wait in the write buffer, oldest first (R359). -/
  buffer : List Nat := []
  /-- Wear of physical blocks by row * 65536 + block; survives resets (R370). -/
  wear : AMap BlockWear := []
  /-- LUNs retired, by channel * 32 + row; survive resets (R374). -/
  lunsRetired : List Nat := []
  /-- Planes retired, by (channel * 32 + row) * 4 + plane; survive resets (R374). -/
  planesRetired : List Nat := []
  /-- Tidemarks of block retirements per plane, for the count within 24 hours (R374). -/
  planeFails : AMap (List Nat) := []
  /-- Silences in a row per LUN (R374). -/
  silent : AMap Nat := []
  /-- Reclamations in progress (R368). -/
  jobs : List GcJob := []
  /-- Bands scheduled for refresh (R372). -/
  refreshDue : List Nat := []
  /-- True while folding runs towards 0x3810.03 (R361). -/
  folding : Bool := false
  /-- Map words that read poisoned and are being rebuilt, as map keys (R355). -/
  badWords : List Nat := []
  /-- Chunks that are being rebuilt, as namespace * 2^32 + chunk (R366). -/
  rebuilding : List Nat := []
  /-- Format NVM and Sanitize commands that wait (R377). -/
  waits : List MediaWait := []
  /-- Units that failed every decoding step and have not been copied or erased since, as unit keys (R369, R373). -/
  bad : List Nat := []
  /-- Tidemark of the last host write (R361). -/
  hostWriteAt : Nat := 0
  /-- The clean-shutdown record of the PRA: 0 none, 1 clean, 2 after a power-fail warning (R62, R380); a new part holds a clean one (log
  entry 41). -/
  shutdown : Nat := 1
  /-- Sanitizes that have completed (R99). -/
  sanitized : Nat := 0
  /-- Critical Warning bits of SMART / Health (R366, R375). -/
  critical : Nat := 0
  deriving DecidableEq, Repr

/-! ## Sessions, profiles, programs and requests (R18 to R33, R122 to R155, R180 to R183, R323 to R347) -/

/-- An open session, or one that a close has left with requests in flight (R129 to R134). -/
structure Session where
  /-- Incarnation (R19). -/
  inc : Nat
  /-- Controller that opened it (R115). -/
  ctrl : Nat
  /-- Content slot, when CKP (R129). -/
  content : Option Nat
  /-- Transport slot, when TKP (R129). -/
  transport : Option Nat
  /-- Label (R129). -/
  label : Nat
  /-- Idle timeout in seconds (R129). -/
  idle : Nat
  /-- False once closed while requests remain (R132). -/
  isOpen : Bool := true
  /-- Stream Reads admitted and not completed (R134). -/
  inFlight : Nat := 0
  /-- Tidemark of Session Open (R134). -/
  opened : Nat
  /-- Tidemark of the latest admission, 0 if none (R134). -/
  lastAdm : Nat := 0
  /-- Stream Reads completed with Success (R134). -/
  completed : Nat := 0
  /-- Output bytes delivered (R134). -/
  bytes : Nat := 0
  deriving DecidableEq, Repr

/-- The session table (R18, R130). -/
structure Sessions where
  /-- Sessions by index. -/
  tab : AMap Session := []
  /-- Incarnations last issued, by index; an absent index has issued none (R19). -/
  incs : AMap Nat := []
  /-- Freed indexes, longest free first (R130). -/
  freed : List Nat := []
  /-- The lowest index never allocated since reset. -/
  fresh : Nat := 0
  deriving DecidableEq, Repr

/-- A profile slot (R180 to R183). -/
structure Profile where
  /-- Current image; empty when undefined. -/
  image : Bytes := []
  /-- Version (0x51pp.04). -/
  version : Nat := 0
  /-- Tidemark of the last committed change (0x51pp.07). -/
  changedAt : Nat := 0
  deriving DecidableEq, Repr

/-- A version of a program image in the program store (R328, R331, R332). -/
structure ProgVersion where
  /-- Version number. -/
  version : Nat
  /-- The image, signature included. -/
  image : Bytes
  /-- DRAM byte address of its code; rodata follows (log entry 21). -/
  base : Nat
  /-- Invocations bound (R347). -/
  bound : Nat := 0
  deriving DecidableEq, Repr

/-- A program slot (R323). -/
structure ProgSlot where
  /-- 0 empty, 1 loaded, 2 active (R323). -/
  state : Nat := 0
  /-- Owner controller (R323). -/
  owner : Nat := 0
  /-- Last version number given (R331). -/
  lastVersion : Nat := 0
  /-- The current version, unless empty. -/
  current : Option ProgVersion := none
  /-- Retiring versions, and an unloaded image that is still bound (R332). -/
  retiring : List ProgVersion := []
  /-- Faults since SYS_RST_n (R347). -/
  faults : Nat := 0
  /-- Tidemark of the last change (R347). -/
  changedAt : Nat := 0
  deriving DecidableEq, Repr

/-- An invocation that waits or runs (R336, R341). -/
structure Invocation where
  /-- 0 Braid length pass, 1 Braid assembly pass, 2 Execute Program (R336). -/
  kind : Nat
  /-- Request tag of a Braid call; for Execute Program the command's controller, queue and identifier. -/
  owner : Nat × Nat × Nat
  /-- Program slot. -/
  slot : Nat
  /-- Bound version (R332). -/
  version : Nat
  /-- Entry 0 to 15. -/
  entry : Nat
  /-- Sample index, or parameter length. -/
  count : Nat
  /-- Sample table or track header of a Braid call. -/
  table : Bytes := []
  /-- Payload handed (R179). -/
  payload : Bytes := []
  /-- Parameters, or the 16 marks (R336). -/
  params : Bytes := []
  /-- Ranges as core address and length (R336). -/
  ranges : List (Nat × Nat) := []
  /-- Value of DAB1 for the ranges (R335). -/
  dab1 : Nat := 0
  /-- The core that runs it, once dispatched. -/
  core : Option CoreId := none
  /-- Deadline, once dispatched (R342). -/
  deadline : Nat := 0
  deriving DecidableEq, Repr

/-- A memory range set (R334). -/
structure RangeSet where
  /-- Issuing controller. -/
  ctrl : Nat
  /-- Identifier. -/
  id : Nat
  /-- Memory namespace. -/
  nsid : Nat
  /-- Offset and length of each range. -/
  ranges : List (Nat × Nat)
  deriving DecidableEq, Repr

/-- A memory or compute namespace (R327, R333). -/
structure AuxNamespace where
  /-- True for a memory namespace, false for a compute namespace. -/
  isMemory : Bool
  /-- First GiB of DRAM. -/
  gib : Nat := 0
  /-- Size in GiB. -/
  size : Nat := 0
  /-- Attached controllers. -/
  attached : List Nat := []
  deriving DecidableEq, Repr

/-- The program runtime (R323 to R347). -/
structure Runtime where
  /-- Slots by number. -/
  slots : AMap ProgSlot := []
  /-- Waiting and running invocations, oldest first. -/
  calls : List Invocation := []
  /-- Memory and compute namespaces by NSID. -/
  aux : AMap AuxNamespace := []
  /-- Memory range sets. -/
  sets : List RangeSet := []
  /-- Deletions of memory namespaces that wait for running invocations: controller, command identifier, NSID (R334). -/
  deletes : List (Nat × Nat × Nat) := []
  /-- Tidemarks of the latest halts per core (R345). -/
  halts : AMap (List Nat) := []
  /-- Cores kept out of dispatch (R345). -/
  out : List Nat := []
  deriving DecidableEq, Repr

/-- A range that Braid hands to Estuary (R177). -/
structure BraidRange where
  /-- First byte. -/
  off : Nat
  /-- Length. -/
  len : Nat
  /-- MODE 1. -/
  prot : Bool
  /-- RESTART. -/
  restart : Bool
  /-- Sample the range comes from, for its IV (R193). -/
  sample : Nat := 0
  deriving DecidableEq, Repr

/-- Steps of a request in flight (R23). -/
inductive ReqStep where
  /-- Flash reads, decryption, the passes: whatever its inputs allow. -/
  | path
  /-- The output DMA runs (step 9). -/
  | dma
  /-- The read-back of a peer BAR is awaited (R83). -/
  | peer
  /-- A Put's data arrive. -/
  | arriving
  deriving DecidableEq, Repr

/-- A Stream Read, a sized one, an Object Put, or a forward served for another member, from admission to completion (R22, R23, R138). -/
structure Req where
  /-- Issuing controller; 0 for a forward. -/
  ctrl : Nat
  /-- Submission queue. -/
  sq : Nat
  /-- Command identifier. -/
  cid : Nat
  /-- 0 Stream Read, 1 Stream Read with SIZE, 2 Object Put. -/
  op : Nat
  /-- Step. -/
  step : ReqStep := .path
  /-- Object key with its namespace tag. -/
  key : Nat
  /-- Namespace. -/
  nsid : Nat
  /-- CDW2. -/
  len : Nat
  /-- Session index, unless the handle was 0. -/
  session : Option Nat := none
  /-- Profile slot. -/
  profile : Nat := 0
  /-- The profile image bound (R182). -/
  image : Bytes := []
  /-- The profile version bound. -/
  imageVersion : Nat := 0
  /-- PEER (R140). -/
  toPeer : Bool := false
  /-- The object record bound (R23); a Put's new record. -/
  obj : ObjRec
  /-- Record number bound. -/
  recNo : Nat := 0
  /-- The object matched with class 0 after the profile's class did not (R143). -/
  fallback : Bool := false
  /-- Map entries copied at step 3 (R358). -/
  entries : List (Option Nat) := []
  /-- Bands pinned (R358). -/
  pins : List Nat := []
  /-- Storage slot and generation bound. -/
  store : Option (Nat × Nat) := none
  /-- True while in use on the storage generation (R209). -/
  storeUse : Bool := false
  /-- Session slot and generation bound. -/
  sess : Option (Nat × Nat) := none
  /-- True while in use on the session generation (R209). -/
  sessUse : Bool := false
  /-- Ciphertext of the units read, by unit index. -/
  cipher : AMap Bytes := []
  /-- Plaintext data units in staging, by data unit index. -/
  plain : AMap Bytes := []
  /-- A unit needed read retry (R143). -/
  readRetry : Bool := false
  /-- Estuary unit assigned: 0, 1, or 2 for the byte-serial core (R24, R220). -/
  unit : Option Nat := none
  /-- True once the one retry of R214 has been spent. -/
  retried : Bool := false
  /-- True while the request holds one of Braid's 32 assembly contexts. -/
  inBraid : Bool := false
  /-- Tidemark at which the pass that runs began (R342). -/
  passAt : Option Nat := none
  /-- Decoded bytes of a compressed object, once Riffle has written all of them (R237). -/
  inflated : Option Bytes := none
  /-- Assembled length of the length pass. -/
  asmLen : Option Nat := none
  /-- Range count and program byte counts of the length pass. -/
  lenCalls : List Nat := []
  /-- Outputs of the program calls of the assembly pass. -/
  asmCalls : List Bytes := []
  /-- True once a program call has been queued and has not returned. -/
  calling : Bool := false
  /-- Program slot and version bound by a program-assisted profile (R332). -/
  prog : Option (Nat × Nat) := none
  /-- The assembled bytes in staging, once the assembly pass is done. -/
  asm : Option Bytes := none
  /-- The range list. -/
  ranges : List BraidRange := []
  /-- Ranges encrypted so far. -/
  rangesDone : Nat := 0
  /-- Encrypted output so far. -/
  output : Bytes := []
  /-- GCM counter drawn (R196). -/
  gcm : Option Nat := none
  /-- Riffle instance that decodes a compressed object. -/
  riffle : Option Nat := none
  /-- Page Request outstanding (R94). -/
  pageTag : Option Nat := none
  /-- Bytes of a Put received. -/
  received : Bytes := []
  /-- Host data of a Put's data unit held for its retry (R214). -/
  putUnits : AMap Bytes := []
  /-- Cascade member and forward tag, when the request waits for another member or is served for one (R513). -/
  remote : Option (Nat × Nat) := none
  deriving DecidableEq, Repr

/-! ## Headwater, firmware slots, Weir, AOP and Confluence -/

/-- How far the part has started (R538, R540, R547, R62). -/
inductive Phase where
  /-- In reset: before START. -/
  | inReset
  /-- The boot ROM runs: steps 2 to 8 of R538. -/
  | boot
  /-- Recovery (R540). -/
  | recovery
  /-- The firmware runs and mounts: steps 9 and 10 of R538. -/
  | firmware
  /-- DRAM training failed: the firmware answers from the Pool (R547). -/
  | dramFailed
  /-- Step 11 of R538 is done. -/
  | ready
  /-- The sequence of R62 runs. -/
  | flushing
  /-- Off (R431). -/
  | off
  deriving DecidableEq, Repr

/-- Headwater: power states, wake and coasting (R426 to R446). -/
structure Power where
  /-- How far the part has started. -/
  phase : Phase := .inReset
  /-- 0 Run, 1 Trim, 2 Doze, 3 Slumber (0x3050.01). -/
  state : Nat := 0
  /-- The state that an autonomous Doze left; none when Doze or Slumber was requested (R429). -/
  autoFrom : Option Nat := none
  /-- The sleep state that Headwater has been asked for and has not entered: 2 Doze, 3 Slumber (R429, R433, R434). -/
  sleepRequest : Option Nat := none
  /-- Wake latches, bits of R437. -/
  latches : Nat := 0
  /-- True from SLUMBER_ENTRY to the commit point (R434). -/
  slumberEntry : Bool := false
  /-- True when a sleep request waits for an exit to end (R436). -/
  sleepHeld : Bool := false
  /-- While leaving Slumber: stages released so far, 0 to 8 (R441, R442). -/
  exiting : Option Nat := none
  /-- True once the XTAL25 PLLs have locked in an exit or a start (R440). -/
  xtalLocked : Bool := true
  /-- Entry value T_e while the 25 MHz count is stopped (R443). -/
  coasting : Option Nat := none
  /-- Tidemark at which the exit began, for 0x3051.0A. -/
  exitAt : Nat := 0
  /-- True when SYS_RST_n was asserted during the power-fail sequence (R64). -/
  resetDeferred : Bool := false
  /-- True from a write of 4 to 0x3050.03 to its acknowledgement, which starts the sequence of R62 (R431). -/
  offDue : Bool := false
  /-- Why the sequence of R62 runs or Off was entered: 1 PLP_n, 2 brown-out, 3 thermal trip, 4 object 0x3050.03. -/
  offBy : Nat := 0
  /-- THERMTRIP_n asserted (R56). -/
  thermtrip : Bool := false
  /-- Cause code of the next start (0xF000.01, R500). -/
  nextCause : Nat := 0
  /-- True once the release of 0xF000.03 has been recorded and DRAM training has ended in this start. -/
  trained : Bool := false
  /-- True once the boot image has been verified in this start. -/
  imageUp : Bool := false
  deriving DecidableEq, Repr

/-- A firmware commit whose NOR write runs (R542). -/
structure FwCommit where
  /-- Issuing controller. -/
  ctrl : Nat
  /-- Command identifier on the admin queue. -/
  cid : Nat
  /-- Slot 0 or 1 (slots 1 and 2 of R535). -/
  slot : Nat
  /-- Commit action 0, 1 or 3. -/
  action : Nat
  /-- The image written. -/
  image : Bytes
  deriving DecidableEq, Repr

/-- Firmware slots and update (R535 to R544). -/
structure Firmware where
  /-- NOR contents of slots 1 and 2; an empty slot holds no bytes (R535). -/
  nor : Vector Bytes 2 := Vector.replicate 2 []
  /-- The copies in the mirrored metadata (R542). -/
  mirror : Vector Bytes 2 := Vector.replicate 2 []
  /-- Active slot, 0 or 1, of Springhead's private record (R538). -/
  active : Nat := 0
  /-- Security floor of the private record (R543). -/
  floor : Nat := 0
  /-- Slot that runs, 1 or 2; 0 when none (0x1000.0A). -/
  running : Nat := 0
  /-- Slots that were passed over in this start (R539). -/
  passed : List Nat := []
  /-- The download buffer in the Pool (R541). -/
  buffer : Bytes := []
  /-- The commit in progress (R542). -/
  commit : Option FwCommit := none
  /-- True once a CA 3 commit has completed and the restart waits for draining (R542). -/
  restartDue : Bool := false
  /-- Results of device self-tests, newest first, at most 20: code and result (R97, R99). -/
  selfTests : List (Nat × Nat) := []
  deriving DecidableEq, Repr

/-- Weir (R447 to R458). -/
structure Weir where
  /-- X0 to X27 as latched by the last sample, Q16.16 (R447). -/
  x : Vector Word 28 := Vector.replicate 28 0
  /-- Integrators I0 to I3 (R453). -/
  i : Vector Word 4 := Vector.replicate 4 0
  /-- Saturation flags, bits 0 to 3 (R453). -/
  sat : BitVec 4 := 0
  /-- Effective set-points S0 to S3 (R452). -/
  s : Vector Word 4 := Vector.replicate 4 0
  /-- Ramping flags (R452). -/
  ramping : BitVec 4 := 0
  /-- Targets used at the last sample that ran, to see a change (R452); none after an enable or a failsafe. -/
  lastTarget : Vector (Option Word) 4 := Vector.replicate 4 none
  /-- Token limit, output 0 (R448). -/
  tokens : Nat := 8
  /-- Divisors, outputs 1 to 17 (R448). -/
  div : Vector Nat 17 := Vector.replicate 17 16
  /-- True in failsafe (R451). -/
  failsafe : Bool := false
  /-- Consecutive samples without an overrun, counted in failsafe (R451). -/
  clean : Nat := 0
  /-- The staged set while frozen: coefficients, limits and steps by object key (R455). -/
  staged : Option (AMap Nat) := none
  /-- True when the swap has been requested (R455). -/
  swapDue : Bool := false
  /-- Object Writes of 0x3100.03 that wait for the swap, as controller and command identifier (R455). -/
  acks : List (Nat × Nat) := []
  /-- Which alarm limits the last sample was above: bit 0 Tj, 1 ISENSE0, 2 ISENSE1 (R456). -/
  above : Nat := 0
  /-- DRAM PHY temperature recorded at the last training, Q16.16 (R391). -/
  phyRecorded : Word := 0
  deriving DecidableEq, Repr

/-- Replay state of one management key (R473). -/
structure ReplayWindow where
  /-- Highest accepted counter H. -/
  h : Nat := 0
  /-- The 64 counters from H - 63 to H that have been seen, bit 0 for H. -/
  seen : BitVec 64 := 0
  deriving DecidableEq, Repr

/-- An operation record of a request body (R468). -/
structure OpRec where
  /-- 1 READ, 2 WRITE. -/
  op : Nat
  /-- Bit 0 LAST. -/
  flags : Nat
  /-- Index. -/
  idx : Nat
  /-- Subindex. -/
  sub : Nat
  /-- Type code. -/
  ty : Nat
  /-- Offset. -/
  off : Nat
  /-- Length. -/
  len : Nat
  /-- Data of a WRITE. -/
  data : Bytes
  deriving DecidableEq, Repr

/-- A request whose operations run: it stands in the state only while an operation waits for Weir's swap (R455, R471). -/
structure PathJob where
  /-- Who performs the operations. -/
  who : Path
  /-- The request's header; empty for MCTP. -/
  header : Bytes
  /-- Source address and port of the request, where the response goes; 0 for MCTP. -/
  peer : Nat × Nat
  /-- Operations still to run; the first is the one that waits. -/
  left : List OpRec
  /-- Response records so far. -/
  answer : Bytes
  deriving DecidableEq, Repr

/-- The Fieldbus side of AOP (R466 to R473), and the MCTP path (R465). -/
structure Aop where
  /-- The AOP request whose operation waits (R471, R531: one message at a time per path). -/
  job : Option PathJob := none
  /-- AOP frames received behind it, oldest first, at most 8 (R472). -/
  queue : List AopFrame := []
  /-- The MCTP request whose operation waits. -/
  mctpJob : Option PathJob := none
  /-- MCTP requests received behind it, oldest first: endpoint ID, operation count and body. -/
  mctpQueue : List (Nat × Nat × Bytes) := []
  /-- Replay state by key ID. -/
  replay : Vector ReplayWindow 4 := Vector.replicate 4 {}
  /-- Second and count of unauthenticated responses (R472). -/
  unauth : Nat × Nat := (0, 0)
  /-- The management keys as Springhead's unwrap buffers hold them; an alarm zeroises them (R467). -/
  keys : Vector (Option Bytes) 4 := Vector.replicate 4 none
  deriving DecidableEq, Repr

/-- A member as this member knows it (R505, R518). -/
structure Member where
  /-- State as 0x8000.01. -/
  state : Nat := 0
  /-- Variant code as 0x1008.01. -/
  variant : Nat := 0
  /-- PCIe link up. -/
  linkUp : Bool := false
  /-- Tidemark of the last flit. -/
  lastFlit : Nat := 0
  deriving DecidableEq, Repr

/-- A Confluence port (R494, R501 to R503). -/
structure CflPort where
  /-- 0 down, 1 training, 2 up, 3 isolated. -/
  state : Nat := 0
  /-- Lanes up. -/
  lanes : Nat := 0
  /-- Peer member ID, 0xFF when none. -/
  peer : Nat := 0xFF
  /-- Sequence of the next flit sent, 12 bits (R502). -/
  txSeq : Nat := 0
  /-- Next sequence expected, 12 bits (R503). -/
  rxSeq : Nat := 0
  /-- Failures in a row of the flit expected next (R503). -/
  fails : Nat := 0
  deriving DecidableEq, Repr

/-- A request or a lookup that another member serves (R513 to R516). -/
structure Forward where
  /-- The other member. -/
  member : Nat
  /-- Tag of the local request, when it is a Stream Read or a Put. -/
  req : Option Nat
  /-- 0 Stream Read, 1 Put, 2 Evict, 3 Lookup, 4 index lookup, 5 whole request in deepen mode. -/
  kind : Nat
  /-- Controller, queue and identifier of the local command, for kinds 2 and 3. -/
  cmd : Nat × Nat × Nat := (0, 0, 0)
  /-- Object key. -/
  key : Nat
  /-- Tidemark at which it was sent (R516). -/
  since : Nat
  deriving DecidableEq, Repr

/-- A key command or a KEK 1 load that other members have not confirmed (R515, R517). -/
structure Relay where
  /-- Opcode of the command. -/
  opc : Nat
  /-- Controller. -/
  ctrl : Nat
  /-- Command identifier on the admin queue. -/
  cid : Nat
  /-- Members awaited. -/
  left : List Nat
  /-- Dword 0 of the completion. -/
  dw0 : Nat := 0
  /-- Dword 1. -/
  dw1 : Nat := 0
  /-- Tidemark at which it was sent (R516). -/
  since : Nat
  deriving DecidableEq, Repr

/-- Cascade (R501 to R519). -/
structure Cascade where
  /-- 0 standalone, 1 joining, 2 member, 3 master, 4 refused (0x8000.01). -/
  state : Nat := 0
  /-- Mode in force (0x8000.02). -/
  mode : Nat := 0
  /-- Mode latched at the last SYS_RST_n from 0x8001.01 (R509). -/
  configured : Nat := 0
  /-- Refusal cause (0x8000.07). -/
  cause : Nat := 0
  /-- Master's member ID (0x8000.04). -/
  master : Nat := 0xFF
  /-- Members by ID. -/
  members : AMap Member := []
  /-- Placement table; 0xFF = none (R511). -/
  table : Vector Nat 64 := Vector.replicate 64 0xFF
  /-- True once the first master has formed the table. -/
  formed : Bool := false
  /-- Ports 0 and 1. -/
  ports : Vector CflPort 2 := Vector.replicate 2 {}
  /-- Tidemark of the last heartbeat received (R507). -/
  heartbeatAt : Nat := 0
  /-- The announced loss of this master goes out with its next heartbeat (R507). -/
  losing : Bool := false
  /-- Forwards by tag. -/
  forwards : AMap Forward := []
  /-- Next forward tag. -/
  nextTag : Nat := 1
  /-- The object index at the master, in widen and deepen mode: member and record number by object key (R509). -/
  index : AMap (Nat × Nat) := []
  /-- True while a new master rebuilds the index (R516). -/
  rebuilding : Bool := false
  /-- Index lookups that wait for the rebuild: member, tag, class and key (R516). -/
  waiting : List (Nat × Nat × Nat × Nat) := []
  /-- Relays by tag (R515, R517). -/
  relays : AMap Relay := []
  deriving DecidableEq, Repr


/-! ## Outputs -/

/-- What the device has sent outside, newest first in `Dev.out`. -/
inductive Output where
  /-- A completion queue entry (R125). -/
  | cqe (e : Cqe)
  /-- An interrupt message of a vector (R82). -/
  | msix (ctrl vector : Nat)
  /-- Data written to host memory for a command (R82). -/
  | data (ctrl cid : Nat) (bytes : Bytes)
  /-- A 4-byte read of a peer BAR that follows the last data write (R83). -/
  | peerRead (ctrl cid : Nat)
  /-- An AER error report, by name (R120). -/
  | aer (ctrl : Nat) (what : String)
  /-- An Unsupported Request completion (R120). -/
  | unsupported (ctrl : Nat)
  /-- The answer to a BAR read. -/
  | barData (ctrl off value : Nat)
  /-- An ATS Invalidate Completion (R93). -/
  | atsComplete (port tag : Nat)
  /-- A Page Request (R94). -/
  | pageRequest (ctrl tag : Nat)
  /-- PME or WAKE_n driven towards the host (R439). -/
  | wake (port : Nat)
  /-- An AOP response frame's payload with its destination (R466). -/
  | aop (dest port : Nat) (payload : Bytes)
  /-- An NVMe-MI response over MCTP (R465). -/
  | mctp (eid status : Nat) (body : Bytes)
  /-- A flit sent on a Confluence port (R501, R513). -/
  | flit (port kind dst : Nat) (fields : List Nat)
  /-- THERMTRIP_n driven low (R56). -/
  | thermtrip
  deriving DecidableEq, Repr

/-! ## The device -/

/-- Key material fused into the die at manufacture; nothing changes it (R198, R537). -/
structure Fuses where
  /-- KEK 0, an AES-256 key. -/
  kek0 : Bytes := Config.kek0
  /-- The Omastoz boot key, a P-384 point, whose SHA-384 is what the die holds. -/
  bootKey : Nat × Nat := Config.bootKey
  deriving DecidableEq, Repr

/-- Everything of the part but the queue of commands that wait. -/
structure Dev where
  /-- Tidemark in nanoseconds since the last power-on reset, unwrapped; registers read it modulo 2^64 (R72, R73). -/
  tm : Nat := 0
  /-- The model's own: how many free values have been drawn. -/
  freeCount : Nat := 0
  /-- The model's own: what has been sent outside, newest first. -/
  out : List Output := []
  /-- Numbers written to or counted in dictionary objects, by index * 256 + subindex; absent = the default (R459). -/
  num : AMap Nat := []
  /-- Octet and text objects, by index * 256 + subindex; absent = the default. -/
  oct : AMap Bytes := []
  /-- Persisted writes per persistent object; no reset clears them (R477). -/
  wear : AMap Nat := []
  /-- What is fused into the die at manufacture. -/
  fuses : Fuses := {}
  /-- Which part this is; fused (R1, R8). -/
  variant : Variant := .vl7s
  /-- The device error log (R524). -/
  errLog : EventLog := {}
  /-- The violation log (R524). -/
  vioLog : EventLog := {}
  /-- Gauge. -/
  gauge : Gauge := {}
  /-- Memory: Pool, local memories, boot ROM and DRAM, one list of bytes keyed as Machine/Ops.lean says; unlisted bytes read 0. -/
  mem : List Host.Cell := []
  /-- Word keys (byte key / 4) that are stored poisoned, rising (R406). -/
  poisoned : List Nat := []
  /-- Integrity and Dredge. -/
  integ : Integrity := {}
  /-- The DRAM controller. -/
  dram : Dram := {}
  /-- The 34 cores; numbers 16 to 31 exist on the VL7-S only (R263). -/
  cores : Vector FxCore 34 := Vector.ofFn FxCore.atReset
  /-- Lines held in the line buffers: cluster (8 the supervisors), DRAM line number, and its bytes (R284). -/
  lineBufs : List (Nat × Nat × Bytes) := []
  /-- Eddy. -/
  eddy : Eddy := {}
  /-- Riffle A and B (R224). -/
  riffle : Vector RiffleUnit 2 := Vector.replicate 2 {}
  /-- The transaction. -/
  txn : Txn := {}
  /-- The Host island. -/
  host : HostIf := {}
  /-- Headwater. -/
  power : Power := {}
  /-- Firmware slots. -/
  fw : Firmware := {}
  /-- Weir. -/
  weir : Weir := {}
  /-- The key store and Estuary. -/
  keys : KeyStore := {}
  /-- Media management. -/
  media : Media := {}
  /-- Sessions. -/
  sess : Sessions := {}
  /-- Profiles by number (R180). -/
  profiles : AMap Profile := []
  /-- Requests in flight by request tag. -/
  reqs : AMap Req := []
  /-- The program runtime. -/
  rt : Runtime := {}
  /-- AOP. -/
  aop : Aop := {}
  /-- Cascade. -/
  cas : Cascade := {}
  deriving DecidableEq, Repr

/-- The machine: the part and the commands that wait, first in, first out. -/
structure State where
  /-- The part. -/
  dev : Dev := {}
  /-- Commands that wait. -/
  pending : List Instr := []
  deriving DecidableEq, Repr

/-- The part right after power-on reset, before START (R57): every field at its reset value. -/
def State.reset : State := { dev := {}, pending := [] }

end Sys2Proof.Machine
end

