-- ==== Sys2Proof/Machine/ObjTable.lean ====
section
/-! DEFINITION. Machine/ObjTable.lean: the rows of the object dictionary, one for one from the object tables of spec/ (R486 and the
rules it names): indices, subindices, type, access class, persistence, default, range and greatest length. -/
namespace Sys2Proof.Machine

/-- Rows of the object tables, in the order of the indices. -/
def objRows0 : List ObjRow := [
  ⟨0x1000, 0x1000, 1, 1, .vstring, .ro, false, 0, 0, 0, 7⟩,
  ⟨0x1000, 0x1000, 2, 2, .vstring, .ro, false, 0, 0, 0, 5⟩,
  ⟨0x1000, 0x1000, 3, 3, .u8, .ro, false, 16, 0, 255, 1⟩,
  ⟨0x1000, 0x1000, 4, 4, .vstring, .ro, false, 0, 0, 0, 20⟩,
  ⟨0x1000, 0x1000, 5, 5, .bcd32, .ro, false, 0, 0, 4294967295, 4⟩,
  ⟨0x1000, 0x1000, 6, 6, .bcd32, .ro, false, 0, 0, 4294967295, 4⟩,
  ⟨0x1000, 0x1000, 7, 7, .bcd32, .ro, false, 0, 0, 4294967295, 4⟩,
  ⟨0x1000, 0x1000, 8, 8, .vstring, .ro, false, 0, 0, 0, 223⟩,
  ⟨0x1000, 0x1000, 9, 9, .u16, .ro, false, 1, 0, 65535, 2⟩,
  ⟨0x1000, 0x1000, 10, 10, .u8, .ro, false, 0, 0, 255, 1⟩,
  ⟨0x1008, 0x1008, 1, 1, .u8, .ro, false, 0, 0, 255, 1⟩,
  ⟨0x1008, 0x1008, 2, 2, .u32, .ro, false, 0, 0, 4294967295, 4⟩,
  ⟨0x1008, 0x1008, 3, 3, .u32, .ro, false, 0, 0, 4294967295, 4⟩,
  ⟨0x1008, 0x1008, 4, 4, .u16, .ro, false, 0, 0, 65535, 2⟩,
  ⟨0x1008, 0x1008, 5, 5, .u8, .ro, false, 0, 0, 255, 1⟩,
  ⟨0x1008, 0x1008, 6, 6, .u16, .ro, false, 0, 0, 65535, 2⟩,
  ⟨0x1010, 0x1010, 1, 1, .u8, .ro, false, 0, 0, 255, 1⟩,
  ⟨0x1010, 0x1010, 2, 2, .bool, .ro, false, 0, 0, 1, 1⟩,
  ⟨0x1010, 0x1010, 3, 3, .bool, .ro, false, 0, 0, 1, 1⟩,
  ⟨0x1100, 0x1100, 1, 1, .u8, .wo, false, 0, 1, 3, 1⟩,
  ⟨0x1100, 0x1100, 2, 2, .u8, .ro, false, 0, 0, 255, 1⟩,
  ⟨0x1100, 0x1100, 3, 3, .u32, .ro, false, 0, 0, 4294967295, 4⟩,
  ⟨0x1100, 0x1100, 4, 4, .u32, .rwp, true, 10000, 1000, 600000, 4⟩,
  ⟨0x1100, 0x1100, 5, 5, .u16, .ro, false, 0, 0, 65535, 2⟩ ]

/-- Rows of the object tables, continued. -/
def objRows1 : List ObjRow := [
  ⟨0x1100, 0x1100, 6, 6, .u32, .ro, true, 0, 0, 4294967295, 4⟩,
  ⟨0x1100, 0x1100, 7, 7, .u32, .ro, false, 0, 0, 4294967295, 4⟩,
  ⟨0x1100, 0x1100, 8, 8, .u16, .ro, false, 0, 0, 65535, 2⟩,
  ⟨0x1100, 0x1100, 9, 9, .u8, .ro, false, 0, 0, 255, 1⟩,
  ⟨0x2000, 0x2000, 1, 1, .u16, .ro, false, 0, 0, 65535, 2⟩,
  ⟨0x2000, 0x2000, 2, 2, .u32, .rw, false, 0, 0, 4294967295, 4⟩,
  ⟨0x2000, 0x2000, 3, 3, .u32, .ro, false, 0, 0, 4294967295, 4⟩,
  ⟨0x2000, 0x2000, 4, 4, .u8, .ro, false, 0, 0, 255, 1⟩,
  ⟨0x2000, 0x2000, 5, 5, .u16, .ro, false, 0, 0, 65535, 2⟩,
  ⟨0x2000, 0x2000, 6, 6, .u16, .ro, false, 0, 0, 65535, 2⟩,
  ⟨0x2000, 0x2000, 7, 7, .u32, .ro, false, 0, 0, 4294967295, 4⟩,
  ⟨0x2000, 0x2000, 8, 8, .u32, .ro, false, 0, 0, 4294967295, 4⟩,
  ⟨0x2010, 0x2010, 1, 4, .octets, .wo, false, 0, 0, 0, 44⟩,
  ⟨0x2011, 0x2011, 1, 4, .u8, .ro, true, 0, 0, 255, 1⟩,
  ⟨0x2020, 0x2020, 1, 1, .u16, .rwp, true, 47800, 1024, 65535, 2⟩,
  ⟨0x2020, 0x2020, 2, 2, .u8, .rwp, true, 255, 0, 255, 1⟩,
  ⟨0x2020, 0x2020, 3, 3, .u8, .rwp, true, 8, 2, 32, 1⟩,
  ⟨0x2020, 0x2020, 4, 4, .bool, .rwp, true, 1, 0, 1, 1⟩,
  ⟨0x2020, 0x2020, 5, 5, .octets, .ro, false, 0, 0, 0, 6⟩,
  ⟨0x2020, 0x2020, 6, 6, .u32, .ro, true, 0, 0, 4294967295, 4⟩,
  ⟨0x2020, 0x2020, 7, 7, .u8, .rwp, true, 2, 0, 2, 1⟩,
  ⟨0x2020, 0x2020, 8, 8, .u32, .ro, false, 0, 0, 4294967295, 4⟩,
  ⟨0x2020, 0x2020, 9, 9, .u32, .ro, false, 0, 0, 4294967295, 4⟩,
  ⟨0x2030, 0x2030, 1, 1, .vstring, .rwp, true, 0, 0, 0, 32⟩ ]

/-- Rows of the object tables, continued. -/
def objRows2 : List ObjRow := [
  ⟨0x2030, 0x2030, 2, 2, .u32, .rwp, true, 0, 0, 4294967295, 4⟩,
  ⟨0x2040, 0x2040, 1, 1, .u8, .rwp, true, 1, 0, 3, 1⟩,
  ⟨0x2040, 0x2040, 2, 2, .bool, .rw, false, 0, 0, 1, 1⟩,
  ⟨0x2050, 0x2050, 1, 1, .u8, .rwp, true, 0, 0, 255, 1⟩,
  ⟨0x2050, 0x2050, 2, 2, .u8, .rw, false, 0, 0, 255, 1⟩,
  ⟨0x2050, 0x2050, 3, 3, .u8, .ro, false, 0, 0, 255, 1⟩,
  ⟨0x3010, 0x3010, 1, 1, .u64, .ro, false, 0, 0, 18446744073709551615, 8⟩,
  ⟨0x3010, 0x3010, 2, 2, .u16, .ro, false, 40, 0, 65535, 2⟩,
  ⟨0x3010, 0x3010, 3, 3, .u16, .ro, false, 20, 0, 65535, 2⟩,
  ⟨0x3010, 0x3010, 4, 4, .u32, .ro, false, 0, 0, 4294967295, 4⟩,
  ⟨0x3020, 0x3020, 1, 1, .u32, .ro, false, 0, 0, 4294967295, 4⟩,
  ⟨0x3020, 0x3020, 2, 2, .u32, .ro, false, 0, 0, 4294967295, 4⟩,
  ⟨0x3020, 0x3020, 3, 3, .u32, .ro, false, 0, 0, 4294967295, 4⟩,
  ⟨0x3020, 0x3020, 4, 11, .u32, .ro, false, 0, 0, 4294967295, 4⟩,
  ⟨0x3020, 0x3020, 12, 12, .u32, .ro, false, 0, 0, 4294967295, 4⟩,
  ⟨0x3020, 0x3020, 13, 14, .u32, .ro, false, 0, 0, 4294967295, 4⟩,
  ⟨0x3020, 0x3020, 15, 15, .u32, .ro, false, 0, 0, 4294967295, 4⟩,
  ⟨0x3020, 0x3020, 16, 16, .u32, .ro, false, 0, 0, 4294967295, 4⟩,
  ⟨0x3020, 0x3020, 17, 17, .u32, .ro, false, 0, 0, 4294967295, 4⟩,
  ⟨0x3020, 0x3020, 18, 33, .u32, .ro, false, 0, 0, 4294967295, 4⟩,
  ⟨0x3020, 0x3020, 34, 37, .u32, .ro, false, 0, 0, 4294967295, 4⟩,
  ⟨0x3020, 0x3020, 38, 38, .u32, .ro, false, 0, 0, 4294967295, 4⟩,
  ⟨0x3020, 0x3020, 39, 39, .u32, .ro, false, 0, 0, 4294967295, 4⟩,
  ⟨0x3020, 0x3020, 40, 40, .u32, .ro, false, 0, 0, 4294967295, 4⟩ ]

/-- Rows of the object tables, continued. -/
def objRows3 : List ObjRow := [
  ⟨0x3020, 0x3020, 41, 41, .u32, .ro, false, 0, 0, 4294967295, 4⟩,
  ⟨0x3040, 0x3040, 1, 1, .u32, .ro, true, 0, 0, 4294967295, 4⟩,
  ⟨0x3040, 0x3040, 2, 2, .q16, .ro, true, 0, 0, 4294967295, 4⟩,
  ⟨0x3040, 0x3040, 3, 3, .u32, .ro, true, 0, 0, 4294967295, 4⟩,
  ⟨0x3040, 0x3040, 4, 4, .u32, .ro, true, 0, 0, 4294967295, 4⟩,
  ⟨0x3040, 0x3040, 5, 5, .q16, .ro, true, 0, 0, 4294967295, 4⟩,
  ⟨0x3040, 0x3040, 6, 6, .u16, .ro, true, 0, 0, 65535, 2⟩,
  ⟨0x3050, 0x3050, 1, 1, .u8, .ro, false, 0, 0, 255, 1⟩,
  ⟨0x3050, 0x3050, 2, 2, .u8, .ro, false, 0, 0, 255, 1⟩,
  ⟨0x3050, 0x3050, 3, 3, .u8, .wo, false, 0, 4, 4, 1⟩,
  ⟨0x3050, 0x3050, 4, 4, .u32, .rwp, true, 5000, 100, 1000000, 4⟩,
  ⟨0x3050, 0x3050, 5, 5, .bool, .rwp, true, 1, 0, 1, 1⟩,
  ⟨0x3050, 0x3050, 6, 6, .u8, .rwp, true, 4, 2, 16, 1⟩,
  ⟨0x3050, 0x3050, 7, 7, .bool, .rw, false, 0, 0, 1, 1⟩,
  ⟨0x3051, 0x3051, 1, 1, .u16, .rwp, true, 251, 0, 255, 2⟩,
  ⟨0x3051, 0x3051, 2, 2, .u16, .ro, false, 0, 0, 65535, 2⟩,
  ⟨0x3051, 0x3051, 3, 3, .u64, .ro, false, 0, 0, 18446744073709551615, 8⟩,
  ⟨0x3051, 0x3051, 4, 4, .u32, .ro, false, 0, 0, 4294967295, 4⟩,
  ⟨0x3051, 0x3051, 5, 5, .u32, .ro, false, 0, 0, 4294967295, 4⟩,
  ⟨0x3051, 0x3051, 6, 6, .u32, .ro, false, 0, 0, 4294967295, 4⟩,
  ⟨0x3051, 0x3051, 7, 7, .u64, .rw, false, 0, 0, 18446744073709551615, 8⟩,
  ⟨0x3051, 0x3051, 8, 8, .u8, .rwp, true, 0, 0, 255, 1⟩,
  ⟨0x3051, 0x3051, 9, 9, .u8, .rwp, true, 0, 0, 255, 1⟩,
  ⟨0x3051, 0x3051, 10, 10, .u32, .ro, false, 0, 0, 4294967295, 4⟩ ]

/-- Rows of the object tables, continued. -/
def objRows4 : List ObjRow := [
  ⟨0x3052, 0x3052, 1, 1, .bool, .rwp, true, 1, 0, 1, 1⟩,
  ⟨0x3052, 0x3052, 2, 5, .octets, .rwp, true, 0, 0, 0, 34⟩,
  ⟨0x3053, 0x3053, 1, 1, .bool, .rw, false, 0, 0, 0, 1⟩,
  ⟨0x3053, 0x3053, 2, 2, .u64, .ro, false, 0, 0, 18446744073709551615, 8⟩,
  ⟨0x3053, 0x3053, 3, 3, .u64, .ro, false, 0, 0, 18446744073709551615, 8⟩,
  ⟨0x3053, 0x3053, 4, 4, .u64, .ro, false, 0, 0, 18446744073709551615, 8⟩,
  ⟨0x3053, 0x3053, 5, 5, .u16, .rwp, true, 20, 1, 500, 2⟩,
  ⟨0x3053, 0x3053, 6, 6, .u32, .ro, false, 0, 0, 4294967295, 4⟩,
  ⟨0x3100, 0x3100, 1, 1, .bool, .rwp, true, 1, 0, 1, 1⟩,
  ⟨0x3100, 0x3100, 2, 2, .u8, .rwp, true, 10, 2, 100, 1⟩,
  ⟨0x3100, 0x3100, 3, 3, .bool, .rw, false, 0, 0, 1, 1⟩,
  ⟨0x3100, 0x3100, 4, 4, .u8, .ro, false, 1, 0, 255, 1⟩,
  ⟨0x3100, 0x3100, 5, 5, .u32, .ro, false, 0, 0, 4294967295, 4⟩,
  ⟨0x3100, 0x3100, 6, 6, .u8, .ro, false, 0, 0, 255, 1⟩,
  ⟨0x3100, 0x3100, 7, 7, .u32, .ro, false, 0, 0, 4294967295, 4⟩,
  ⟨0x3100, 0x3100, 8, 8, .u32, .ro, false, 0, 0, 4294967295, 4⟩,
  ⟨0x3100, 0x3100, 9, 9, .u64, .ro, false, 0, 0, 18446744073709551615, 8⟩,
  ⟨0x3100, 0x3100, 10, 10, .u32, .ro, false, 0, 0, 4294967295, 4⟩,
  ⟨0x3101, 0x3101, 1, 28, .q16, .ro, false, 0, 0, 4294967295, 4⟩,
  ⟨0x3102, 0x3102, 1, 2, .q16, .rwp, true, 1310720, 0, 4294967295, 4⟩,
  ⟨0x3110, 0x3113, 1, 1, .q16, .rwp, true, 0, 0, 4294967295, 4⟩,
  ⟨0x3110, 0x3113, 2, 2, .q16, .rwp, true, 0, 0, 4294967295, 4⟩,
  ⟨0x3110, 0x3113, 3, 3, .u8, .rwp, true, 0, 0, 31, 1⟩,
  ⟨0x3110, 0x3113, 4, 4, .q16, .ro, false, 0, 0, 4294967295, 4⟩ ]

/-- Rows of the object tables, continued. -/
def objRows5 : List ObjRow := [
  ⟨0x3110, 0x3113, 5, 5, .bool, .ro, false, 0, 0, 1, 1⟩,
  ⟨0x3120, 0x3120, 1, 16, .q16, .rwp, true, 0, 0, 4294967295, 4⟩,
  ⟨0x3121, 0x3121, 1, 4, .q16, .ro, false, 0, 0, 4294967295, 4⟩,
  ⟨0x3121, 0x3121, 5, 5, .u8, .ro, false, 0, 0, 255, 1⟩,
  ⟨0x3122, 0x3122, 1, 4, .q16, .rwp, true, 0, 0, 4294967295, 4⟩,
  ⟨0x3122, 0x3122, 5, 8, .q16, .rwp, true, 0, 0, 4294967295, 4⟩,
  ⟨0x3130, 0x3130, 1, 64, .u32, .rwp, true, 0, 0, 4294967295, 4⟩,
  ⟨0x3140, 0x3140, 1, 1, .u16, .ro, false, 0, 0, 65535, 2⟩,
  ⟨0x3140, 0x3140, 2, 2, .u16, .rwp, true, 8, 1, 512, 2⟩,
  ⟨0x3140, 0x3140, 3, 3, .u16, .rwp, true, 512, 1, 512, 2⟩,
  ⟨0x3140, 0x3140, 4, 4, .u64, .ro, false, 0, 0, 18446744073709551615, 8⟩,
  ⟨0x3150, 0x3150, 1, 1, .q16, .rwp, true, 7208960, 0, 4294967295, 4⟩,
  ⟨0x3150, 0x3150, 2, 3, .q16, .rwp, true, 2147483647, 0, 4294967295, 4⟩,
  ⟨0x3150, 0x3150, 4, 4, .u8, .ro, false, 0, 0, 255, 1⟩,
  ⟨0x3400, 0x3400, 1, 1, .u8, .rwp, true, 8, 4, 8, 1⟩,
  ⟨0x3400, 0x3400, 2, 2, .u8, .rwp, true, 16, 16, 32, 1⟩,
  ⟨0x3400, 0x3400, 3, 3, .u8, .rwp, true, 1, 1, 2, 1⟩,
  ⟨0x3400, 0x3400, 4, 4, .u16, .rwp, true, 6400, 4800, 6400, 2⟩,
  ⟨0x3400, 0x3400, 5, 5, .u8, .ro, false, 0, 0, 255, 1⟩,
  ⟨0x3410, 0x3410, 1, 1, .q16, .ro, false, 0, 0, 4294967295, 4⟩,
  ⟨0x3410, 0x3410, 2, 2, .u8, .rwp, true, 15, 5, 30, 1⟩,
  ⟨0x3410, 0x3410, 3, 3, .u32, .ro, false, 0, 0, 4294967295, 4⟩,
  ⟨0x3410, 0x3410, 4, 4, .u32, .ro, false, 0, 0, 4294967295, 4⟩,
  ⟨0x3410, 0x3410, 5, 5, .u64, .ro, false, 0, 0, 18446744073709551615, 8⟩ ]

/-- Rows of the object tables, continued. -/
def objRows6 : List ObjRow := [
  ⟨0x3411, 0x3414, 1, 10, .u32, .ro, false, 0, 0, 4294967295, 4⟩,
  ⟨0x3420, 0x3420, 1, 1, .u32, .ro, false, 3900, 0, 4294967295, 4⟩,
  ⟨0x3420, 0x3420, 2, 2, .u64, .ro, false, 0, 0, 18446744073709551615, 8⟩,
  ⟨0x3420, 0x3420, 3, 3, .u8, .ro, false, 0, 0, 255, 1⟩,
  ⟨0x3420, 0x3420, 4, 4, .u32, .ro, false, 0, 0, 4294967295, 4⟩,
  ⟨0x3420, 0x3420, 5, 5, .u8, .rwp, true, 11, 6, 16, 1⟩,
  ⟨0x3420, 0x3420, 6, 6, .u64, .ro, false, 0, 0, 18446744073709551615, 8⟩,
  ⟨0x3420, 0x3420, 7, 7, .u64, .ro, false, 0, 0, 18446744073709551615, 8⟩,
  ⟨0x3420, 0x3420, 8, 8, .u32, .ro, false, 0, 0, 4294967295, 4⟩,
  ⟨0x3430, 0x3430, 1, 1, .u8, .rwp, true, 48, 8, 64, 1⟩,
  ⟨0x3430, 0x3430, 2, 2, .u8, .rwp, true, 16, 0, 56, 1⟩,
  ⟨0x3430, 0x3430, 3, 3, .u16, .rwp, true, 20, 1, 1000, 2⟩,
  ⟨0x3430, 0x3430, 4, 4, .u16, .ro, false, 0, 0, 65535, 2⟩,
  ⟨0x3430, 0x3430, 5, 5, .u64, .ro, false, 0, 0, 18446744073709551615, 8⟩,
  ⟨0x3430, 0x3430, 6, 6, .u32, .ro, false, 0, 0, 4294967295, 4⟩,
  ⟨0x3430, 0x3430, 7, 7, .u32, .ro, false, 0, 0, 4294967295, 4⟩,
  ⟨0x3440, 0x3440, 1, 1, .u32, .ro, false, 0, 0, 4294967295, 4⟩,
  ⟨0x3440, 0x3440, 2, 2, .u32, .ro, false, 0, 0, 4294967295, 4⟩,
  ⟨0x3440, 0x3440, 3, 3, .u32, .ro, false, 0, 0, 4294967295, 4⟩,
  ⟨0x3800, 0x3800, 1, 1, .u8, .ro, false, 16, 0, 255, 1⟩,
  ⟨0x3800, 0x3800, 2, 2, .u8, .ro, false, 0, 0, 255, 1⟩,
  ⟨0x3800, 0x3800, 3, 3, .u8, .ro, false, 0, 0, 255, 1⟩,
  ⟨0x3800, 0x3800, 4, 4, .u8, .ro, false, 0, 0, 255, 1⟩,
  ⟨0x3800, 0x3800, 5, 5, .u16, .ro, false, 0, 0, 65535, 2⟩ ]

/-- Rows of the object tables, continued. -/
def objRows7 : List ObjRow := [
  ⟨0x3800, 0x3800, 6, 6, .u16, .ro, false, 0, 0, 65535, 2⟩,
  ⟨0x3800, 0x3800, 7, 7, .u8, .ro, false, 0, 0, 255, 1⟩,
  ⟨0x3800, 0x3800, 8, 8, .u64, .ro, false, 0, 0, 18446744073709551615, 8⟩,
  ⟨0x3800, 0x3800, 9, 9, .u16, .ro, false, 0, 0, 65535, 2⟩,
  ⟨0x3800, 0x3800, 10, 10, .u32, .ro, false, 0, 0, 4294967295, 4⟩,
  ⟨0x3800, 0x3800, 11, 11, .u16, .ro, false, 0, 0, 65535, 2⟩,
  ⟨0x3800, 0x3800, 12, 12, .u16, .ro, false, 0, 0, 65535, 2⟩,
  ⟨0x3810, 0x3810, 1, 1, .u8, .rwp, true, 3, 1, 6, 1⟩,
  ⟨0x3810, 0x3810, 2, 2, .u8, .rwp, true, 75, 1, 100, 1⟩,
  ⟨0x3810, 0x3810, 3, 3, .u8, .rwp, true, 50, 0, 99, 1⟩,
  ⟨0x3810, 0x3810, 4, 4, .u8, .ro, false, 0, 0, 255, 1⟩,
  ⟨0x3810, 0x3810, 5, 5, .u64, .ro, false, 0, 0, 18446744073709551615, 8⟩,
  ⟨0x3820, 0x3820, 1, 1, .u8, .rwp, true, 8, 3, 64, 1⟩,
  ⟨0x3820, 0x3820, 2, 2, .u8, .rwp, true, 2, 1, 63, 1⟩,
  ⟨0x3820, 0x3820, 3, 3, .u16, .rwp, true, 500, 50, 10000, 2⟩,
  ⟨0x3820, 0x3820, 4, 4, .u32, .rwp, true, 100000, 10000, 10000000, 4⟩,
  ⟨0x3820, 0x3820, 5, 5, .u64, .ro, false, 0, 0, 18446744073709551615, 8⟩,
  ⟨0x3820, 0x3820, 6, 6, .u64, .ro, false, 0, 0, 18446744073709551615, 8⟩,
  ⟨0x3820, 0x3820, 7, 7, .u32, .ro, false, 0, 0, 4294967295, 4⟩,
  ⟨0x3820, 0x3820, 8, 8, .u32, .ro, false, 0, 0, 4294967295, 4⟩,
  ⟨0x3820, 0x3820, 9, 9, .u32, .ro, false, 0, 0, 4294967295, 4⟩,
  ⟨0x3820, 0x3820, 10, 10, .u32, .ro, false, 0, 0, 4294967295, 4⟩,
  ⟨0x3830, 0x3830, 1, 1, .u32, .ro, false, 0, 0, 4294967295, 4⟩,
  ⟨0x3830, 0x3830, 2, 2, .u32, .ro, false, 0, 0, 4294967295, 4⟩ ]

/-- Rows of the object tables, continued. -/
def objRows8 : List ObjRow := [
  ⟨0x3830, 0x3830, 3, 3, .u64, .ro, false, 0, 0, 18446744073709551615, 8⟩,
  ⟨0x3830, 0x3830, 4, 4, .u8, .ro, false, 0, 0, 255, 1⟩,
  ⟨0x3840, 0x3840, 1, 1, .u64, .ro, false, 0, 0, 18446744073709551615, 8⟩,
  ⟨0x3840, 0x3840, 2, 2, .u64, .ro, false, 0, 0, 18446744073709551615, 8⟩,
  ⟨0x3840, 0x3840, 3, 3, .u64, .ro, false, 0, 0, 18446744073709551615, 8⟩,
  ⟨0x3840, 0x3840, 4, 4, .u64, .ro, false, 0, 0, 18446744073709551615, 8⟩,
  ⟨0x3840, 0x3840, 5, 5, .u8, .rwp, true, 15, 0, 15, 1⟩,
  ⟨0x3850, 0x3850, 1, 1, .u64, .ro, false, 0, 0, 18446744073709551615, 8⟩,
  ⟨0x3850, 0x3850, 2, 2, .u64, .ro, false, 0, 0, 18446744073709551615, 8⟩,
  ⟨0x3850, 0x3850, 3, 3, .u8, .ro, false, 0, 0, 255, 1⟩,
  ⟨0x3850, 0x3850, 4, 4, .u32, .ro, false, 0, 0, 4294967295, 4⟩,
  ⟨0x3850, 0x3850, 5, 5, .u32, .ro, false, 0, 0, 4294967295, 4⟩,
  ⟨0x3850, 0x3850, 6, 6, .u32, .ro, false, 0, 0, 4294967295, 4⟩,
  ⟨0x3850, 0x3850, 7, 7, .u32, .ro, true, 0, 0, 4294967295, 4⟩,
  ⟨0x3860, 0x3860, 1, 3, .u64, .ro, false, 0, 0, 18446744073709551615, 8⟩,
  ⟨0x3860, 0x3860, 4, 6, .u64, .ro, false, 0, 0, 18446744073709551615, 8⟩,
  ⟨0x3860, 0x3860, 7, 7, .u64, .ro, false, 0, 0, 18446744073709551615, 8⟩,
  ⟨0x3860, 0x3860, 8, 8, .u64, .ro, false, 0, 0, 18446744073709551615, 8⟩,
  ⟨0x4000, 0x4000, 1, 1, .u8, .ro, false, 0, 0, 255, 1⟩,
  ⟨0x4000, 0x4000, 2, 2, .u16, .ro, false, 0, 0, 65535, 2⟩,
  ⟨0x4000, 0x4000, 3, 3, .u16, .ro, false, 0, 0, 65535, 2⟩,
  ⟨0x4000, 0x4000, 4, 4, .u32, .ro, false, 0, 0, 4294967295, 4⟩,
  ⟨0x4000, 0x4000, 5, 5, .u32, .ro, false, 0, 0, 4294967295, 4⟩,
  ⟨0x4001, 0x4001, 1, 1, .u8, .rwp, true, 5, 1, 5, 1⟩ ]

/-- Rows of the object tables, continued. -/
def objRows9 : List ObjRow := [
  ⟨0x4010, 0x4010, 1, 1, .u16, .rwp, true, 0, 0, 65535, 2⟩,
  ⟨0x4020, 0x4020, 1, 1, .u32, .ro, false, 0, 0, 4294967295, 4⟩,
  ⟨0x4020, 0x4020, 2, 2, .u16, .ro, false, 0, 0, 65535, 2⟩,
  ⟨0x4020, 0x4020, 3, 3, .u32, .ro, false, 0, 0, 4294967295, 4⟩,
  ⟨0x4020, 0x4020, 4, 4, .u32, .ro, false, 0, 0, 4294967295, 4⟩,
  ⟨0x4020, 0x4020, 5, 5, .u16, .ro, false, 0, 0, 65535, 2⟩,
  ⟨0x4020, 0x4020, 6, 6, .u32, .ro, false, 0, 0, 4294967295, 4⟩,
  ⟨0x4020, 0x4020, 7, 7, .u8, .rwp, true, 16, 1, 255, 1⟩,
  ⟨0x4100, 0x41fe, 1, 1, .u32, .rwp, true, 256, 0, 4294967295, 4⟩,
  ⟨0x4100, 0x41fe, 2, 2, .u16, .rwp, true, 32, 0, 65535, 2⟩,
  ⟨0x4100, 0x41fe, 3, 3, .u32, .rwp, true, 0, 0, 4294967295, 4⟩,
  ⟨0x4100, 0x41fe, 4, 4, .u8, .rwp, true, 16, 1, 255, 1⟩,
  ⟨0x4100, 0x41fe, 5, 5, .u32, .ro, false, 0, 0, 4294967295, 4⟩,
  ⟨0x4100, 0x41fe, 6, 6, .u16, .ro, false, 0, 0, 65535, 2⟩,
  ⟨0x4100, 0x41fe, 7, 7, .u32, .ro, false, 0, 0, 4294967295, 4⟩,
  ⟨0x4100, 0x41fe, 8, 8, .u8, .ro, false, 0, 0, 255, 1⟩,
  ⟨0x4100, 0x41fe, 9, 9, .u16, .ro, false, 0, 0, 65535, 2⟩,
  ⟨0x4100, 0x41fe, 10, 10, .u16, .ro, false, 0, 0, 65535, 2⟩,
  ⟨0x5000, 0x5000, 1, 1, .u8, .ro, false, 0, 0, 255, 1⟩,
  ⟨0x5000, 0x5000, 2, 2, .u8, .ro, false, 128, 0, 255, 1⟩,
  ⟨0x5000, 0x5000, 3, 3, .u8, .ro, false, 0, 0, 255, 1⟩,
  ⟨0x5001, 0x5001, 1, 1, .u16, .ro, false, 0, 0, 65535, 2⟩,
  ⟨0x5001, 0x5001, 2, 2, .u16, .ro, false, 65535, 0, 65535, 2⟩,
  ⟨0x5001, 0x5001, 3, 3, .u8, .ro, false, 0, 0, 255, 1⟩ ]

/-- Rows of the object tables, continued. -/
def objRows10 : List ObjRow := [
  ⟨0x5010, 0x5010, 1, 1, .u32, .ro, false, 0, 0, 4294967295, 4⟩,
  ⟨0x5010, 0x5010, 2, 2, .u32, .ro, false, 0, 0, 4294967295, 4⟩,
  ⟨0x5010, 0x5010, 3, 3, .u32, .ro, false, 0, 0, 4294967295, 4⟩,
  ⟨0x5010, 0x5010, 4, 4, .u32, .ro, false, 0, 0, 4294967295, 4⟩,
  ⟨0x5100, 0x513f, 1, 1, .u8, .ro, false, 0, 0, 255, 1⟩,
  ⟨0x5100, 0x513f, 2, 2, .octets, .rwt, false, 0, 0, 0, 16384⟩,
  ⟨0x5100, 0x513f, 3, 3, .u8, .rwt, false, 0, 1, 1, 1⟩,
  ⟨0x5100, 0x513f, 4, 4, .u32, .ro, false, 0, 0, 4294967295, 4⟩,
  ⟨0x5100, 0x513f, 5, 5, .u32, .ro, false, 0, 0, 4294967295, 4⟩,
  ⟨0x5100, 0x513f, 6, 6, .u32, .ro, false, 0, 0, 4294967295, 4⟩,
  ⟨0x5100, 0x513f, 7, 7, .u64, .ro, false, 0, 0, 18446744073709551615, 8⟩,
  ⟨0x5800, 0x5800, 1, 1, .u8, .ro, false, 0, 0, 255, 1⟩,
  ⟨0x5800, 0x5800, 2, 2, .u8, .ro, false, 0, 0, 255, 1⟩,
  ⟨0x5800, 0x5800, 3, 3, .u8, .ro, false, 0, 0, 255, 1⟩,
  ⟨0x5800, 0x5800, 4, 4, .u8, .ro, false, 0, 0, 255, 1⟩,
  ⟨0x5800, 0x5800, 5, 5, .u32, .ro, false, 0, 0, 4294967295, 4⟩,
  ⟨0x5800, 0x5800, 6, 6, .u32, .ro, false, 0, 0, 4294967295, 4⟩,
  ⟨0x5800, 0x5800, 7, 7, .u32, .ro, false, 0, 0, 4294967295, 4⟩,
  ⟨0x5800, 0x5800, 8, 8, .u32, .ro, false, 0, 0, 4294967295, 4⟩,
  ⟨0x5800, 0x5800, 9, 9, .u8, .wo, false, 0, 0, 1, 1⟩,
  ⟨0x5800, 0x5800, 10, 10, .u8, .ro, false, 255, 0, 255, 1⟩,
  ⟨0x5810, 0x5810, 1, 1, .u16, .ro, false, 0, 0, 65535, 2⟩,
  ⟨0x5810, 0x5810, 2, 2, .u16, .ro, false, 0, 0, 65535, 2⟩,
  ⟨0x5810, 0x5810, 3, 3, .u16, .ro, false, 0, 0, 65535, 2⟩ ]

/-- Rows of the object tables, continued. -/
def objRows11 : List ObjRow := [
  ⟨0x5810, 0x5810, 4, 4, .u32, .ro, false, 0, 0, 4294967295, 4⟩,
  ⟨0x5810, 0x5810, 5, 5, .u64, .ro, false, 0, 0, 18446744073709551615, 8⟩,
  ⟨0x5810, 0x5810, 6, 6, .u32, .ro, false, 0, 0, 4294967295, 4⟩,
  ⟨0x5810, 0x5810, 7, 7, .u32, .ro, false, 0, 0, 4294967295, 4⟩,
  ⟨0x5810, 0x5810, 8, 8, .u16, .ro, false, 0, 0, 65535, 2⟩,
  ⟨0x5820, 0x5820, 1, 1, .u8, .ro, false, 0, 0, 255, 1⟩,
  ⟨0x5820, 0x5820, 2, 2, .u8, .ro, false, 0, 0, 255, 1⟩,
  ⟨0x5820, 0x5820, 3, 3, .u64, .ro, false, 0, 0, 18446744073709551615, 8⟩,
  ⟨0x5820, 0x5820, 4, 4, .u32, .ro, false, 0, 0, 4294967295, 4⟩,
  ⟨0x5820, 0x5820, 5, 5, .u32, .ro, true, 0, 0, 4294967295, 4⟩,
  ⟨0x5830, 0x5830, 1, 1, .u16, .rw, false, 0, 0, 8191, 2⟩,
  ⟨0x5830, 0x5830, 2, 2, .u8, .ro, false, 0, 0, 255, 1⟩,
  ⟨0x5830, 0x5830, 3, 3, .u8, .ro, false, 0, 0, 255, 1⟩,
  ⟨0x5830, 0x5830, 4, 4, .u16, .ro, false, 0, 0, 65535, 2⟩,
  ⟨0x5830, 0x5830, 5, 5, .u16, .ro, false, 0, 0, 65535, 2⟩,
  ⟨0x5830, 0x5830, 6, 6, .u16, .ro, false, 0, 0, 65535, 2⟩,
  ⟨0x5830, 0x5830, 7, 7, .u32, .ro, false, 0, 0, 4294967295, 4⟩,
  ⟨0x5830, 0x5830, 8, 8, .u32, .ro, false, 0, 0, 4294967295, 4⟩,
  ⟨0x5830, 0x5830, 9, 9, .octets, .ro, false, 0, 0, 0, 16⟩,
  ⟨0x5830, 0x5830, 10, 10, .u32, .ro, false, 0, 0, 4294967295, 4⟩,
  ⟨0x5830, 0x5830, 11, 11, .u32, .ro, false, 0, 0, 4294967295, 4⟩,
  ⟨0x5830, 0x5830, 12, 12, .u32, .ro, false, 0, 0, 4294967295, 4⟩,
  ⟨0x5830, 0x5830, 13, 13, .u64, .ro, false, 0, 0, 18446744073709551615, 8⟩,
  ⟨0x6000, 0x6000, 1, 1, .u32, .ro, false, 0, 0, 4294967295, 4⟩ ]

/-- Rows of the object tables, continued. -/
def objRows12 : List ObjRow := [
  ⟨0x6000, 0x6000, 2, 2, .u32, .ro, false, 57344, 0, 4294967295, 4⟩,
  ⟨0x6000, 0x6000, 3, 3, .u8, .rwp, true, 16, 0, 128, 1⟩,
  ⟨0x6000, 0x6000, 4, 4, .u64, .ro, false, 0, 0, 18446744073709551615, 8⟩,
  ⟨0x6000, 0x6000, 5, 5, .u64, .ro, false, 0, 0, 18446744073709551615, 8⟩,
  ⟨0x6000, 0x6000, 6, 6, .u32, .ro, false, 0, 0, 4294967295, 4⟩,
  ⟨0x6000, 0x6000, 7, 7, .u32, .ro, false, 0, 0, 4294967295, 4⟩,
  ⟨0x6000, 0x6000, 8, 8, .u32, .ro, false, 0, 0, 4294967295, 4⟩,
  ⟨0x6010, 0x6010, 1, 4, .octets, .ro, false, 0, 0, 0, 16⟩,
  ⟨0x6010, 0x6010, 5, 16, .octets, .rwp, true, 0, 0, 0, 16⟩,
  ⟨0x6020, 0x6020, 1, 1, .u32, .rwt, true, 16660480, 0, 4294967295, 4⟩,
  ⟨0x6020, 0x6020, 2, 2, .u32, .rwt, true, 16648248, 0, 4294967295, 4⟩,
  ⟨0x6020, 0x6020, 3, 8, .u32, .rwt, true, 16711680, 0, 4294967295, 4⟩,
  ⟨0x6030, 0x6030, 1, 8, .u32, .ro, false, 0, 0, 4294967295, 4⟩,
  ⟨0x6040, 0x6040, 1, 1, .u64, .rw, false, 0, 0, 281474976710655, 8⟩,
  ⟨0x6040, 0x6040, 2, 2, .u32, .ro, false, 0, 0, 4294967295, 4⟩,
  ⟨0x6040, 0x6040, 3, 3, .u8, .ro, false, 0, 0, 255, 1⟩,
  ⟨0x6800, 0x6800, 1, 1, .u8, .rwp, true, 32, 0, 128, 1⟩,
  ⟨0x6800, 0x6800, 2, 2, .u32, .ro, false, 0, 0, 4294967295, 4⟩,
  ⟨0x6810, 0x6811, 1, 1, .u8, .ro, false, 0, 0, 255, 1⟩,
  ⟨0x6810, 0x6811, 2, 2, .u8, .ro, false, 0, 0, 255, 1⟩,
  ⟨0x6810, 0x6811, 3, 3, .u8, .ro, false, 0, 0, 255, 1⟩,
  ⟨0x6810, 0x6811, 4, 4, .u64, .ro, false, 0, 0, 18446744073709551615, 8⟩,
  ⟨0x6810, 0x6811, 5, 5, .u64, .ro, false, 0, 0, 18446744073709551615, 8⟩,
  ⟨0x6810, 0x6811, 6, 6, .u32, .ro, false, 0, 0, 4294967295, 4⟩ ]

/-- Rows of the object tables, continued. -/
def objRows13 : List ObjRow := [
  ⟨0x6810, 0x6811, 7, 7, .u32, .ro, false, 0, 0, 4294967295, 4⟩,
  ⟨0x6810, 0x6811, 8, 8, .u32, .ro, false, 0, 0, 4294967295, 4⟩,
  ⟨0x6810, 0x6811, 9, 9, .u32, .ro, false, 0, 0, 4294967295, 4⟩,
  ⟨0x6810, 0x6811, 10, 10, .u32, .ro, false, 0, 0, 4294967295, 4⟩,
  ⟨0x6810, 0x6811, 11, 11, .u32, .ro, false, 0, 0, 4294967295, 4⟩,
  ⟨0x7000, 0x7000, 1, 1, .u8, .rwp, true, 0, 0, 255, 1⟩,
  ⟨0x7000, 0x7000, 2, 2, .u32, .rwp, true, 200, 10, 10000, 4⟩,
  ⟨0x7000, 0x7000, 3, 3, .u32, .rwp, true, 1000, 1, 60000, 4⟩,
  ⟨0x7000, 0x7000, 4, 4, .u8, .ro, false, 0, 0, 255, 1⟩,
  ⟨0x7000, 0x7000, 5, 5, .u32, .ro, false, 0, 0, 4294967295, 4⟩,
  ⟨0x7000, 0x7000, 6, 6, .u32, .ro, false, 0, 0, 4294967295, 4⟩,
  ⟨0x7000, 0x7000, 7, 7, .u8, .ro, false, 0, 0, 255, 1⟩,
  ⟨0x7001, 0x7001, 1, 1, .bool, .rwp, true, 0, 0, 1, 1⟩,
  ⟨0x7001, 0x7001, 2, 2, .octets, .rwp, true, 0, 0, 0, 97⟩,
  ⟨0x7100, 0x711f, 1, 1, .u8, .ro, false, 0, 0, 255, 1⟩,
  ⟨0x7100, 0x711f, 2, 2, .vstring, .ro, false, 0, 0, 0, 64⟩,
  ⟨0x7100, 0x711f, 3, 3, .u32, .ro, false, 0, 0, 4294967295, 4⟩,
  ⟨0x7100, 0x711f, 4, 4, .u16, .ro, false, 0, 0, 65535, 2⟩,
  ⟨0x7100, 0x711f, 5, 5, .u32, .ro, false, 0, 0, 4294967295, 4⟩,
  ⟨0x7100, 0x711f, 6, 6, .u32, .ro, false, 0, 0, 4294967295, 4⟩,
  ⟨0x7100, 0x711f, 7, 7, .u32, .ro, false, 0, 0, 4294967295, 4⟩,
  ⟨0x7100, 0x711f, 8, 8, .u64, .ro, false, 0, 0, 18446744073709551615, 8⟩,
  ⟨0x7100, 0x711f, 10, 10, .u8, .rwt, false, 0, 1, 4, 1⟩,
  ⟨0x7100, 0x711f, 11, 11, .octets, .rwt, false, 0, 0, 0, 1024⟩ ]

/-- Rows of the object tables, continued. -/
def objRows14 : List ObjRow := [
  ⟨0x8000, 0x8000, 1, 1, .u8, .ro, false, 0, 0, 255, 1⟩,
  ⟨0x8000, 0x8000, 2, 2, .u8, .ro, false, 0, 0, 255, 1⟩,
  ⟨0x8000, 0x8000, 3, 3, .u8, .ro, false, 0, 0, 255, 1⟩,
  ⟨0x8000, 0x8000, 4, 4, .u8, .ro, false, 255, 0, 255, 1⟩,
  ⟨0x8000, 0x8000, 5, 5, .u8, .ro, false, 0, 0, 255, 1⟩,
  ⟨0x8000, 0x8000, 6, 6, .u8, .ro, false, 0, 0, 255, 1⟩,
  ⟨0x8000, 0x8000, 7, 7, .u8, .ro, false, 0, 0, 255, 1⟩,
  ⟨0x8000, 0x8000, 8, 8, .u32, .ro, false, 0, 0, 4294967295, 4⟩,
  ⟨0x8000, 0x8000, 9, 9, .u64, .ro, false, 0, 0, 18446744073709551615, 8⟩,
  ⟨0x8000, 0x8000, 10, 10, .u16, .ro, false, 50, 0, 65535, 2⟩,
  ⟨0x8001, 0x8001, 1, 1, .u8, .rwt, true, 0, 0, 3, 1⟩,
  ⟨0x8010, 0x8011, 1, 1, .u8, .ro, false, 0, 0, 255, 1⟩,
  ⟨0x8010, 0x8011, 2, 2, .u8, .ro, false, 0, 0, 255, 1⟩,
  ⟨0x8010, 0x8011, 3, 3, .u8, .ro, false, 255, 0, 255, 1⟩,
  ⟨0x8010, 0x8011, 4, 4, .u32, .ro, false, 0, 0, 4294967295, 4⟩,
  ⟨0x8010, 0x8011, 5, 5, .u32, .ro, false, 0, 0, 4294967295, 4⟩,
  ⟨0x8010, 0x8011, 6, 6, .u64, .ro, false, 0, 0, 18446744073709551615, 8⟩,
  ⟨0x8010, 0x8011, 7, 7, .u8, .wo, false, 0, 1, 1, 1⟩,
  ⟨0x8020, 0x8020, 1, 1, .u64, .ro, false, 0, 0, 18446744073709551615, 8⟩,
  ⟨0x8020, 0x8020, 2, 2, .u64, .ro, false, 0, 0, 18446744073709551615, 8⟩,
  ⟨0x9000, 0x9000, 1, 1, .u8, .wo, false, 0, 1, 2, 1⟩,
  ⟨0x9000, 0x9000, 2, 2, .u64, .ro, false, 0, 0, 18446744073709551615, 8⟩,
  ⟨0x9000, 0x9000, 3, 3, .u64, .ro, false, 0, 0, 18446744073709551615, 8⟩,
  ⟨0x9000, 0x9000, 4, 4, .u16, .ro, false, 512, 0, 65535, 2⟩ ]

/-- Rows of the object tables, continued. -/
def objRows15 : List ObjRow := [
  ⟨0x9100, 0x9100, 1, 64, .u16, .rwp, true, 0, 0, 511, 2⟩,
  ⟨0x9200, 0x9200, 1, 64, .u64, .rw, false, 0, 0, 281474976710655, 8⟩,
  ⟨0x9300, 0x9300, 1, 64, .u64, .ro, false, 0, 0, 18446744073709551615, 8⟩,
  ⟨0xa000, 0xa000, 1, 1, .u64, .ro, false, 0, 0, 18446744073709551615, 8⟩,
  ⟨0xa000, 0xa000, 2, 2, .u64, .ro, false, 0, 0, 18446744073709551615, 8⟩,
  ⟨0xa000, 0xa000, 3, 3, .u32, .ro, false, 0, 0, 4294967295, 4⟩,
  ⟨0xa000, 0xa000, 4, 4, .u32, .ro, false, 0, 0, 4294967295, 4⟩,
  ⟨0xa000, 0xa000, 5, 5, .u32, .ro, false, 0, 0, 4294967295, 4⟩,
  ⟨0xa000, 0xa000, 6, 6, .u32, .ro, false, 0, 0, 4294967295, 4⟩,
  ⟨0xa000, 0xa000, 7, 7, .u32, .ro, false, 0, 0, 4294967295, 4⟩,
  ⟨0xa000, 0xa000, 8, 8, .u32, .ro, false, 0, 0, 4294967295, 4⟩,
  ⟨0xa010, 0xa010, 1, 1, .u32, .rwp, true, 10, 1, 3600, 4⟩,
  ⟨0xa010, 0xa010, 2, 2, .u16, .rwp, true, 16, 2, 4096, 2⟩,
  ⟨0xa011, 0xa011, 1, 21, .u32, .ro, false, 0, 0, 4294967295, 4⟩,
  ⟨0xa020, 0xa020, 1, 21, .u8, .ro, false, 0, 0, 255, 1⟩,
  ⟨0xa021, 0xa021, 1, 1, .u32, .ro, true, 0, 0, 4294967295, 4⟩,
  ⟨0xa021, 0xa021, 2, 2, .u16, .ro, false, 0, 0, 65535, 2⟩,
  ⟨0xa030, 0xa030, 1, 1, .u8, .rw, false, 0, 0, 2, 1⟩,
  ⟨0xa030, 0xa030, 2, 2, .u64, .rw, false, 0, 0, 18446744073709551615, 8⟩,
  ⟨0xa030, 0xa030, 3, 3, .u64, .rw, false, 0, 0, 18446744073709551615, 8⟩,
  ⟨0xa030, 0xa030, 4, 4, .u8, .rw, false, 2, 0, 2, 1⟩,
  ⟨0xa030, 0xa030, 5, 5, .u16, .rw, false, 1000, 10, 4000, 2⟩,
  ⟨0xa030, 0xa030, 6, 6, .u8, .wo, false, 0, 1, 2, 1⟩,
  ⟨0xa031, 0xa031, 1, 1, .octets, .ro, false, 0, 0, 0, 64⟩ ]

/-- Rows of the object tables, continued. -/
def objRows16 : List ObjRow := [
  ⟨0xa032, 0xa032, 1, 1, .u16, .rwp, true, 1, 0, 65535, 2⟩,
  ⟨0xa032, 0xa032, 2, 2, .u16, .rwp, true, 24, 0, 65535, 2⟩,
  ⟨0xa032, 0xa032, 3, 3, .u16, .rwp, true, 168, 0, 65535, 2⟩,
  ⟨0xa032, 0xa032, 4, 4, .u8, .rwp, true, 48, 1, 120, 1⟩,
  ⟨0xa040, 0xa040, 1, 1, .u16, .ro, false, 1024, 0, 65535, 2⟩,
  ⟨0xa040, 0xa040, 2, 2, .u16, .ro, false, 0, 0, 65535, 2⟩,
  ⟨0xa040, 0xa040, 3, 3, .u32, .ro, false, 0, 0, 4294967295, 4⟩,
  ⟨0xa040, 0xa040, 4, 4, .u32, .rw, false, 0, 0, 4294967295, 4⟩,
  ⟨0xa040, 0xa040, 5, 5, .octets, .ro, false, 0, 0, 0, 64⟩,
  ⟨0xa050, 0xa050, 1, 1, .u16, .ro, false, 1024, 0, 65535, 2⟩,
  ⟨0xa050, 0xa050, 2, 2, .u16, .ro, false, 0, 0, 65535, 2⟩,
  ⟨0xa050, 0xa050, 3, 3, .u32, .ro, false, 0, 0, 4294967295, 4⟩,
  ⟨0xa050, 0xa050, 4, 4, .u32, .rw, false, 0, 0, 4294967295, 4⟩,
  ⟨0xa050, 0xa050, 5, 5, .octets, .ro, false, 0, 0, 0, 64⟩,
  ⟨0xf000, 0xf000, 1, 1, .u8, .ro, false, 0, 0, 255, 1⟩,
  ⟨0xf000, 0xf000, 2, 2, .u32, .ro, false, 0, 0, 4294967295, 4⟩,
  ⟨0xf000, 0xf000, 3, 3, .u64, .ro, false, 0, 0, 18446744073709551615, 8⟩,
  ⟨0xf000, 0xf000, 4, 4, .u8, .ro, false, 0, 0, 255, 1⟩,
  ⟨0xf000, 0xf000, 5, 5, .u32, .ro, false, 0, 0, 4294967295, 4⟩ ]

/-- Every row of the dictionary (R486). -/
def objTable : List ObjRow := objRows0 ++ objRows1 ++ objRows2 ++ objRows3 ++ objRows4 ++ objRows5 ++ objRows6 ++ objRows7 ++ objRows8 ++ objRows9 ++ objRows10 ++ objRows11 ++ objRows12 ++ objRows13 ++ objRows14 ++ objRows15 ++ objRows16

end Sys2Proof.Machine
end

