-- ==== Sys2Proof/Machine/Ops.lean ====
section
/-! DEFINITION. Machine/Ops.lean: the named operations that every unit uses: free values, dictionary numbers, Gauge, the logs and their
notices, completion posting, and the bytes of memory. -/
namespace Sys2Proof.Machine

/-- The outcome of a command: the part changed, the queue as it stands. -/
def run (f : Dev → Dev) (s : State) : Host.Outcome State Fault Refusal := .next { s with dev := f s.dev }

/-! ## Free values and outputs -/

/-- Draw a free number below `bound` (log entry 1). -/
def drawBelow (bound : Nat) (d : Dev) : Nat × Dev :=
  (Config.freeNat d.freeCount % bound, { d with freeCount := d.freeCount + 1 })

/-- Draw a free bit (log entry 1). -/
def drawBit (d : Dev) : Bool × Dev :=
  (Config.freeBool d.freeCount, { d with freeCount := d.freeCount + 1 })

/-- `n` free bytes: bytes that the spec leaves undefined, or that Springhead draws (R192, R240; log entry 1). -/
def drawBytes (n : Nat) (d : Dev) : Bytes × Dev :=
  ((List.range n).map fun i => BitVec.ofNat 8 (Config.freeNat (d.freeCount + i)), { d with freeCount := d.freeCount + n })

/-- Send something outside. -/
def emit (o : Output) (d : Dev) : Dev := { d with out := o :: d.out }

/-- Tidemark moved on to `now`, never backwards (R73). -/
def advanceTo (now : Nat) (d : Dev) : Dev := { d with tm := max d.tm now }

/-! ## Dictionary numbers -/

/-- Key of a subindex: index * 256 + subindex. -/
def objKey (index sub : Nat) : Nat := index * 256 + sub

/-- The row of a subindex. -/
def rowOf (index sub : Nat) : Option ObjRow :=
  objTable.find? fun r => decide (r.ilo ≤ index ∧ index ≤ r.ihi ∧ r.slo ≤ sub ∧ sub ≤ r.shi)

/-- A choice by variant. -/
def byVariant {α : Type} (v : Variant) (s m e : α) : α :=
  match v with
  | .vl7s => s
  | .vl7m => m
  | .vl7e => e

/-- The factory law: object keys and values of the coefficients, integrator limits and steps that are not 0 (R550). -/
def factoryLaw : AMap Nat :=
  [(0x312001, 0x8000), (0x312002, 0x51F), (0x312003, 0x10000), (0x312004, 0x8000), (0x312005, 0x51F), (0x312006, 0x200000),
   (0x312007, 0x2000000), (0x312201, 0xFFF10000), (0x312202, 0xFFF10000),
   (0x313001, 0x3C396C00), (0x313002, 0x4C60C000), (0x313003, 0x7F21C000), (0x313004, 0x2CB1F000), (0x313005, 0x3CE2C800),
   (0x313006, 0x3D386800), (0x313007, 0x4D63D000), (0x313008, 0x7F64D000), (0x313009, 0x2DB5F400), (0x31300A, 0x3DE2D800),
   (0x31300B, 0x5CF3DC00), (0x31300C, 0x80734000), (0x31300D, 0x6CB2D800), (0x31300E, 0x4D25C800), (0x31300F, 0x2D26D000),
   (0x313010, 0x80340000)]

/-- Default of a number (R486 and the rules it names). -/
def objDefault (v : Variant) (k : Nat) : Nat :=
  if k = 0x100801 then byVariant v 0 1 2
  else if k = 0x100802 then byVariant v 0xFF7F 0x0F3D 0x0F00
  else if k = 0x100803 then byVariant v 65536 32768 16384
  else if k = 0x100804 then byVariant v 255 127 15
  else if k = 0x100805 then byVariant v 8 4 1
  else if k = 0x100806 then byVariant v 96 48 48
  else if k = 0x401001 then byVariant v 128 64 8
  else if k = 0x700001 then byVariant v 8 4 4
  else if k = 0x311001 then 15 * 65536
  else if k = 0x311101 then 100 * 65536
  else if k = 0x311002 then 65536
  else if k = 0x311102 then 2 * 65536
  else if k = 0x311003 then 0x1A
  else if k = 0x311103 then 0x1B
  else if k = 0x311203 then 0x18
  else if k = 0x311303 then 0x19
  else if 0x312001 ≤ k ∧ k ≤ 0x313040 then mapGetD factoryLaw k 0
  else match rowOf (k / 256) (k % 256) with
    | some r => r.dflt
    | none => 0

/-- The number an object holds. -/
def objNum (d : Dev) (k : Nat) : Nat := mapGetD d.num k (objDefault d.variant k)

/-- The octets an object holds. -/
def objOct (d : Dev) (k : Nat) : Bytes := mapGetD d.oct k []

/-- An object given a number. -/
def setNum (k v : Nat) (d : Dev) : Dev := { d with num := mapSet d.num k v }

/-- An object given octets. -/
def setOct (k : Nat) (v : Bytes) (d : Dev) : Dev := { d with oct := mapSet d.oct k v }

/-- A counter object raised by `n`. -/
def addNum (k n : Nat) (d : Dev) : Dev := setNum k (objNum d k + n) d

/-- A counter object raised by 1. -/
def bump (k : Nat) (d : Dev) : Dev := addNum k 1 d

/-! ## Cores' interrupt sources -/

/-- A core changed. -/
def modifyCore (n : CoreId) (f : FxCore → FxCore) (d : Dev) : Dev :=
  { d with cores := d.cores.set n (f d.cores[n]) }

/-- Raise a latched source of a core (R278). -/
def latchSource (n : CoreId) (src : Nat) (d : Dev) : Dev :=
  modifyCore n (fun c => { c with latched := c.latched ||| (1#8 <<< src) }) d

/-- The condition of a level source of a core holds (R278). -/
def raiseLevel (n : CoreId) (src : Nat) (d : Dev) : Dev :=
  modifyCore n (fun c => { c with level := c.level ||| (1#8 <<< src) }) d

/-- An event is queued for supervisor core 0 (R278 source 7). -/
def raiseEvent (d : Dev) : Dev := raiseLevel 32 7 d

/-! ## Gauge (R521, R522) -/

/-- One counter after an event of weight `w` (R521, R522). -/
def gaugeBump (src : BitVec 9) (w : Nat) (c : GaugeCounter) : GaugeCounter :=
  if c.source = src then
    { c with count := c.count + BitVec.ofNat 48 w, overflow := c.overflow || decide (2 ^ 48 ≤ c.count.toNat + w) }
  else c

/-- True when an event of weight `w` wraps a counter. -/
def gaugeWraps (src : BitVec 9) (w : Nat) (c : GaugeCounter) : Bool :=
  c.source = src && decide (2 ^ 48 ≤ c.count.toNat + w)

/-- Count an event of a source with a weight (R521). -/
def gaugeAdd (src w : Nat) (d : Dev) : Dev :=
  let b := BitVec.ofNat 9 src
  let d' := { d with gauge := { d.gauge with counters := d.gauge.counters.map (gaugeBump b w) } }
  if d.gauge.counters.any (gaugeWraps b w) then raiseEvent d' else d'

/-- Count an event of a source (R521). -/
def gaugeCount (src : Nat) (d : Dev) : Dev := gaugeAdd src 1 d

/-! ## Completion posting and notices -/

/-- A controller changed. -/
def modifyCtrl (id : Nat) (f : Ctrl → Ctrl) (d : Dev) : Dev :=
  { d with host := { d.host with ctrls := mapUpdate d.host.ctrls id f } }

/-- The controller of an identifier. -/
def getCtrl (d : Dev) (id : Nat) : Option Ctrl := mapGet d.host.ctrls id

/-- True when no entry of a completion queue is free. -/
def cqFull (q : CompQueue) : Bool := decide ((q.tail + 1) % q.size = q.head)

/-- A submission queue after a command's completion: it leaves flight and counts in its span (R120, R149). -/
def leaveFlight (e : Cqe) (q : SubQueue) : SubQueue :=
  let bad := decide (e.sct ≠ 0 ∨ e.sc ≠ 0) && !q.earlier.contains e.cid
  { q with
    inflight := q.inflight.filter (· ≠ e.cid)
    earlier := q.earlier.filter (· ≠ e.cid)
    spanFails := if bad then sat 65535 (q.spanFails + 1) else q.spanFails
    spanFirst := if bad && q.spanFails = 0 then e.cid else q.spanFirst }

/-- Gauge sources that a status counts in by itself (R520: vendor statuses, Fence Aborted cancellations). -/
def countStatus (sct sc : Nat) (d : Dev) : Dev :=
  if sct = 7 ∧ 0x80 ≤ sc ∧ sc ≤ 0x8C then
    let d1 := gaugeCount (sc - 0x70) d
    if sc = 0x89 then gaugeCount 0x066 d1 else d1
  else d

/-- True while a vector of a controller is masked (R91). -/
def vectorMasked (d : Dev) (id vector : Nat) : Bool :=
  match getCtrl d id with
  | some c => bit (mapGetD c.msix (4 * vector + 3) 1) 0
  | none => true

/-- The interrupt of a queue: a message, or a pending bit while its vector is masked (R91). -/
def raiseInterrupt (id : Nat) (q : CompQueue) (d : Dev) : Dev :=
  if !q.ien then d
  else if vectorMasked d id q.vector then
    modifyCtrl id (fun c => { c with msixPending := c.msixPending.filter (· ≠ q.vector) ++ [q.vector] }) d
  else emit (.msix id q.vector) d

/-- An entry put into a completion queue that has room, and its interrupt (R82, R108). -/
def placeCqe (e : Cqe) (cqid : Nat) (q : CompQueue) (d : Dev) : Dev :=
  raiseInterrupt e.ctrl q (emit (.cqe e)
    (modifyCtrl e.ctrl (fun c => { c with cqs := mapSet c.cqs cqid { q with tail := (q.tail + 1) % q.size } }) d))

/-- An entry written to a completion queue, or held while the queue is full (R108, R120). -/
def writeCqe (e : Cqe) (cqid : Nat) (d : Dev) : Dev :=
  match (getCtrl d e.ctrl).bind fun c => mapGet c.cqs cqid with
  | none => d
  | some q =>
    if cqFull q || !q.waiting.isEmpty then
      modifyCtrl e.ctrl (fun c => { c with cqs := mapSet c.cqs cqid { q with waiting := q.waiting ++ [e] } }) d
    else placeCqe e cqid q d

/-- Held entries written while the queue has room; the number bounds the run (R120). -/
def flushCq (id cqid : Nat) : Nat → Dev → Dev
  | 0, d => d
  | n + 1, d =>
    match (getCtrl d id).bind fun c => mapGet c.cqs cqid with
    | none => d
    | some q =>
      match q.waiting with
      | [] => d
      | e :: es => if cqFull q then d else flushCq id cqid n (placeCqe e cqid { q with waiting := es } d)

/-- A completion posted for a command; it leaves flight (R108, R120). -/
def postOne (e : Cqe) (d : Dev) : Dev :=
  match (getCtrl d e.ctrl).bind fun c => mapGet c.sqs e.sq with
  | none => d
  | some q =>
    writeCqe e q.cq (countStatus e.sct e.sc
      (modifyCtrl e.ctrl (fun c => { c with sqs := mapSet c.sqs e.sq (leaveFlight e q) }) d))

/-- A Fence whose span has all posted completes, and with FAIL_CHAIN and a failure it cancels what follows (R149, R150). -/
def completeFence (ctrl sqid : Nat) (d : Dev) : Dev :=
  match (getCtrl d ctrl).bind fun c => mapGet c.sqs sqid with
  | none => d
  | some q =>
    match q.fence with
    | none => d
    | some (cid, chain) =>
      if q.inflight.all (fun i => i = cid || q.earlier.contains i) then
        let bad := chain && decide (q.spanFails ≠ 0)
        let e : Cqe :=
          { ctrl := ctrl, sq := sqid, cid := cid, sct := if bad then 7 else 0, sc := if bad then 0x89 else 0
            dw0 := q.spanFirst + 65536 * q.spanFails }
        modifyCtrl ctrl
          (fun c => { c with sqs := mapUpdate c.sqs sqid fun q => { q with fence := none, spanFails := 0, spanFirst := 0, cancelling := bad } })
          (postOne e d)
      else d

/-- A completion posted, and the Fence that waited for it (R120, R149). -/
def postCqe (e : Cqe) (d : Dev) : Dev := completeFence e.ctrl e.sq (postOne e d)

/-- Dword 0 of an Asynchronous Event Request completion. -/
def noticeDword (n : Notice) : Nat := n.type + n.info * 256 + n.lid * 65536

/-- Deliver a notice to a controller: complete its oldest request, or hold the notice (R120, R534). -/
def deliverNotice (id : Nat) (n : Notice) (d : Dev) : Dev :=
  match getCtrl d id with
  | none => d
  | some c =>
    match c.aers with
    | [] => modifyCtrl id (fun c => { c with held := c.held ++ [n] }) d
    | cid :: rest =>
      postCqe { ctrl := id, sq := 0, cid := cid, sct := 0, sc := 0, dw0 := noticeDword n }
        (modifyCtrl id (fun c => { c with aers := rest }) d)

/-- A vendor notice for a controller that has enabled its code and not masked it (R533, R534). -/
def vendorNotice (code lid id : Nat) (d : Dev) : Dev :=
  match getCtrl d id with
  | none => d
  | some c =>
    if c.enabled && bit (mapGetD c.features 0x0B 0) (20 + code) && !c.masked.contains code then
      deliverNotice id { type := 7, info := code, lid := lid }
        (modifyCtrl id (fun c => { c with masked := code :: c.masked }) d)
    else d

/-- A vendor notice for every PF (R533). -/
def noticePfs (code lid : Nat) (d : Dev) : Dev :=
  ((d.host.ctrls.filter fun kc => kc.2.vf = 0).map Prod.fst).foldl (fun d id => vendorNotice code lid id d) d

/-! ## Logs (R524 to R528) -/

/-- The sequence number after one; 32 bits, wrapping to 1 and skipping 0 (R498, R548). -/
def nextSeq (n : Nat) : Nat := if n + 1 < 2 ^ 32 then n + 1 else 1

/-- A log with a record put in front, at most 1,024 kept (R499). -/
def pushRec (r : LogRec) (l : EventLog) : EventLog :=
  { l with recs := (r :: l.recs).take 1024, newest := r.seq }

/-- A parent record followed by its continuations (R527). -/
def pushWithConts (r : LogRec) (conts : List Bytes) (l : EventLog) : EventLog :=
  conts.foldl (fun l c => pushRec { r with seq := nextSeq l.newest, cls := 0xFF, conts := 0, detail := padTo 32 c } l)
    (pushRec { r with seq := nextSeq l.newest, conts := conts.length } l)

/-- The notice that a device error record raises besides code 0x01, if any (R533). -/
def classNotice (cls code : Nat) : Option Nat :=
  if cls = 0x05 ∧ code = 6 then some 3
  else if cls = 0x08 then some 4
  else if cls = 0x02 ∧ code = 3 then some 5
  else if cls = 0x07 then some 6
  else if cls = 0x0A ∧ (code = 1 ∨ code = 2) then some 7
  else if cls = 0x0B then some 7
  else none

/-- Write a record to the device error log and raise its notices (R524, R533). -/
def logError (cls sev code gauge : Nat) (detail : Bytes) (d : Dev) (origin : Nat := 65535) (iface : Nat := 0)
    (conts : List Bytes := []) : Dev :=
  let r : LogRec :=
    { seq := 0, cls := cls, sev := sev, code := code, first := d.tm, last := d.tm, origin := origin,
      iface := iface, gauge := gauge, detail := padTo 32 detail }
  let d1 := { d with errLog := pushWithConts r conts d.errLog }
  let d2 := if 2 ≤ sev then noticePfs 0x01 0xC2 d1 else d1
  match classNotice cls code with
  | some n => noticePfs n 0xC2 d2
  | none => d2

/-- True when a violation merges into a record (R528). -/
def mergesInto (r v : LogRec) : Bool :=
  r.cls = v.cls && r.code = v.code && r.origin = v.origin && r.iface = v.iface && r.gauge = v.gauge &&
    decide (v.first < r.last + 1000000) && r.conts = 0

/-- Count and record a partner violation, merged where R528 says (R524, R528, R530). -/
def logViolation (cls code gauge origin iface : Nat) (detail : Bytes) (d : Dev) : Dev :=
  let v : LogRec :=
    { seq := nextSeq d.vioLog.newest, cls := cls, sev := 1, code := code, first := d.tm, last := d.tm,
      origin := origin, iface := iface, gauge := gauge, detail := padTo 32 detail }
  let d1 := gaugeCount gauge d
  match d1.vioLog.recs with
  | r :: rest =>
    if mergesInto r v then
      { d1 with vioLog := { d1.vioLog with recs := { r with repeats := sat 65535 (r.repeats + 1), last := d.tm } :: rest } }
    else noticePfs 0x02 0xC1 { d1 with vioLog := pushRec v d1.vioLog }
  | [] => noticePfs 0x02 0xC1 { d1 with vioLog := pushRec v d1.vioLog }

/-- A violation on a PCIe port by a function (R526 classes 0x20 and 0x21). -/
def hostViolation (cls row gauge ctrl : Nat) (detail : Bytes) (d : Dev) : Dev :=
  let port := match getCtrl d ctrl with
    | some c => c.port
    | none => 0
  logViolation cls row gauge ctrl (1 + port) detail d

/-! ## Memory bytes -/

/-- First key of the local memory of core 0 (R279). -/
def localBase : Nat := 0x100000000
/-- First key of the Pool. -/
def poolBase : Nat := 0x200000000
/-- First key of the boot ROM. -/
def romBase : Nat := 0x300000000
/-- First key of DRAM. -/
def dramBase : Nat := 0x10000000000

/-- Key of a byte of a core's local memory. -/
def localKey (n : CoreId) (off : Nat) : Nat := localBase + n.val * 0x80000 + off
/-- Key of a Pool byte address. -/
def poolKey (a : Nat) : Nat := poolBase + a
/-- Key of a DRAM byte address. -/
def dramKey (a : Nat) : Nat := dramBase + a

/-- The byte at a key; unlisted bytes read 0 (log entry 2). -/
def cellGet : List Host.Cell → Nat → Byte
  | [], _ => 0
  | (k, v) :: m, a => if a = k then v else if a < k then 0 else cellGet m a

/-- Memory with one byte written, in its one form: keys rise and no listed byte is 0. -/
def cellPut : List Host.Cell → Nat → Byte → List Host.Cell
  | [], a, b => if b = 0 then [] else [(a, b)]
  | (k, v) :: m, a, b =>
    if a < k then (if b = 0 then (k, v) :: m else (a, b) :: (k, v) :: m)
    else if a = k then (if b = 0 then m else (a, b) :: m)
    else (k, v) :: cellPut m a b

/-- The one form of a memory list: keys rise strictly and no byte equals what an unlisted key reads as. -/
def Memory.wf : List Host.Cell → Bool
  | [] => true
  | [(_, v)] => v != 0
  | (k, v) :: (k', v') :: m => v != 0 && decide (k < k') && Memory.wf ((k', v') :: m)

/-- Bytes from a key on. -/
def memGet (d : Dev) (key : Nat) : Nat → Bytes
  | 0 => []
  | n + 1 => cellGet d.mem key :: memGet d (key + 1) n

/-- Memory with bytes written from a key on. -/
def cellsPut (m : List Host.Cell) (key : Nat) : Bytes → List Host.Cell
  | [] => m
  | b :: bs => cellsPut (cellPut m key b) (key + 1) bs

/-- Bytes written from a key on, without any regard to check bits. -/
def memPut (key : Nat) (bs : Bytes) (d : Dev) : Dev := { d with mem := cellsPut d.mem key bs }

/-- A number put into a rising list. -/
def insNat (x : Nat) : List Nat → List Nat
  | [] => [x]
  | y :: l => if x < y then x :: y :: l else if x = y then y :: l else y :: insNat x l

/-- True when a word (key / 4) is stored poisoned. -/
def isPoisoned (d : Dev) (w : Nat) : Bool := d.poisoned.contains w

/-- A word stored with the poison syndrome (R406). -/
def poisonWord (w : Nat) (d : Dev) : Dev := { d with poisoned := insNat w d.poisoned }

/-- A word stored with fresh check bits. -/
def cleanWord (w : Nat) (d : Dev) : Dev := { d with poisoned := d.poisoned.filter (· ≠ w) }

/-- The words (key / 4) that `n` bytes from a key touch. -/
def wordsOf (key n : Nat) : List Nat :=
  if n = 0 then [] else (List.range ((key + n - 1) / 4 - key / 4 + 1)).map (key / 4 + ·)

/-- True when any of these bytes lies in a poisoned word. -/
def anyPoison (d : Dev) (key n : Nat) : Bool := (wordsOf key n).any (isPoisoned d)

/-- DRAM capacity in bytes for a configuration in use: 0 where the combination is not one of R383. -/
def dramCapacity (cfg : Nat × Nat × Nat × Nat) : Nat :=
  let (w, g, r, _) := cfg
  if w = 8 ∧ g = 16 ∧ r = 1 then 32 * 2 ^ 30
  else if w = 8 ∧ g = 16 ∧ r = 2 then 64 * 2 ^ 30
  else if w = 8 ∧ g = 32 ∧ r = 1 then 64 * 2 ^ 30
  else if w = 4 ∧ g = 16 ∧ r = 1 then 64 * 2 ^ 30
  else 0

/-- Pool bytes of a variant (R8, R279). -/
def poolSize (v : Variant) : Nat := byVariant v (96 * 2 ^ 20) (48 * 2 ^ 20) (48 * 2 ^ 20)

/-- Integrity region of a byte key (R405): Pool banks 0 to 15, DRAM sub-channels 16 to 19. -/
def regionOf (key : Nat) : Nat :=
  if dramBase ≤ key then 16 + ((key - dramBase) / 64 % 2) + 2 * ((key - dramBase) / 128 % 2)
  else if poolBase ≤ key then (Config.poolBank (key - poolBase)).val
  else (Config.localBank ((key - localBase) / 0x80000) ((key - localBase) % 0x80000)).val

/-- The address a log record names for a key: the Pool byte or DRAM address (R526). -/
def reportAddr (key : Nat) : Nat :=
  if dramBase ≤ key then key - dramBase else if poolBase ≤ key then key - poolBase else key - localBase

end Sys2Proof.Machine
end

