-- ==== Sys2Proof/Machine/Integrity.lean ====
section
/-! DEFINITION. Machine/Integrity.lean: what a read or a write of a protected word does (R405 to R418): classes, counters, buckets,
tracking tables, write-backs, hard faults and spare rows. -/
namespace Sys2Proof.Machine

/-- Spare rows a region starts with (R412). -/
def spareTotal (r : Nat) : Nat := if r < 16 then 32 else if r < 20 then 64 else 16

/-- A persisted write of an object counted, with the wear warning and the WORN record where they fall due (R477). -/
def countPersist (k : Nat) (d : Dev) : Dev :=
  let n := mapGetD d.wear k 0 + 1
  let d1 := { d with wear := mapSet d.wear k n }
  let det := leBytes 4 k ++ leBytes 4 n
  if n = 3600000 then logError 0x0A 1 1 0xFF det (gaugeCount 0xFF d1)
  else if n = 4000000 then logError 0x0A 1 2 0 det d1
  else d1

/-- A device-written persistent object given a value, counted and bounded by R477. -/
def devPersist (k v : Nat) (d : Dev) : Dev :=
  if 4000000 ≤ mapGetD d.wear k 0 then d else countPersist k (setNum k v d)

/-- A region changed. -/
def modifyRegion (r : Nat) (f : IntRegion → IntRegion) (d : Dev) : Dev :=
  if h : r < 21 then
    { d with integ := { d.integ with regions := d.integ.regions.set r (f d.integ.regions[r]) } }
  else d

/-- A region's state. -/
def getRegion (d : Dev) (r : Nat) : IntRegion := (d.integ.regions.toList).getD r {}

/-- Detail bytes of an integrity record (R526 class 0x05). -/
def integDetail (key region syndrome : Nat) : Bytes :=
  leBytes 8 (reportAddr key) ++ leBytes 1 region ++ leBytes 1 syndrome

/-- The bucket of a region overflows: one event, one record, one overflow (R417). -/
def bucketOverflow (r : Nat) (d : Dev) : Dev :=
  let d1 := modifyRegion r (fun g => { g with armed := false, overflows := sat 65535 (g.overflows + 1) }) d
  raiseEvent (logError 0x05 1 6 0x0BF (integDetail 0 r 0) (gaugeCount 0x0BF d1) (origin := r))

/-- A correction added to a region's bucket (R417). -/
def bucketFill (r : Nat) (d : Dev) : Dev :=
  let cap := objNum d 0xA01002
  let d1 := modifyRegion r (fun g => { g with level := sat cap (g.level + 1) }) d
  let g := getRegion d1 r
  if cap ≤ g.level ∧ g.armed then bucketOverflow r d1 else d1

/-- The tracking entry of a word after a correction (R411). -/
def trackEntry (now leak : Nat) (e : TrackEntry) : TrackEntry :=
  let e1 := if e.wbDone then { e with count := e.count + 1 } else e
  let late := match e.firstWb with
    | some t => decide (t + leak < now)
    | none => false
  if e.wbDone && late then { e with count := 0, firstWb := none, wbDone := false, lastCorr := now }
  else { e1 with wbDone := false, lastCorr := now }

/-- A full table without the entry whose last correction is the oldest (R411). -/
def dropOldest (t : List TrackEntry) : List TrackEntry :=
  if t.length < 16 then t
  else match t.map (·.lastCorr) |>.min? with
    | some m => match t.findIdx? (fun e => e.lastCorr = m) with
      | some i => t.eraseIdx i
      | none => t
    | none => t

/-- The tracking table of a region after a correction of a word (R411). -/
def trackTable (now leak w : Nat) (t : List TrackEntry) : List TrackEntry :=
  if t.any (·.word = w) then t.map fun e => if e.word = w then trackEntry now leak e else e
  else dropOldest t ++ [{ word := w, lastCorr := now }]

/-- The row of a byte key within its region (R385, R412). -/
def rowInRegion (key : Nat) : Nat :=
  if dramBase ≤ key then
    let a := key - dramBase
    -- the fields above the column and the byte: bank group, bank index, row and rank
    (a / 2 ^ 16) * 4 + bits a 9 8
  else key / 256

/-- Declare a word a hard fault and remap its row, or mark it stuck where no spare is left (R411, R412, R414). -/
def hardFault (r w : Nat) (d : Dev) : Dev :=
  let key := 4 * w
  let d1 := devPersist 0xA02101 (objNum d 0xA02101 + 1) (bump 0xA00006 (gaugeCount 0x0BA d))
  let d2 := raiseEvent (logError 0x05 2 4 0x0BA (integDetail key r 0) d1 (origin := r))
  let g := getRegion d2 r
  if g.sparesUsed < spareTotal r then
    let d3 := modifyRegion r (fun g =>
      { g with
        sparesUsed := g.sparesUsed + 1
        table := g.table.filter (·.word ≠ w) }) d2
    { d3 with
      integ := { d3.integ with
        remaps := d3.integ.remaps ++ [{ region := r, row := rowInRegion key, spare := spareTotal r - 1 - g.sparesUsed }] } }
  else
    raiseEvent (logError 0x05 2 5 0 (integDetail key r 0)
      (modifyRegion r (fun g => { g with table := g.table.map fun e => if e.word = w then { e with stuck := true } else e }) d2)
      (origin := r))

/-- A write-back of a word queued, unless one of the same word is already queued (R408, R414). -/
def queueWriteBack (r w : Nat) (poison : Bool) (d : Dev) : Dev :=
  let stuck := (getRegion d r).table.any fun e => e.word = w && e.stuck
  if stuck && !poison then d
  else if d.integ.writeBacks.any (fun b => b.word = w && b.poison = poison) then d
  else { d with integ := { d.integ with writeBacks := d.integ.writeBacks ++ [{ region := r, word := w, poison := poison, since := d.tm }] } }

/-- A corrected word: counted, bucket filled, tracked; a count of 3 is a hard fault (R408, R411). -/
def countCorrection (r w : Nat) (d : Dev) : Dev :=
  let d1 := gaugeCount (0x090 + r) (bump (if 16 ≤ r ∧ r < 20 then 0xA00002 else 0xA00001) d)
  let d2 := bucketFill r d1
  let leak := objNum d2 0xA01001 * 1000000000
  let d3 := modifyRegion r (fun g => { g with table := trackTable d2.tm leak w g.table }) d2
  if (getRegion d3 r).table.any (fun e => e.word = w && decide (3 ≤ e.count) && !e.stuck) then hardFault r w d3 else d3

/-- A read that corrects a word (R408). -/
def correctedRead (key : Nat) (d : Dev) : Dev :=
  let r := regionOf key
  queueWriteBack r (key / 4) false (countCorrection r (key / 4) d)

/-- A read that finds a word poisoned or uncorrectable: counted, logged, and the uncorrectable word is queued to be poisoned (R407, R416). -/
def badRead (key : Nat) (poisoned : Bool) (d : Dev) : Dev :=
  let r := regionOf key
  let (syn, d0) := if poisoned then (0x7F, d) else drawBelow 127 d
  let d1 := gaugeCount (0x0A5 + r) (bump (if 16 ≤ r ∧ r < 20 then 0xA00004 else 0xA00003) d0)
  let d2 := raiseEvent (logError 0x05 2 (if poisoned then 2 else 1) (0x0A5 + r) (integDetail key r syn) d1 (origin := r))
  if poisoned then d2 else queueWriteBack r (key / 4) true d2

/-- What a reader of a word sees: true when the word is answered as poison (R406, R407), with what the read sets off. -/
def readWord (key : Nat) (ecc : Ecc) (d : Dev) : Bool × Dev :=
  if isPoisoned d (key / 4) then (true, badRead key true d)
  else match ecc with
    | .clean => (false, d)
    | .corrected => (false, correctedRead key d)
    | .uncorrectable => (true, badRead key false d)

/-- Words read one after the other with the classes the read finds, by word index (R406). -/
def readWords (ecc : List (Nat × Ecc)) : List Nat → Nat → Dev → Bool × Dev
  | [], _, d => (false, d)
  | w :: ws, i, d =>
    let (p, d1) := readWord (4 * w) ((ecc.lookup i).getD .clean) d
    let (q, d2) := readWords ecc ws (i + 1) d1
    (p || q, d2)

/-- A write that reaches a word, or a word's DRAM line, drops the write-backs queued for it (R410). -/
def dropWriteBacks (w : Nat) (d : Dev) : Dev :=
  let hit : WriteBack → Bool := fun b =>
    if dramBase ≤ 4 * w then decide (b.word / 16 = w / 16) else decide (b.word = w)
  let n := (d.integ.writeBacks.filter hit).length
  let d1 := { d with integ := { d.integ with writeBacks := d.integ.writeBacks.filter (fun b => !hit b) } }
  if n = 0 then d1 else gaugeAdd 0x0BB n (addNum 0xA00008 n d1)

/-- The effect of a write on the class of one word it touches (R415). -/
def writeWordClass (w : Nat) (full : Bool) (ecc : Ecc) (d : Dev) : Dev :=
  let d1 := dropWriteBacks w d
  if full then cleanWord w d1
  else if isPoisoned d1 w then gaugeCount 0x0BE (bump 0xA00005 d1)
  else match ecc with
    | .clean => d1
    | .corrected =>
      let r := regionOf (4 * w)
      modifyRegion r (fun g =>
        { g with
          table := g.table.map fun e =>
            if e.word = w then { e with wbDone := true, firstWb := e.firstWb.or (some d1.tm) } else e })
        (countCorrection r w d1)
    | .uncorrectable => poisonWord w (gaugeCount 0x0BE (bump 0xA00005 d1))

/-- Classes of every word that `n` bytes from a key touch, after a write of them (R415). -/
def writeClasses (key n : Nat) (ecc : Ecc) (d : Dev) : Dev :=
  (wordsOf key n).foldl (fun d w => writeWordClass w (decide (key ≤ 4 * w ∧ 4 * w + 4 ≤ key + n)) ecc d) d

/-- Bytes written to a protected memory (R415). -/
def storeBytes (key : Nat) (bs : Bytes) (ecc : Ecc) (d : Dev) : Dev :=
  memPut key bs (writeClasses key bs.length ecc d)

/-- A queued write-back performed (R407, R411). -/
def performWriteBack (b : WriteBack) (d : Dev) : Dev :=
  if b.poison then poisonWord b.word d
  else modifyRegion b.region (fun g =>
    { g with
      table := g.table.map fun e =>
        if e.word = b.word then { e with wbDone := true, firstWb := e.firstWb.or (some d.tm) } else e }) d

/-- Leak intervals passed for every bucket (R417). -/
def leakRegions (k cap : Nat) (d : Dev) : Dev :=
  { d with
    integ := { d.integ with
      regions := d.integ.regions.map fun g =>
        let l := g.level - k
        { g with level := l, armed := g.armed || decide (2 * l ≤ cap) } } }

/-- A capacity change: levels clip, and an armed bucket that reaches the capacity overflows at once (R418). -/
def applyCapacity (cap : Nat) (d : Dev) : Dev :=
  (List.range 21).foldl (fun d r =>
    let g := getRegion d r
    if cap ≤ g.level then
      let d1 := modifyRegion r (fun g => { g with level := cap }) d
      if g.armed then bucketOverflow r d1 else d1
    else d) d

end Sys2Proof.Machine
end

