-- ==== Sys2Proof/Machine/Dram.lean ====
section
/-! DEFINITION. Machine/Dram.lean: the DRAM controller (R383 to R404): address mapping, activates and row-hammer defence, refresh,
real-time bursts, queues, line checks, training sweeps.  Times are not modelled (notes/assumptions/3). -/
namespace Sys2Proof.Machine

/-! ## Addresses (R385) -/

/-- Sub-channel of a DRAM byte address: DDR0A, DDR0B, DDR1A, DDR1B. -/
def subOf (a : Nat) : Fin 4 := ⟨2 * (a / 128 % 2) + a / 64 % 2, by omega⟩

/-- Rank of an address; only configuration B has two. -/
def rankOf (cfg : Nat × Nat × Nat × Nat) (a : Nat) : Nat := if cfg.2.2.1 = 2 then bits a 35 35 else 0

/-- Row of an address. -/
def dramRow (cfg : Nat × Nat × Nat × Nat) (a : Nat) : Nat := if cfg.2.2.1 = 2 then bits a 34 19 else bits a 35 19

/-- Bank of an address within its sub-channel: rank * 32 + bank group * 4 + bank index. -/
def bankOf (cfg : Nat × Nat × Nat × Nat) (a : Nat) : Nat :=
  rankOf cfg a * 32 + (bits a 9 8 + 4 * bits a 16 16) * 4 + bits a 18 17

/-- Refresh slot of an address: rank * 4 + bank index (R393). -/
def refSlot (cfg : Nat × Nat × Nat × Nat) (a : Nat) : Nat := rankOf cfg a * 4 + bits a 18 17

/-- A sub-channel changed. -/
def modifySub (i : Fin 4) (f : SubChannel → SubChannel) (d : Dev) : Dev :=
  { d with dram := { d.dram with sub := d.dram.sub.set i (f d.dram.sub[i]) } }

/-! ## Refresh-class operations (R393 to R397) -/

/-- A bank's banks-of-one-index test: true when bank `b` belongs to refresh slot `slot`. -/
def inSlot (slot b : Nat) : Bool := decide (b / 32 = slot / 4 ∧ b % 4 = slot % 4)

/-- A REFsb issued to a refresh slot: its eight banks are precharged and one less is owed (R394). -/
def issueRefsb (i : Fin 4) (slot : Fin 8) (d : Dev) : Dev :=
  gaugeCount 0x0F2 (bump 0x342002 (modifySub i (fun s =>
    { s with
      openRows := s.openRows.filter fun br => !inSlot slot.val br.1
      owed := s.owed.set slot (s.owed[slot] - 1) }) d))

/-- A same-bank RFM issued to a bank (R397). -/
def issueRfm (i : Fin 4) (bank : Nat) (d : Dev) : Dev :=
  gaugeCount 0x0F5 (bump 0x342007 (modifySub i (fun s =>
    { s with
      openRows := mapErase s.openRows bank
      raa := mapSet s.raa bank (mapGetD s.raa bank 0 - Config.raaimt)
      owedRfm := s.owedRfm.filter (· ≠ bank) }) d))

/-- One more activate in a bank's rolling count; the RFM comes first where the count would reach RAAMMT (R397). -/
def countActivate (i : Fin 4) (bank : Nat) (d : Dev) : Dev :=
  let d1 := if Config.raammt ≤ mapGetD d.dram.sub[i].raa bank 0 + 1 then issueRfm i bank d else d
  modifySub i (fun s =>
    let n := mapGetD s.raa bank 0 + 1
    { s with
      raa := mapSet s.raa bank n
      owedRfm := if Config.raaimt ≤ n ∧ !s.owedRfm.contains bank then s.owedRfm ++ [bank] else s.owedRfm }) d1

/-- The oldest neighbour entry served: the rows on each side are activated and precharged (R396). -/
def serveNeighbour (i : Fin 4) (d : Dev) : Dev :=
  match d.dram.sub[i].neighbours with
  | [] => d
  | (bank, _) :: rest =>
    let d1 := countActivate i bank (countActivate i bank d)
    gaugeCount 0x0F4 (bump 0x342006 (modifySub i (fun s =>
      { s with
        neighbours := rest
        openRows := mapErase s.openRows bank }) d1))

/-- A row selected for neighbour refresh; a full list first serves its oldest entry, so that no selection is dropped (R396). -/
def selectNeighbour (i : Fin 4) (bank row : Nat) (d : Dev) : Dev :=
  let d1 := if 16 ≤ d.dram.sub[i].neighbours.length then serveNeighbour i d else d
  modifySub i (fun s => { s with neighbours := s.neighbours ++ [(bank, row)] }) d1

/-- An activate of a row: counted, and selected by the generator with exponent k (R396, R397). -/
def activate (i : Fin 4) (bank row : Nat) (d : Dev) : Dev :=
  if mapGet d.dram.sub[i].openRows bank = some row then d
  else
    let d1 := countActivate i bank d
    let d2 := modifySub i (fun s => { s with openRows := mapSet s.openRows bank row }) d1
    let r := Config.rngNext d2.dram.rng
    let d3 := { d2 with dram := { d2.dram with rng := r } }
    if Config.rngSelect r (objNum d3 0x342005) then selectNeighbour i bank row d3 else d3

/-- The row of an address opened. -/
def touchRow (a : Nat) (d : Dev) : Dev :=
  let cfg := d.dram.cfg
  activate (subOf a) (bankOf cfg a) (dramRow cfg a) d

/-! ## Queues (R402, R403) -/

/-- The queued write that goes next: the oldest to an open row, else the oldest (R402). -/
def nextWrite (cfg : Nat × Nat × Nat × Nat) (s : SubChannel) : Option DramWrite :=
  match s.writes.find? (fun w => mapGet s.openRows (bankOf cfg (64 * w.line)) = some (dramRow cfg (64 * w.line))) with
  | some w => some w
  | none => s.writes.head?

/-- Writes drained until at most `low` remain; the first argument bounds the run. -/
def drainTo (i : Fin 4) (low : Nat) : Nat → Dev → Dev
  | 0, d => d
  | n + 1, d =>
    if d.dram.sub[i].writes.length ≤ low then d
    else match nextWrite d.dram.cfg d.dram.sub[i] with
      | none => d
      | some w =>
        drainTo i low n (modifySub i (fun s => { s with writes := s.writes.erase w }) (touchRow (64 * w.line) d))

/-- A line enters the write queue; at the high watermark the queue drains to the low one (R402). -/
def enqueueWrite (a : Nat) (d : Dev) : Dev :=
  let i := subOf a
  let d1 := modifySub i (fun s => { s with writes := s.writes ++ [{ line := a / 64, since := d.tm }] }) d
  if objNum d1 0x343001 ≤ d1.dram.sub[i].writes.length then drainTo i (objNum d1 0x343002) 64 d1 else d1

/-- The read that goes next: one that has waited more than 2 µs, else the oldest to an open row, else the oldest (R402). -/
def nextRead (cfg : Nat × Nat × Nat × Nat) (now : Nat) (s : SubChannel) : Option (Nat × Nat) :=
  match s.reads.find? (fun r => decide (r.2 + 2000 < now)) with
  | some r => some r
  | none => match s.reads.find? (fun r =>
        mapGet s.openRows (bankOf cfg (64 * r.1)) = some (dramRow cfg (64 * r.1))) with
    | some r => some r
    | none => s.reads.head?

/-- Queued reads served in the order of R402; the first argument bounds the run. -/
def serveReads (i : Fin 4) : Nat → Dev → Dev
  | 0, d => d
  | n + 1, d => match nextRead d.dram.cfg d.tm d.dram.sub[i] with
    | none => d
    | some r => serveReads i n (modifySub i (fun s => { s with reads := s.reads.erase r }) (touchRow (64 * r.1) d))

/-- A read request reaches its sub-channel: a line with a queued write is answered from the queue, any other is scheduled (R402, R403). -/
def scheduleRead (a : Nat) (d : Dev) : Dev :=
  let i := subOf a
  if d.dram.sub[i].writes.any (·.line = a / 64) then d
  else serveReads i 64 (modifySub i (fun s => { s with reads := s.reads ++ [(a / 64, d.tm)] }) d)

/-! ## Line checks (R388) -/

/-- Every word of a misdirected line is answered as uncorrectable and queued to be poisoned (R388, R407). -/
def misdirected (line : Nat) (d : Dev) : Dev :=
  let key := dramBase + 64 * line
  let d1 := bump 0x344001 (gaugeCount 0x0BD d)
  let d2 := raiseEvent (logError 0x05 2 3 0x0BD (integDetail key (regionOf key) 0) d1 (origin := regionOf key))
  (List.range 16).foldl (fun d k =>
    if isPoisoned d (key / 4 + k) then d else queueWriteBack (regionOf key) (key / 4 + k) true d) d2

/-- A line read and checked beat by beat: true when some word is answered as poison (R386, R388). -/
def readLine (a : Nat) (ecc : List (Nat × Ecc)) (cbBad : List Nat) (d : Dev) : Bool × Dev :=
  let key := dramBase + a / 64 * 64
  let d1 := scheduleRead a d
  if (List.range 16).all (cbBad.contains ·) then (true, misdirected (a / 64) d1)
  else
    let d2 := (List.range 16).foldl (fun d k =>
      if cbBad.contains k then correctedRead (key + 4 * k) (bump 0x344002 d) else d) d1
    readWords ecc ((List.range 16).map (key / 4 + ·)) 0 d2

/-- Bytes written to DRAM through the write queue, as whole lines (R386, R403, R415). -/
def dramStore (a : Nat) (bs : Bytes) (ecc : Ecc) (d : Dev) : Dev :=
  enqueueWrite a (storeBytes (dramKey a) bs ecc d)

/-- A write request of part or all of a line, with the classes that the read of a partial write finds (R386, R415). -/
def writeLine (a : Nat) (bs : Bytes) (ecc : List (Nat × Ecc)) (cbBad : List Nat) (d : Dev) : Dev :=
  let key := dramKey a
  let base := dramBase + a / 64 * 64
  let whole := decide (a % 64 = 0 ∧ bs.length = 64)
  let mis := !whole && (List.range 16).all (cbBad.contains ·)
  let full (w : Nat) : Bool := decide (key ≤ 4 * w ∧ 4 * w + 4 ≤ key + bs.length)
  let part (w : Nat) : Bool := decide (4 * w < key + bs.length ∧ key < 4 * w + 4)
  let d1 := (List.range 16).foldl (fun d k =>
    let w := base / 4 + k
    let e := (ecc.lookup k).getD .clean
    if full w then writeWordClass w true .clean d
    else if mis then poisonWord w (dropWriteBacks w d)
    else if part w then writeWordClass w false e d
    else if whole then d
    else match e with
      | .corrected => countCorrection (regionOf base) w d
      | _ => d) (if mis then bump 0x344001 (gaugeCount 0x0BD d) else d)
  enqueueWrite a (memPut key bs d1)

/-! ## Real-time bursts (R398 to R401) -/

/-- The refresh slot with the most owed, when any is owed (R399). -/
def mostOwed (s : SubChannel) : Option (Fin 8) :=
  let m := s.owed.foldl max 0
  if m = 0 then none else (List.finRange 8).find? fun k => s.owed[k] = m

/-- One refresh-class operation after a real-time burst (R399). -/
def refreshOne (i : Fin 4) (d : Dev) : Dev :=
  let s := d.dram.sub[i]
  match mostOwed s with
  | some slot => issueRefsb i slot d
  | none => match s.owedRfm with
    | bank :: _ => issueRfm i bank d
    | [] => serveNeighbour i d

/-- A full neighbour list served until 8 entries remain (R399). -/
def relieveNeighbours (i : Fin 4) (d : Dev) : Dev :=
  iter (d.dram.sub[i].neighbours.length - 8) (serveNeighbour i) d

/-- Lines opened one after the other. -/
def touchLines : Nat → Nat → Dev → Dev
  | _, 0, d => d
  | a, n + 1, d => touchLines (a + 64) n (touchRow a d)

/-- The sub-channels that `n` lines from an address use. -/
def burstSubs (a n : Nat) : List (Fin 4) :=
  (List.finRange 4).filter fun i => (List.range n).any fun k => decide (subOf (a + 64 * k) = i)

/-- One real-time burst within a 4 KiB block: full neighbour lists first, a forced REFsb splits it once, one refresh-class operation after
it on each sub-channel (R399, R400).  `forced` names the sub-channel where a fifth REFsb falls due during the burst. -/
def oneBurst (a n ns : Nat) (forced : Option (Fin 4)) (metStep : Bool) (d : Dev) : Dev :=
  let subs := burstSubs a n
  let full := subs.filter fun i => decide (16 ≤ d.dram.sub[i].neighbours.length)
  let d1 := full.foldl (fun d i => gaugeCount 0x0F6 (bump 0x342008 (relieveNeighbours i d))) d
  let d2 := touchLines a n d1
  let d3 := match forced with
    | none => d2
    | some i =>
      let slot : Fin 8 := ⟨refSlot d2.dram.cfg a % 8, by omega⟩
      if d2.dram.sub[i].owed[slot] = 4 then
        let d' := modifySub i (fun s => { s with owed := s.owed.set slot 5 }) d2
        touchLines a n (gaugeCount 0x0F3 (bump 0x342004 (issueRefsb i slot d')))
      else modifySub i (fun s => { s with owed := s.owed.set slot (s.owed[slot] + 1) }) d2
  let d4 := setNum 0x343006 (max (objNum d3 0x343006) ns) (bump 0x343005 d3)
  let d5 := if metStep || !full.isEmpty then gaugeCount 0x0F9 (bump 0x343007 d4) else d4
  subs.foldl (fun d i => refreshOne i d) d5

/-- A real-time request of any length, split at 4 KiB blocks (R398); the first argument bounds the run. -/
def rtBursts : Nat → Nat → Nat → Nat → Option (Fin 4) → Bool → Dev → Dev
  | 0, _, _, _, _, _, d => d
  | fuel + 1, a, n, ns, forced, metStep, d =>
    if n = 0 then d
    else
      let k := min n (64 - a / 64 % 64)
      rtBursts fuel (a + 64 * k) (n - k) ns none false (oneBurst a k ns forced metStep d)

/-! ## Training (R390 to R392) -/

/-- The longest run of passing steps as (start, length); the first of equals. -/
def longestRun (l : List Bool) : Nat × Nat :=
  let r := l.foldl (fun (acc : Nat × Nat × Nat × Nat) b =>
    -- (position, start of the present run, best start, best length)
    let (pos, cur, bs, bl) := acc
    if b then if bl < pos + 1 - cur then (pos + 1, cur, cur, pos + 1 - cur) else (pos + 1, cur, bs, bl)
    else (pos + 1, pos + 1, bs, bl)) (0, 0, 0, 0)
  (r.2.2.1, r.2.2.2)

/-- Centre of a run, rounded down (R390). -/
def runCentre (r : Nat × Nat) : Nat := (2 * r.1 + r.2 - 1) / 2

/-- A lane with its read or write sweep taken. -/
def sweepLane (write : Bool) (passing : List Bool) (l : DramLane) : DramLane :=
  let r := longestRun passing
  if write then { l with writeEye := r.2, writeDelay := runCentre r } else { l with readEye := r.2, readDelay := runCentre r }

/-- Ranks of the configuration in use. -/
def ranksOf (cfg : Nat × Nat × Nat × Nat) : Nat := cfg.2.2.1

/-- A lane after a retraining step with a narrow eye: its delay stays, and it counts once for each retrain (R392). -/
def failLane (write : Bool) (l : DramLane) : DramLane :=
  if write then { l with failsInRow := if l.readFailed then l.failsInRow else l.failsInRow + 1 }
  else { l with failsInRow := l.failsInRow + 1, readFailed := true }

/-- A lane after a retraining step that passed: the new centre; after the write step a retrain without a failure ends the row (R392). -/
def passLane (write : Bool) (passing : List Bool) (l : DramLane) : DramLane :=
  let l1 := sweepLane write passing l
  if write then { l1 with failsInRow := if l.readFailed then l.failsInRow else 0 } else { l1 with readFailed := false }

/-- One lane's retraining result: a narrow eye keeps the delay and counts; a lane that fails two retrains in a row raises the degraded event
and is retried (R392). -/
def retrainLane (i : Fin 4) (rank lane : Nat) (write : Bool) (passing : List Bool) (d : Dev) : Dev :=
  let k : Fin 10 := ⟨(rank * 5 + lane) % 10, by omega⟩
  let old := d.dram.sub[i].lanes[k]
  if (longestRun passing).2 < 13 then
    let l := failLane write old
    let listed := d.dram.sub[i].retryLanes.any fun r => r.1 = k.val && r.2.1 = write
    let d1 := bump 0x341004 (modifySub i (fun s =>
      { s with
        lanes := s.lanes.set k l
        retryLanes := if 2 ≤ l.failsInRow && !listed then s.retryLanes ++ [(k.val, write, d.tm)] else s.retryLanes }) d)
    if old.failsInRow = 1 ∧ l.failsInRow = 2 then
      raiseEvent (logError 0x0B 2 1 0 (leBytes 1 i.val ++ leBytes 1 rank ++ leBytes 1 lane) d1)
    else d1
  else
    modifySub i (fun s =>
      { s with
        lanes := s.lanes.set k (passLane write passing old)
        retryLanes := s.retryLanes.filter fun r => !(r.1 = k.val && r.2.1 = write) }) d

/-- A degraded lane's step tried again: it counts no retrain, and a step that passes is retried no more (R392). -/
def retryResult (i : Fin 4) (k : Fin 10) (write : Bool) (passing : List Bool) (d : Dev) : Dev :=
  if (longestRun passing).2 < 13 then
    bump 0x341004 (modifySub i (fun s =>
      { s with retryLanes := s.retryLanes.map fun r => if r.1 = k.val && r.2.1 = write then (k.val, write, d.tm) else r }) d)
  else
    modifySub i (fun s =>
      { s with
        lanes := s.lanes.set k { sweepLane write passing s.lanes[k] with failsInRow := 0 }
        retryLanes := s.retryLanes.filter fun r => !(r.1 = k.val && r.2.1 = write) }) d

end Sys2Proof.Machine
end

