-- ==== Sys2Proof/Machine/Host.lean ====
section
/-! DEFINITION. Machine/Host.lean: fetching a command, its common checks, its completion and what the completion reports (R100, R108,
R120, R123 to R128, R147 to R150, R530, R549). -/
namespace Sys2Proof.Machine

/-! ## Statuses, as (type, code); their numbers are those of the NVMe specifications (log entry 12) -/

/-- A status code type and a status code. -/
abbrev Status := Nat × Nat
def stOk : Status := (0, 0)
def stOpcode : Status := (0, 0x01)
def stField : Status := (0, 0x02)
def stConflict : Status := (0, 0x03)
def stTransfer : Status := (0, 0x04)
def stInternal : Status := (0, 0x06)
def stAborted : Status := (0, 0x07)
def stNamespace : Status := (0, 0x0B)
def stSequence : Status := (0, 0x0C)
def stSglLength : Status := (0, 0x0F)
def stSglType : Status := (0, 0x11)
def stWriteProtected : Status := (0, 0x20)
def stLbaRange : Status := (0, 0x80)
def stCapacity : Status := (0, 0x81)
def stNotReady : Status := (0, 0x82)
def stRsvConflict : Status := (0, 0x83)
def stKvValueSize : Status := (0, 0x85)
def stKvKeySize : Status := (0, 0x86)
def stKvNoKey : Status := (0, 0x87)
def stKvExists : Status := (0, 0x89)
def stCqInvalid : Status := (1, 0x00)
def stQid : Status := (1, 0x01)
def stQsize : Status := (1, 0x02)
def stAbortLimit : Status := (1, 0x03)
def stAerLimit : Status := (1, 0x05)
def stFwSlot : Status := (1, 0x06)
def stFwImage : Status := (1, 0x07)
def stVector : Status := (1, 0x08)
def stLogPage : Status := (1, 0x09)
def stFormat : Status := (1, 0x0A)
def stQueueDeletion : Status := (1, 0x0C)
def stFwProhibited : Status := (1, 0x13)
def stOverlap : Status := (1, 0x14)
def stNsCapacity : Status := (1, 0x15)
def stNsUnavailable : Status := (1, 0x16)
def stNsAttached : Status := (1, 0x18)
def stNsNotAttached : Status := (1, 0x1A)
def stCtrlList : Status := (1, 0x1C)
def stSelfTest : Status := (1, 0x1D)
def stCtrlId : Status := (1, 0x1F)
def stSecondary : Status := (1, 0x20)
def stResources : Status := (1, 0x21)
def stResourceId : Status := (1, 0x22)
def stUnwrap : Status := (1, 0xC0)
def stKcv : Status := (1, 0xC1)
def stSlotsOut : Status := (1, 0xC2)
def stNotOwned : Status := (1, 0xC3)
def stGenBusy : Status := (1, 0xC4)
def stLocked : Status := (1, 0xC5)
def stSlotType : Status := (1, 0xC6)
def stSlotUnavail : Status := (1, 0xC7)
def stImageRefused : Status := (1, 0xC8)
def stObjAborted : Status := (1, 0xC9)
def stNotMaster : Status := (1, 0xCA)
def stUnreachable : Status := (1, 0xCB)
def stUnrecovered : Status := (2, 0x81)
def stCompare : Status := (2, 0x85)
def stWithdrawn : Status := (7, 0x80)
def stSession : Status := (7, 0x81)
def stRevoked : Status := (7, 0x82)
def stProfile : Status := (7, 0x83)
def stUnit : Status := (7, 0x84)
def stTableFull : Status := (7, 0x85)
def stAssembly : Status := (7, 0x86)
def stPoison : Status := (7, 0x87)
def stProgram : Status := (7, 0x88)
def stFenceAborted : Status := (7, 0x89)
def stAbsent : Status := (7, 0x8A)
def stRiffle : Status := (7, 0x8B)
def stSmall : Status := (7, 0x8C)

/-- Statuses with DNR 0 (R127, R549). -/
def retryable : List Status :=
  [stRevoked, stTableFull, stFenceAborted, stAborted, stTransfer, stCapacity, stNotReady, stAerLimit, stAbortLimit,
   stFwProhibited, stSlotsOut, stGenBusy, stLocked, stSlotUnavail, stUnreachable]

/-- Do Not Retry of a status (R127, R549); after a failed mount Namespace Not Ready has it set (R545). -/
def dnrOf (d : Dev) (st : Status) : Bool :=
  if st = stOk then false
  else if st = stNotReady then decide (d.media.state = 3)
  else !retryable.contains st

/-- M of a status (R127, R549). -/
def moreOf (st : Status) : Bool := [stWithdrawn, stAssembly, stPoison, stProgram, stRiffle].contains st

/-- The row of R530 that a status belongs to, as (row, Gauge source). -/
def statusRow (st : Status) : Option (Nat × Nat) :=
  if st = stOpcode then some (18, 0x060)
  else if st = stField then some (19, 0x061)
  else if st = stNamespace then some (20, 0x062)
  else if st = stQid ∨ st = stQsize ∨ st = stVector then some (21, 0x063)
  else if st = stSequence then some (22, 0x064)
  else if st = stSglType ∨ st = stSglLength then some (23, 0x065)
  else if st = stConflict then some (14, 0x05B)
  else if st = stAerLimit ∨ st = stAbortLimit then some (15, 0x05C)
  else none

/-- What a completion carries besides its status. -/
structure Completion where
  /-- Controller. -/
  ctrl : Nat
  /-- Submission queue. -/
  sq : Nat
  /-- Command identifier. -/
  cid : Nat
  /-- Status. -/
  st : Status := stOk
  /-- Dword 0. -/
  dw0 : Nat := 0
  /-- Dword 1. -/
  dw1 : Nat := 0
  /-- CDW0 without the identifier: opcode, FUSE, PSDT. -/
  cdw0 : Nat := 0
  /-- CDW1. -/
  nsid : Nat := 0
  /-- Object key, for the Error Information entry and the log record (R127, R526). -/
  key : Nat := 0
  /-- Request tag. -/
  tag : Nat := 0
  /-- False when a record of class 0x02 to 0x04 has been written for it already (R526). -/
  record : Bool := true

/-- The detail of a class 0x01 record (R526). -/
def requestDetail (f : Completion) : Bytes :=
  leBytes 4 f.tag ++ leBytes 2 f.cid ++ leBytes 1 f.st.1 ++ leBytes 1 (f.cdw0 % 256) ++ leBytes 4 f.dw0 ++ leBytes 4 0 ++ leBytes 16 f.key

/-- The detail of a class 0x21 record (R526). -/
def nvmeDetail (qid v1 v2 : Nat) : Bytes := leBytes 4 qid ++ leBytes 4 v1 ++ leBytes 4 v2

/-- CSTS.CFS set on a function (R120). -/
def setCfs (id : Nat) (d : Dev) : Dev := gaugeCount 0x06B (modifyCtrl id (fun c => { c with cfs := true }) d)

/-- The stall of a full completion queue, recorded once (R530 row 16). -/
def noteStall (id cqid : Nat) (d : Dev) : Dev :=
  match (getCtrl d id).bind fun c => mapGet c.cqs cqid with
  | none => d
  | some q =>
    if cqFull q && !q.stalled then
      hostViolation 0x21 16 0x05D id (nvmeDetail cqid 0 0)
        (modifyCtrl id (fun c => { c with cqs := mapUpdate c.cqs cqid fun q => { q with stalled := true } }) d)
    else d

/-- Completion queue of a submission queue. -/
def cqOf (d : Dev) (id sqid : Nat) : Nat :=
  match (getCtrl d id).bind fun c => mapGet c.sqs sqid with
  | some q => q.cq
  | none => 0

/-- What the session objects count of a status: 0x5010.02 and 0x5010.04. -/
def countSessionStatus (st : Status) (d : Dev) : Dev :=
  if st = stSession then bump 0x501004 d else if st = stTableFull then bump 0x501002 d else d

/-- Gauge sources that a status counts in for its command: key commands that fail, and vendor I/O commands (R521). -/
def countFailure (sq opc : Nat) (st : Status) (d : Dev) : Dev :=
  if sq = 0 ∧ 0xC3 ≤ opc ∧ opc ≤ 0xC5 ∧ st ≠ stOk then gaugeCount 0x06C d
  else if sq ≠ 0 ∧ 0x80 ≤ opc ∧ opc ≤ 0x8F then
    (if st = stField then gaugeCount 0x01D d
      else if st = stTransfer then gaugeCount 0x01E d
      else if st = stCapacity then gaugeCount 0x01F d else d)
  else d

/-- The violation that a status is (R530). -/
def violationOf (f : Completion) (d : Dev) : Dev :=
  match statusRow f.st with
  | some (row, src) => hostViolation 0x21 row src f.ctrl (nvmeDetail f.sq (f.cdw0 + 65536 * f.cid) f.nsid) d
  | none => if f.st = stTransfer then hostViolation 0x20 7 0x058 f.ctrl [] d else d

/-- The interface code of a controller's port, 0 where there is none (R525). -/
def ifaceOf (d : Dev) (ctrl : Nat) : Nat :=
  match getCtrl d ctrl with
  | some c => 1 + c.port
  | none => 0

/-- The Error Information entry and the class 0x01 record of a status with M set (R127, R526). -/
def recordMore (f : Completion) (d : Dev) : Dev :=
  if moreOf f.st then
    let d1 := modifyCtrl f.ctrl (fun c => { c with errorLog := ((f.sq, f.cid, f.key) :: c.errorLog).take 256 }) d
    if f.record then logError 0x01 2 f.st.2 (f.st.2 - 0x70) (requestDetail f) d1 (origin := f.ctrl) (iface := ifaceOf d f.ctrl) else d1
  else d

/-- Sources and records that a completion's status brings, before it is posted (R127, R521, R526, R530). -/
def reportStatus (f : Completion) (d : Dev) : Dev :=
  recordMore f (violationOf f (countFailure f.sq (f.cdw0 % 256) f.st (countSessionStatus f.st d)))

/-- A command completed (R125, R127, R549). -/
def finish (f : Completion) (d : Dev) : Dev :=
  let d1 := reportStatus f d
  noteStall f.ctrl (cqOf d1 f.ctrl f.sq)
    (postCqe { ctrl := f.ctrl, sq := f.sq, cid := f.cid, sct := f.st.1, sc := f.st.2, dnr := dnrOf d1 f.st, more := moreOf f.st,
               dw0 := f.dw0, dw1 := f.dw1 } d1)

/-- A command completed with a status and its dwords. -/
def done (c : Cmd) (st : Status) (d : Dev) (dw0 : Nat := 0) (dw1 : Nat := 0) (key : Nat := 0) : Dev :=
  finish { ctrl := c.ctrl, sq := c.sq, cid := c.cid, st := st, dw0 := dw0, dw1 := dw1, cdw0 := c.opc + 256 * c.fuse + 16384 * c.psdt,
           nsid := c.nsid, key := key } d

/-- Data written to the host for a command (R82). -/
def sendData (c : Cmd) (bs : Bytes) (d : Dev) : Dev := emit (.data c.ctrl c.cid bs) d

/-- A command with the opcode of its row. -/
def withOp (opc : Nat) (c : Cmd) : Cmd := { c with opc := opc }

/-! ## Fetching a command -/

/-- True when the part takes commands: it has started (or recovers, or its mount failed), and it is in Run or Trim (R426, R540, R545). -/
def takesCommands (d : Dev) : Bool :=
  (d.power.phase = .ready || d.power.phase = .recovery) && d.power.state < 2 && d.power.exiting.isNone

/-- The submission queue a command may be fetched from: the controller enabled and ready, an entry waiting, no Fence, room for its
completion (R81, R108, R111, R149). -/
def fetchable (d : Dev) (c : Cmd) : Option SubQueue :=
  match getCtrl d c.ctrl with
  | none => none
  | some k =>
    match mapGet k.sqs c.sq with
    | none => none
    | some q =>
      match mapGet k.cqs q.cq with
      | none => none
      | some cq =>
        if takesCommands d && k.enabled && k.ready && k.busMaster && q.head ≠ q.tail && q.fence.isNone && !d.fw.restartDue
            && !cqFull cq && cq.waiting.isEmpty then some q else none

/-- The entry taken from the queue. -/
def takeEntry (c : Cmd) (q : SubQueue) (d : Dev) : Dev :=
  modifyCtrl c.ctrl
    (fun k => { k with sqs := mapSet k.sqs c.sq { q with head := (q.head + 1) % q.size, inflight := q.inflight ++ [c.cid] } }) d

/-- A controller in a non-operational power state that receives an I/O command returns to its last operational one (R428). -/
def wakeCtrl (c : Cmd) (d : Dev) : Dev :=
  if c.sq = 0 then d
  else modifyCtrl c.ctrl (fun k => if 2 < k.ps then { k with ps := k.lastPs } else k) d

/-- A command identifier still in flight: the later command completes with Command ID Conflict (R120). -/
def idConflict (c : Cmd) (q : SubQueue) (d : Dev) : Dev :=
  modifyCtrl c.ctrl (fun k => { k with sqs := mapUpdate k.sqs c.sq fun s => { s with inflight := s.inflight ++ [c.cid] } })
    (done c stConflict (modifyCtrl c.ctrl (fun k => { k with sqs := mapSet k.sqs c.sq { q with head := (q.head + 1) % q.size } }) d))

/-- A command fetched: identifier conflict, an Abort that hit it in its queue, cancellation by a failing chain, then its own work (R101,
R120, R147, R150).  Nothing happens where
no entry can be fetched. -/
def fetchCmd (c : Cmd) (admin isFence : Bool) (f : Dev → Dev) (d : Dev) : Dev :=
  let d0 := advanceTo c.now d
  match fetchable d0 c with
  | none => d0
  | some q =>
    if admin ≠ decide (c.sq = 0) then d0
    else if q.inflight.contains c.cid then idConflict c q d0
    else
      let d1 := takeEntry c q (wakeCtrl c d0)
      if q.doomed.contains c.cid then
        done c stAborted
          (modifyCtrl c.ctrl (fun k => { k with sqs := mapUpdate k.sqs c.sq fun s => { s with doomed := s.doomed.filter (· ≠ c.cid) } }) d1)
      else if q.cancelling && !isFence then done c stFenceAborted d1
      else f d1

/-- Common field checks of an entry (R11, R97, R100, R123): admin commands use PRPs only. -/
def fieldsOk (c : Cmd) (admin : Bool) : Bool :=
  c.fuse = 0 && (if admin then c.psdt = 0 else c.psdt < 2) && !c.rsv

/-- The status of following the data pointer, before data moves (R100, R120, R124). -/
def xferStatus (c : Cmd) : Option Status :=
  match c.xfer with
  | .ok => none
  | .sglType => some stSglType
  | .sglShort => some stSglLength
  | .listFault => none
  | .dataFault => some stTransfer

/-- Work on a command's data: an unusable pointer ends it, and a failed list sets CSTS.CFS (R120, R530 row 12). -/
def withData (c : Cmd) (f : Dev → Dev) (d : Dev) : Dev :=
  match c.xfer with
  | .listFault => setCfs c.ctrl (hostViolation 0x21 12 0x059 c.ctrl (nvmeDetail c.sq 0 0) d)
  | _ =>
    match xferStatus c with
    | some st => done c st d
    | none => f d

/-- An I/O command. -/
def ioCmd (c : Cmd) (f : Dev → Dev) (d : Dev) : Dev :=
  fetchCmd c false false (fun d =>
    if d.media.state = 3 then done c stNotReady d
    else if fieldsOk c false then f d else done c stField d) d

/-- True when a controller is a PF. -/
def isPf (d : Dev) (id : Nat) : Bool :=
  match getCtrl d id with
  | some c => c.vf = 0
  | none => false

/-- An admin command that every function may issue (R97). -/
def adminCmd (c : Cmd) (f : Dev → Dev) (d : Dev) : Dev :=
  fetchCmd c true false (fun d =>
    if d.power.phase = .recovery then done c stOpcode d
    else if fieldsOk c true then f d else done c stField d) d

/-- An admin command of a PF (R97). -/
def pfCmd (c : Cmd) (f : Dev → Dev) (d : Dev) : Dev :=
  adminCmd c (fun d => if isPf d c.ctrl then f d else done c stOpcode d) d

/-- An admin command that recovery accepts too (R540). -/
def recoveryCmd (c : Cmd) (pfOnly : Bool) (f : Dev → Dev) (d : Dev) : Dev :=
  fetchCmd c true false (fun d =>
    if pfOnly && !isPf d c.ctrl then done c stOpcode d
    else if fieldsOk c true then f d else done c stField d) d

/-! ## Namespaces of a command -/

/-- The namespace of an NSID that is attached to the controller. -/
def attachedNs (d : Dev) (ctrl nsid : Nat) : Option Namespace :=
  match mapGet d.media.nss nsid with
  | some n => if n.attached.contains ctrl then some n else none
  | none => none

/-- True when some namespace of any kind has this NSID and is attached. -/
def attachedAux (d : Dev) (ctrl nsid : Nat) : Option AuxNamespace :=
  match mapGet d.rt.aux nsid with
  | some n => if n.attached.contains ctrl then some n else none
  | none => none

/-- An I/O command on a namespace of one kind (R104, R128). -/
def nsCmd (c : Cmd) (kind : Nat) (f : Namespace → Dev → Dev) (d : Dev) : Dev :=
  match attachedNs d c.ctrl c.nsid with
  | some n => if n.kind = kind then f n d else done c stOpcode d
  | none => if (attachedAux d c.ctrl c.nsid).isSome then done c stOpcode d else done c stNamespace d

end Sys2Proof.Machine
end

