-- ==== Sys2Proof/Machine/Islands.lean ====
section
/-! DEFINITION. Machine/Islands.lean: the clock islands and their states, the requests for a power state, wake latches and the way out of
Doze and Slumber (R65, R66, R71, R426 to R442). -/
namespace Sys2Proof.Machine

/-- Headwater changed. -/
def modifyPower (f : Power → Power) (d : Dev) : Dev := { d with power := f d.power }

/-- Weir changed. -/
def modifyWeir (f : Weir → Weir) (d : Dev) : Dev := { d with weir := f d.weir }

/-! ## Islands (R65, R66, R71): numbered as the subindices of object 0x3020 -/

/-- True for an island that the variant lacks (R66). -/
def islandAbsent (v : Variant) (i : Nat) : Bool :=
  let small := v ≠ .vl7s && (decide (8 ≤ i ∧ i ≤ 0x0B) || i = 0x0E || decide (0x1A ≤ i ∧ i ≤ 0x21))
  let edge := v = .vl7e && (i = 0x0D || i = 0x10 || i = 0x27)
  small || edge

/-- Stage of R441 at which an island starts; Headwater, Springhead and Weir have none. -/
def islandStage (i : Nat) : Nat :=
  if i = 0x0C ∨ i = 0x26 ∨ (0x12 ≤ i ∧ i ≤ 0x21) then 1
  else if i = 3 then 2
  else if 0x22 ≤ i ∧ i ≤ 0x25 then 3
  else if i = 0x0F ∨ i = 0x10 ∨ i = 0x11 then 4
  else if i = 0x0D ∨ i = 0x0E then 5
  else if 4 ≤ i ∧ i ≤ 7 then 6
  else if 8 ≤ i ∧ i ≤ 0x0B then 7
  else if i = 0x27 ∨ i = 0x29 then 8
  else 0

/-- Weir's output that drives an island's divisor (R448). -/
def islandOutput (i : Nat) : Option (Fin 17) :=
  if 4 ≤ i ∧ i ≤ 0x0B then some ⟨(i - 4) % 17, by omega⟩
  else if i = 0x0D then some 8
  else if i = 0x0E then some 9
  else if i = 0x0F then some 10
  else if i = 0x10 then some 11
  else if i = 0x11 then some 12
  else if 0x22 ≤ i ∧ i ≤ 0x25 then some ⟨(i - 0x22 + 13) % 17, by omega⟩
  else none

/-- Nominal clock of an island in MHz (R65). -/
def islandNominal (d : Dev) (i : Nat) : Nat :=
  if i = 1 then 48
  else if i = 2 then 204 + Config.springheadMHz d.tm % 73
  else if i = 3 ∨ i = 0x10 then 1000
  else if 4 ≤ i ∧ i ≤ 0x0C then 1600
  else if i = 0x0D ∨ i = 0x0E then 1500
  else if i = 0x0F ∨ (0x12 ≤ i ∧ i ≤ 0x21) then 1200
  else if i = 0x11 then 800
  else if 0x22 ≤ i ∧ i ≤ 0x25 then 900
  else if i = 0x26 then 1600
  else if i = 0x27 then 875
  else if i = 0x28 then 200
  else 100

/-- State of an island: 0 running, 1 clock-gated, 2 power-gated, 3 absent (R62, R71, R426, R441). -/
def islandState (d : Dev) (i : Nat) : Nat :=
  if islandAbsent d.variant i then 3
  else if d.power.phase = .off then (if i = 1 then 0 else 2)
  else if d.power.phase = .flushing then (if i = 0x27 ∨ (0x0D ≤ i ∧ i ≤ 0x11) then 1 else 0)
  else if i = 1 ∨ i = 2 ∨ i = 0x28 then 0
  else if d.power.state = 2 then (if i = 0x29 then 0 else 1)
  else if d.power.state = 3 then
    (match d.power.exiting with
      | some k => if islandStage i ≤ k then 0 else 2
      | none => 2)
  else 0

/-- Divisor of an island (R71). -/
def islandDivisor (d : Dev) (i : Nat) : Nat :=
  match islandOutput i with
  | some o => d.weir.div[o]
  | none => 1

/-- Clock of an island before its divisor: Weir and, until XTAL25 is stable, the Supervisor run on the 48 MHz RC (R65, R440). -/
def islandSource (d : Dev) (i : Nat) : Nat :=
  if (i = 0x28 ∧ d.power.state = 3) ∨ (i = 0x0C ∧ !d.power.xtalLocked) then 48 else islandNominal d i

/-- The word of 0x3020 for an island (R71). -/
def islandWord (d : Dev) (i : Nat) : Nat :=
  let st := islandState d i
  let div := islandDivisor d i
  (if st = 0 then islandSource d i / max 1 div else 0) + div * 65536 + st * 2 ^ 24

/-- Divisor and state of an island, whose changes Gauge counts (R520). -/
def islandKind (d : Dev) (i : Nat) : Nat × Nat := (islandState d i, islandDivisor d i)

/-- An operation with the changes of divisor or clock state that it brings counted in 0x0C0 to 0x0E8 (R520). -/
def withIslands (f : Dev → Dev) (d : Dev) : Dev :=
  let d' := f d
  ((List.range 41).filter fun i => decide (islandKind d (i + 1) ≠ islandKind d' (i + 1))).foldl (fun e i => gaugeCount (0x0C0 + i) e) d'

/-- Every divisor of a stage's islands at 16 (R441, R457). -/
def stageDivisors (k : Nat) (d : Dev) : Dev :=
  let mine (o : Fin 17) : Bool := (List.range 42).any fun i => islandOutput i = some o && islandStage i = k
  modifyWeir (fun w => { w with div := Vector.ofFn fun o => if mine o then 16 else w.div[o] }) d

/-! ## Requests for a state (R427, R428) -/

/-- Device state of an NVMe power state (R427). -/
def psState (ps : Nat) : Nat := if ps ≤ 1 then 0 else ps - 1

/-- True while a port's link is up. -/
def linkUp (d : Dev) (p : Nat) : Bool := if p = 0 then d.host.ports[0].speed ≠ 0 else d.host.ports[1].speed ≠ 0

/-- True when the PF of a port is in D3hot (R428). -/
def portD3 (d : Dev) (p : Nat) : Bool := d.host.ctrls.any fun kc => kc.2.vf = 0 && kc.2.port = p && bit kc.2.pm 0

/-- The power states that controllers request (R428); log entry 42 on D3hot. -/
def psRequests (d : Dev) : List Nat :=
  d.host.ctrls.filterMap fun kc =>
    if !linkUp d kc.2.port then none
    else if portD3 d kc.2.port then some 4
    else if kc.2.enabled then some kc.2.ps
    else none

/-- The state that the requests come to: the shallowest, Run when there is none (R428). -/
def requestState (d : Dev) : Nat :=
  let l := (psRequests d).map psState ++ (if objNum d 0x305007 = 1 then [1] else [])
  match l with
  | [] => 0
  | x :: xs => xs.foldl min x

/-- True while the device request is PS1 (R452): the shallowest request is PS1. -/
def requestPs1 (d : Dev) : Bool :=
  match psRequests d with
  | [] => false
  | x :: xs => decide (xs.foldl min x = 1)

/-- The operational state that the requests allow now. -/
def awakeState (d : Dev) : Nat := if requestState d ≤ 1 then requestState d else if objNum d 0x305007 = 1 then 1 else 0

/-- The requests taken up: Run and Trim at once; a sleep request is put to Headwater, or held during an exit (R428, R436). -/
def applyRequest (d : Dev) : Dev :=
  let r := requestState d
  if d.power.phase ≠ .ready then d
  else if r ≤ 1 then
    modifyPower (fun p =>
      { p with
        state := if p.state ≤ 1 then r else p.state
        sleepRequest := if p.autoFrom.isSome then p.sleepRequest else none
        sleepHeld := false }) d
  else if d.power.exiting.isSome then modifyPower (fun p => { p with sleepHeld := true }) d
  else if r = d.power.state then d
  else modifyPower (fun p => { p with sleepRequest := some r, autoFrom := none }) d

/-! ## Self-refresh (R395) -/

/-- Every owed REFsb of every rank issued, and the ranks in self-refresh (R395, R433). -/
def enterSelfRefresh (d : Dev) : Dev :=
  (List.finRange 4).foldl (fun d i =>
    let d1 := (List.finRange 8).foldl (fun d s => iter (d.dram.sub[i].owed[s]) (issueRefsb i s) d) d
    modifySub i (fun s => { s with selfRefresh := true, openRows := [] }) d1) d

/-- The ranks out of self-refresh, with nothing owed (R395). -/
def leaveSelfRefresh (d : Dev) : Dev :=
  (List.finRange 4).foldl (fun d i => modifySub i (fun s => { s with selfRefresh := false, owed := Vector.replicate 8 0 }) d) d

/-! ## Wake (R435 to R440) -/

/-- What a wake does towards each port (R439): the link exits L1 by itself; a PF in D3hot with PME_En sends PM_PME; a port whose link is
down asserts WAKE_n. -/
def wakePorts (cause : Nat) (d : Dev) : Dev :=
  if cause &&& 0xFC = 0 then d
  else
    (List.finRange 2).foldl (fun d p =>
      let pme := d.host.ctrls.any fun kc => kc.2.vf = 0 && kc.2.port = p.val && bit kc.2.pm 1
      if d.host.ports[p].speed = 0 then (if pme then emit (.wake p.val) d else d)
      else
        let d1 := { d with host := { d.host with ports := d.host.ports.set p { d.host.ports[p] with l1 := false } } }
        if pme && portD3 d p.val then emit (.wake p.val) d1 else d1) d

/-- A wake recorded: its causes and its time (R446). -/
def recordWake (cause : Nat) (d : Dev) : Dev := wakePorts cause (setNum 0x305103 (d.tm % 2 ^ 64) (setNum 0x305102 cause d))

/-- Doze left: clocks ungated within 10 µs, DRAM out of self-refresh, the pass and other work resumed; the state is the one an autonomous
Doze left, or what the requests allow (R429, R442). -/
def leaveDoze (cause : Nat) (d : Dev) : Dev :=
  let target := d.power.autoFrom.getD (awakeState d)
  let (us, d1) := drawBelow 11 (recordWake cause d)
  withIslands (fun d => leaveSelfRefresh (modifyPower (fun p =>
    { p with state := target, autoFrom := none, sleepRequest := none, latches := 0 }) d))
    (setNum 0x30510A us { d1 with integ := { d1.integ with dredge := { d1.integ.dredge with suspended := false } } })

/-- Wake sources that may set a latch: enabled by 0x3051.01, bits 1 and 6 always; a Fieldbus frame not in Slumber (R437). -/
def wakeAllowed (d : Dev) (slumber : Bool) (bits_ : Nat) : Nat :=
  bits_ &&& (objNum d 0x305101 ||| 0x42) &&& (if slumber then 0xFB else 0xFF)

/-- Wake sources set their latches: Doze is left at once, the exit from Slumber starts, an entry will abort; awake, nothing follows (R435
to R437, R442). -/
def latchWake (bits_ : Nat) (d : Dev) : Dev :=
  if d.power.phase ≠ .ready then d
  else if d.power.state = 2 then
    let c := wakeAllowed d false bits_
    if c = 0 then d else leaveDoze c d
  else if d.power.slumberEntry then
    modifyPower (fun p => { p with latches := p.latches ||| wakeAllowed d true bits_ }) d
  else if d.power.state = 3 then
    let c := wakeAllowed d true bits_
    if c = 0 then d
    else match d.power.exiting with
      | some _ =>
        modifyPower (fun p => { p with latches := p.latches ||| c })
          (if d.tm = d.power.exitAt then setNum 0x305102 (objNum d 0x305102 ||| c) d else d)
      | none =>
        modifyPower (fun p =>
          { p with
            latches := c
            exiting := some 0
            exitAt := d.tm
            xtalLocked := false }) (recordWake c d)
  else d

end Sys2Proof.Machine
end

