-- ==== Sys2Proof/Machine/Aes.lean ====
section
/-! DEFINITION. Machine/Aes.lean: AES and the modes that Estuary and Springhead run (R191 to R198): XTS, CTR, CBC, GCM, key wrap.  The
algorithms are those of the standards the spec names (FIPS 197, IEEE 1619, SP 800-38A, SP 800-38D, RFC 3394); log entry 11.  A block is a
number whose byte i, the least significant first, is byte i of the block. -/
namespace Sys2Proof.Machine

/-! ## The cipher (FIPS 197) -/

/-- SubBytes of 0 to 255, 32 to a row, the first lowest (FIPS 197). -/
def sbox : List Nat :=
  [0xc072a49cafa2d4adf04759fa7dc982ca76abd7fe2b670130c56f6bf27b777c63,
   0x75b227ebe28012079a059618c323c7041531d871f1e5a534ccf73f362693fdb7,
   0xcf584c4a39becb6a5bb1fc20ed00d153842fe329b3d63b52a05a6e1b1a2c8309,
   0xd2f3ff1021dab6bcf5389d928f40a351a89f3c507f02f94585334d43fbaaefd0,
   0xdb0b5ede14b8ee4688902a22dc4f816073195d643d7ea7c41744975fec130ccd,
   0x08ae7a65eaf4566ca94ed58d6d37c8e779e4959162acd3c25c2406490a3a32e0,
   0x9e1dc186b95735610ef6034866b53e708a8bbd4b1f74dde8c6b4a61c2e2578ba,
   0x16bb54b00f2d99416842e6bf0d89a18cdf2855cee9871e9b948ed9691198f8e1]

/-- InvSubBytes of 0 to 255. -/
def invSbox : List Nat :=
  [0xcbe9dec444438e3487ff2f9b8239e37cfbd7f3819ea340bf38a53630d56a0952,
   0x25d18b6d49a25b76b224d92866a12e084ec3fa420b954cee3d23c2a632947b54,
   0x849d8da75746155edab9edfd5048706c92b6655dcc5ca4d41698688664f6f872,
   0x6b8a130103bdafc1020f3fca8f1e2cd00645b3b80558e4f70ad3bc8c00abd890,
   0x6edf751ce837f9e28535ade72274ac9673e6b4f0cecff297eadc674f4111913a,
   0xf45acd78fec0db9a2079d2c64b3e56fc1bbe18aa0e62b76f89c5291d711af147,
   0xef9cc9939f7ae52d0d4ab519a97f51605fec8027591012b131c7078833a8dd1f,
   0x7d0c2155631469e126d677ba7e042b17619953833cbbebc8b0f52aae4d3be0a0]

/-- A byte of a table of eight rows of 32. -/
def tableByte (t : List Nat) (i : Nat) : Nat := t.getD (i / 32) 0 >>> (8 * (i % 32)) % 256

/-- The table's bytes for the bytes of a number at the given positions: SubBytes and ShiftRows in one. -/
def gather (t : List Nat) (x : Nat) : List Nat → Nat
  | [] => 0
  | p :: ps => tableByte t (x >>> (8 * p) % 256) + 256 * gather t x ps

/-- The bytes that ShiftRows puts in the places 0 to 15. -/
def rowsOut : List Nat := [0, 5, 10, 15, 4, 9, 14, 3, 8, 13, 2, 7, 12, 1, 6, 11]
/-- The bytes that InvShiftRows puts there. -/
def rowsBack : List Nat := [0, 13, 10, 7, 4, 1, 14, 11, 8, 5, 2, 15, 12, 9, 6, 3]

/-- A byte in each of the 16 places. -/
def every (b : Nat) : Nat := b * 0x01010101010101010101010101010101

/-- Every byte times x. -/
def times2 (x : Nat) : Nat :=
  let high := x &&& every 0x80
  ((x ^^^ high) <<< 1) ^^^ ((high >>> 7) * 0x1B)

/-- In each column, every row takes the byte of the next row. -/
def nextRow (x : Nat) : Nat := ((x &&& every 0xFF - 0x000000FF000000FF000000FF000000FF) >>> 8) ||| ((x &&& 0x000000FF000000FF000000FF000000FF) <<< 24)

/-- MixColumns: 2, 3, 1, 1 times the bytes of a row and the three after it. -/
def mixColumns (x : Nat) : Nat :=
  forced (nextRow x) fun y => forced (nextRow y) fun z => times2 (x ^^^ y) ^^^ y ^^^ z ^^^ nextRow z

/-- InvMixColumns: 14, 11, 13, 9 times the bytes of a row and the three after it. -/
def unmixColumns (x : Nat) : Nat :=
  forced (times2 x) fun x2 => forced (times2 x2) fun x4 => forced (times2 x4) fun x8 =>
    (x8 ^^^ x4 ^^^ x2) ^^^ nextRow ((x8 ^^^ x2 ^^^ x) ^^^ nextRow ((x8 ^^^ x4 ^^^ x) ^^^ nextRow (x8 ^^^ x)))

/-- SubBytes of the four bytes of a word. -/
def subWord (w : Nat) : Nat := gather sbox w [0, 1, 2, 3]

/-- The key schedule's words, the newest first: `n` more words from word `i` on; `nk` is the key's words. -/
def expandKey (nk : Nat) : Nat → Nat → Nat → List Nat → List Nat
  | 0, _, _, ws => ws
  | n + 1, i, rcon, ws =>
    let t := ws.headD 0
    let t' := if i % nk = 0 then subWord ((t >>> 8) ||| ((t % 256) <<< 24)) ^^^ rcon else if 6 < nk ∧ i % nk = 4 then subWord t else t
    forced (ws.getD (nk - 1) 0 ^^^ t') fun w => forced (if i % nk = 0 then times2 rcon else rcon) fun rc => expandKey nk n (i + 1) rc (w :: ws)

/-- Round keys: their number less one, and all of them in one number, round 0 lowest. -/
structure AesKey where
  /-- Rounds. -/
  rounds : Nat
  /-- Round keys. -/
  words : Nat

/-- Words joined, the last of the list lowest. -/
def joinWords : List Nat → Nat → Nat
  | [], acc => acc
  | w :: ws, acc => forced (acc * 2 ^ 32 + w) fun a => joinWords ws a

/-- Work under the round keys of a 16-byte or 32-byte key. -/
def withKeys {α : Type} (key : Bytes) (f : AesKey → α) : α :=
  let nk := key.length / 4
  let first := ((List.range nk).map fun i => leField key (4 * i) 4).reverse
  forced (joinWords (expandKey nk (4 * (nk + 7) - nk) nk 1 first) 0) fun ws => f { rounds := nk + 6, words := ws }

/-- The round key of a round. -/
def AesKey.round (k : AesKey) (r : Nat) : Nat := k.words >>> (128 * r) % 2 ^ 128

/-- The rounds from `r` on but for the last, `n` of them. -/
def encRounds (k : AesKey) (r : Nat) : Nat → Nat → Nat
  | 0, x => x
  | n + 1, x => forced (gather sbox x rowsOut) fun y => forced (mixColumns y ^^^ k.round r) fun z => encRounds k (r + 1) n z

/-- A block encrypted. -/
def aesEncN (k : AesKey) (x : Nat) : Nat :=
  forced (x ^^^ k.round 0) fun y => forced (encRounds k 1 (k.rounds - 1) y) fun z => gather sbox z rowsOut ^^^ k.round k.rounds

/-- The rounds from `n` down to 1 undone. -/
def decRounds (k : AesKey) : Nat → Nat → Nat
  | 0, x => x
  | n + 1, x => forced (gather invSbox x rowsBack ^^^ k.round (n + 1)) fun y => forced (unmixColumns y) fun z => decRounds k n z

/-- A block decrypted. -/
def aesDecN (k : AesKey) (x : Nat) : Nat :=
  forced (x ^^^ k.round k.rounds) fun y => forced (decRounds k (k.rounds - 1) y) fun z => gather invSbox z rowsBack ^^^ k.round 0

/-- A block of bytes encrypted under round keys. -/
def aesEnc (k : AesKey) (b : Bytes) : Bytes := forced (leNat b) fun x => forced (aesEncN k x) fun y => leBytes 16 y

/-- A block of bytes decrypted under round keys. -/
def aesDec (k : AesKey) (b : Bytes) : Bytes := forced (leNat b) fun x => forced (aesDecN k x) fun y => leBytes 16 y

/-- Two byte strings XORed over the shorter. -/
def xorBytes (a b : Bytes) : Bytes := List.zipWith (· ^^^ ·) a b

/-- A byte string in blocks of 16; the last may be shorter. -/
def blocks16 (bs : Bytes) : List Bytes := (List.range ((bs.length + 15) / 16)).map fun i => (bs.drop (16 * i)).take 16

/-- Key check value: the first 4 bytes of the encryption of 16 zero bytes, little-endian (R197). -/
def kcvOf (key : Bytes) : Nat := withKeys key fun k => aesEncN k 0 % 2 ^ 32

/-! ## XTS (R191) -/

/-- The next block's tweak: multiplication by the primitive element, little-endian. -/
def xtsAlpha (t : Nat) : Nat :=
  let d := 2 * t
  if d < 2 ^ 128 then d else (d - 2 ^ 128) ^^^ 0x87

/-- Blocks of one data unit under XTS. -/
def xtsBlocks (f : Nat → Nat) : Nat → List Bytes → Bytes
  | _, [] => []
  | t, b :: bs => forced (leNat b ^^^ t) fun x => forced (f x ^^^ t) fun y => forced (xtsAlpha t) fun t' => leBytes 16 y ++ xtsBlocks f t' bs

/-- One data unit of whole blocks encrypted under a 64-byte key with a 128-bit tweak (R191). -/
def xtsEnc (key : Bytes) (tweak : Nat) (bs : Bytes) : Bytes :=
  withKeys (key.take 32) fun k1 => withKeys (key.drop 32) fun k2 => forced (tweak % 2 ^ 128) fun w => forced (aesEncN k2 w) fun t =>
    xtsBlocks (aesEncN k1) t (blocks16 bs)

/-- One data unit of whole blocks decrypted (R191). -/
def xtsDec (key : Bytes) (tweak : Nat) (bs : Bytes) : Bytes :=
  withKeys (key.take 32) fun k1 => withKeys (key.drop 32) fun k2 => forced (tweak % 2 ^ 128) fun w => forced (aesEncN k2 w) fun t =>
    xtsBlocks (aesDecN k1) t (blocks16 bs)

/-! ## CTR, CBC and GCM (R193 to R196) -/

/-- `n` bytes of the keystream of counter blocks with an 8-byte IV and a 64-bit big-endian counter from 0 (R193). -/
def ctrStream (key iv : Bytes) (n : Nat) : Bytes :=
  withKeys key fun k => (((List.range ((n + 15) / 16)).map fun i => aesEnc k (iv ++ beBytes 8 i)).flatten).take n

/-- Whole blocks encrypted as one chain from a chaining value. -/
def cbcChain (k : AesKey) : Bytes → List Bytes → Bytes
  | _, [] => []
  | c, b :: bs =>
    let e := aesEnc k (xorBytes b c)
    e ++ cbcChain k e bs

/-- The blocks of a protected range where every tenth block goes through the chain, from block `i` on (R194). -/
def cbcsBlocks (k : AesKey) : Nat → Bytes → List Bytes → Bytes
  | _, _, [] => []
  | i, c, b :: bs =>
    if i % 10 = 0 ∧ b.length = 16 then
      let e := aesEnc k (xorBytes b c)
      e ++ cbcsBlocks k (i + 1) e bs
    else b ++ cbcsBlocks k (i + 1) c bs

/-- The PKCS#7 padding of a string (R167). -/
def pkcs7 (bs : Bytes) : Bytes :=
  let n := 16 - bs.length % 16
  bs ++ List.replicate n (BitVec.ofNat 8 n)

/-- The product of GCM's field, from the most significant bit on; the first argument bounds the bits taken. -/
def ghashMul : Nat → Nat → Nat → Nat → Nat
  | 0, _, _, z => z
  | n + 1, x, v, z =>
    let z' := if x.testBit n then z ^^^ v else z
    let v' := if v.testBit 0 then (v / 2) ^^^ (0xE1 * 2 ^ 120) else v / 2
    ghashMul n x v' z'

/-- GHASH of whole blocks. -/
def ghash (h : Nat) (bs : List Bytes) : Nat :=
  bs.foldl (fun y b => ghashMul 128 (y ^^^ beNat (padTo 16 b)) h 0) 0

/-- AES-GCM with a 12-byte nonce and no additional data: ciphertext and tag (R196). -/
def gcmEnc (key nonce bs : Bytes) : Bytes × Bytes :=
  withKeys key fun k =>
    let h := beNat (aesEnc k (List.replicate 16 0))
    let ks := (((List.range ((bs.length + 15) / 16)).map fun i => aesEnc k (nonce ++ beBytes 4 (i + 2))).flatten)
    let c := xorBytes bs ks
    let s := ghash h (blocks16 c ++ [beBytes 16 (8 * c.length)])
    (c, xorBytes (beBytes 16 s) (aesEnc k (nonce ++ beBytes 4 1)))

/-! ## Key wrap (R198, R204) -/

/-- One step of unwrapping at step t of the 6n steps counted down: register A and the n registers, each as a number like a block. -/
def unwrapStep (k : AesKey) (n t : Nat) (ar : Nat × List Nat) : Nat × List Nat :=
  let i := (t - 1) % n
  forced ((ar.1 ^^^ leNat (beBytes 8 t)) + 2 ^ 64 * ar.2.getD i 0) fun x => forced (aesDecN k x) fun b =>
    forced (b % 2 ^ 64) fun a => forced (b / 2 ^ 64) fun r => (a, ar.2.set i r)

/-- The steps t down to 1. -/
def unwrapFrom (k : AesKey) (n : Nat) : Nat → Nat × List Nat → Nat × List Nat
  | 0, ar => ar
  | t + 1, ar =>
    match unwrapStep k n (t + 1) ar with
    | (a, rs) => unwrapFrom k n t (a, rs)

/-- The key in a wrapped string, when the integrity check passes with the default initial value. -/
def keyUnwrap (kek wrapped : Bytes) : Option Bytes :=
  let n := wrapped.length / 8 - 1
  let rs := (List.range n).map fun i => leField wrapped (8 + 8 * i) 8
  withKeys kek fun k =>
    match unwrapFrom k n (6 * n) (leField wrapped 0 8, rs) with
    | (a, rs') => if a = 0xA6A6A6A6A6A6A6A6 then some (rs'.map (leBytes 8)).flatten else none

end Sys2Proof.Machine
end

