-- ==== Sys2Proof/Machine/Eddy.lean ====
section
/-! DEFINITION. Machine/Eddy.lean: the associative array (R244 to R262): searches, update steps, parity failures and the program port. -/
namespace Sys2Proof.Machine

/-- The entry at an address (R244). -/
def eddyEntry (d : Dev) (a : Nat) : EddyEntry := mapGetD d.eddy.entries a {}

/-- An entry put at an address. -/
def putEntry (a : Nat) (e : EddyEntry) (d : Dev) : Dev := { d with eddy := { d.eddy with entries := mapSet d.eddy.entries a e } }

/-- The sixteen mask registers (R247). -/
def eddyMask (d : Dev) (m : Nat) : BitVec 128 :=
  if m = 0 then BitVec.allOnes 128
  else if m = 1 then 0x00000000FFFF00000000000000000000#128
  else if m = 2 then 0x00000000FFFF000000000000FFFFFFFF#128
  else if m = 3 then 0x00000000FFFF0000000000FFFFFFFFFF#128
  else (d.eddy.masks.toList).getD (m - 4) 0

/-- First address of a partition and the address past its last (R248, R262). -/
def layoutRange (w : Nat) : Nat × Nat :=
  let first := bits w 5 0
  (first * 1024, (first + bits w 14 8) * 1024)

/-- The layout word of a partition. -/
def layoutWord (d : Dev) (p : Nat) : Nat := ((d.eddy.layout.toList).getD p 0).toNat

/-- Owner field of a partition (R262). -/
def partOwner (d : Dev) (p : Nat) : Nat := bits (layoutWord d p) 23 16

/-- True when an address lies in a partition. -/
def inPartition (d : Dev) (p a : Nat) : Bool :=
  let r := layoutRange (layoutWord d p)
  decide (r.1 ≤ a ∧ a < r.2)

/-- What a search returns (R246). -/
structure EddyHit where
  /-- Address of the winner. -/
  addr : Nat
  /-- The winner. -/
  entry : EddyEntry
  /-- More than one entry matched. -/
  multi : Bool
  deriving DecidableEq, Repr

/-- True when an entry matches (R245).  An entry that the firmware is rewriting counts as what it is rewritten to, because its searches are
held until then (R260). -/
def eddyMatches (mask key : BitVec 128) (e : EddyEntry) : Bool :=
  (e.valid || e.rewriting) && (e.key ^^^ key) &&& mask = 0

/-- The winner among the matching entries of an address range: highest priority, then lowest address (R246). -/
def eddyPick (mask key : BitVec 128) (lo hi : Nat) (m : AMap EddyEntry) : Option EddyHit :=
  m.foldl (fun best ae =>
    if lo ≤ ae.1 ∧ ae.1 < hi ∧ eddyMatches mask key ae.2 then
      match best with
      | none => some { addr := ae.1, entry := ae.2, multi := false }
      | some b =>
        if b.entry.prio < ae.2.prio then some { addr := ae.1, entry := ae.2, multi := true } else some { b with multi := true }
    else best) none

/-- A search of a partition with a mask, parity aside (R245, R246). -/
def eddyFind (d : Dev) (p mask : Nat) (key : BitVec 128) : Option EddyHit :=
  let r := layoutRange (layoutWord d p)
  eddyPick (eddyMask d mask) key r.1 r.2 d.eddy.entries

/-- An entry whose parity fails: invalidated with an event; in partitions 0 and 1 the firmware starts to rewrite it (R260). -/
def parityFail (a : Nat) (d : Dev) : Dev :=
  let e := eddyEntry d a
  let fw := inPartition d 0 a || inPartition d 1 a
  raiseEvent (gaugeCount 0x042 (bump 0x600006 (putEntry a { e with valid := false, rewriting := e.valid && fw } d)))

/-- A search that meets parity failures on the way: a failing winner of a program partition gives way to the next (R260).  The first
argument bounds the run. -/
def eddySearchLoop : Nat → Nat → Nat → BitVec 128 → List Nat → Dev → Option EddyHit × Dev
  | 0, p, mask, key, _, d => (eddyFind d p mask key, d)
  | n + 1, p, mask, key, bad, d =>
    match eddyFind d p mask key with
    | none => (none, d)
    | some h =>
      if bad.contains h.addr && h.entry.valid then
        eddySearchLoop n p mask key (bad.filter (· ≠ h.addr)) (parityFail h.addr d)
      else (some h, d)

/-- A counted search; `bad` names the addresses whose stored parity is wrong (R254, R260, R262). -/
def eddySearch (p mask : Nat) (key : BitVec 128) (bad : List Nat) (d : Dev) : Option EddyHit × Dev :=
  eddySearchLoop (bad.length + 1) p mask key bad (bump 0x600004 d)

/-- True when a staged write of 0x6020 gives a segment to a partition or takes it from one: nothing is inserted there (R249). -/
def segBlocked (d : Dev) (seg : Nat) : Bool :=
  d.txn.staged.any fun kv =>
    let p := kv.1 - 0x602001
    let inWord (w : Nat) : Bool := decide ((layoutRange w).1 ≤ seg * 1024 ∧ seg * 1024 < (layoutRange w).2)
    decide (0x602001 ≤ kv.1 ∧ kv.1 ≤ 0x602008) && (inWord (layoutWord d p) != inWord (leNat kv.2))

/-- The lowest free address from `a` on within `n` addresses (R250). -/
def eddyFree (d : Dev) (a : Nat) : Nat → Option Nat
  | 0 => none
  | n + 1 =>
    let e := eddyEntry d a
    if !e.valid && !e.rewriting && !segBlocked d (a / 1024) then some a else eddyFree d (a + 1) n

/-- The lowest free address of a partition. -/
def partFree (d : Dev) (p : Nat) : Option Nat :=
  let r := layoutRange (layoutWord d p)
  eddyFree d r.1 (r.2 - r.1)

/-- A new entry in a partition, by the three steps of R250; the address, when one is free. -/
def eddyInsert (p : Nat) (key : BitVec 128) (prio : BitVec 8) (data : BitVec 128) (d : Dev) : Option Nat × Dev :=
  match partFree d p with
  | none => (none, d)
  | some a => (some a, putEntry a { key := key, prio := prio, valid := true, data := data } (addNum 0x600005 3 d))

/-- The valid bit of one address cleared, in a slot that another step has taken (R250). -/
def eddyClear (a : Nat) (d : Dev) : Dev := putEntry a { eddyEntry d a with valid := false, rewriting := false } d

/-- One invalidate step (R250). -/
def eddyInvalidate (a : Nat) (d : Dev) : Dev :=
  putEntry a { eddyEntry d a with valid := false, rewriting := false } (bump 0x600005 d)

/-- One data step (R250): the associated data word, which a whole write also cleans. -/
def eddySetData (a : Nat) (data : BitVec 128) (d : Dev) : Dev :=
  putEntry a { eddyEntry d a with data := data, poison := false } (bump 0x600005 d)

/-- Every entry that satisfies a test invalidated, each by one step. -/
def eddyInvalidateWhere (p : Nat → EddyEntry → Bool) (d : Dev) : Dev :=
  ((d.eddy.entries.filter fun ae => (ae.2.valid || ae.2.rewriting) && p ae.1 ae.2).map Prod.fst).foldl
    (fun d a => eddyInvalidate a d) d

/-- Valid entries of a partition (0x6030). -/
def partValid (d : Dev) (p : Nat) : Nat :=
  (d.eddy.entries.filter fun ae => inPartition d p ae.1 && (ae.2.valid || ae.2.rewriting)).length

/-! ## The program port (R257 to R259) -/

/-- Eddy's owner number of the program on a core: its slot, or the firmware's 0xFE on a supervisor core. -/
def portOwner (d : Dev) (n : CoreId) : Option Nat := if CoreId.isSupervisor n then some 0xFE else d.cores[n].slot

/-- True when the program on a core owns a partition. -/
def ownsPart (d : Dev) (n : CoreId) (p : Nat) : Bool := decide (portOwner d n = some (partOwner d p))

/-- RESULT from its fields, DONE clear (R257). -/
def portResult (addr prio status : Nat) (multi hit : Bool) : Word :=
  BitVec.ofNat 32 (addr * 65536 + prio * 256 + status * 16 + (if multi then 4 else 0) + (if hit then 2 else 0))

/-- A non-zero STATUS, counted (R259). -/
def portFail (status : Nat) (d : Dev) : EddyPending × Dev :=
  let d1 := gaugeCount (0x03C + status) d
  ({ result := portResult 0 0 status false false }, if status = 1 then bump 0x600008 d1 else d1)

/-- An update by a program to an address it must own (R259). -/
def portUpdate (n : CoreId) (p a : Nat) (d : Dev) (f : Dev → EddyPending × Dev) : EddyPending × Dev :=
  if p = 1 || !ownsPart d n p then portFail 2 d
  else if !inPartition d p a then portFail 5 d
  else f d

/-- What a CMD word sets off, with KEY, PART and DATA as they stand (R258); the compare or update happens now and the port publishes it
when the operation ends. -/
def portOperation (n : CoreId) (cmd : Nat) (bad : List Nat) (d : Dev) : EddyPending × Dev :=
  let port := d.cores[n].eddy
  let p := port.part.toNat
  let op := bits cmd 3 0
  let mask := bits cmd 7 4
  let prio := BitVec.ofNat 8 (bits cmd 15 8)
  let a := bits cmd 31 16
  if op = 0 then
    if p = 1 || !(p = 0 || ownsPart d n p) then portFail 2 d
    else
      match eddySearch p mask port.key bad d with
      | (none, d1) => ({ result := portResult 0 0 0 false false }, d1)
      | (some h, d1) =>
        if p ≠ 0 && h.entry.poison then portFail 4 d1
        else ({ data := some (if p = 0 then 0 else h.entry.data), result := portResult h.addr h.entry.prio.toNat 0 h.multi true }, d1)
  else if op = 1 then
    if p = 1 || !ownsPart d n p then portFail 2 d
    else match eddyInsert p port.key prio port.data d with
      | (none, d1) => portFail 1 d1
      | (some x, d1) => ({ result := portResult x 0 0 false false }, d1)
  else if op = 2 then
    portUpdate n p a d fun d =>
      ({ result := portResult a 0 0 false false },
        putEntry a { key := port.key, prio := prio, valid := true, data := port.data } (addNum 0x600005 3 d))
  else if op = 3 then
    portUpdate n p a d fun d => ({ result := portResult a 0 0 false false }, eddyInvalidate a d)
  else if op = 4 then
    portUpdate n p a d fun d => ({ result := portResult a 0 0 false false }, eddySetData a port.data d)
  else if op = 5 then
    if p = 1 then portFail 2 d
    else if !inPartition d p a then portFail 5 d
    else
      let e := eddyEntry d a
      if e.poison then portFail 4 d
      else ({ key := some e.key, data := some e.data, result := portResult a e.prio.toNat 0 false e.valid }, d)
  else portFail 3 d

/-- The port operation of a core ends: KEY and DATA where it returns them, then RESULT with DONE (R258). -/
def portDone (n : CoreId) (d : Dev) : Dev :=
  modifyCore n (fun c => match c.eddy.pending with
    | none => c
    | some r =>
      { c with
        eddy := { c.eddy with
          key := r.key.getD c.eddy.key
          data := r.data.getD c.eddy.data
          result := r.result ||| 1
          pending := none } }) d

/-- A store to CMD: the previous operation ends first, RESULT clears, the operation starts (R258). -/
def portCommand (n : CoreId) (cmd : Nat) (bad : List Nat) (d : Dev) : Dev :=
  let d1 := modifyCore n (fun c => { c with eddy := { c.eddy with result := 0 } }) (portDone n d)
  let (r, d2) := portOperation n cmd bad d1
  modifyCore n (fun c => { c with eddy := { c.eddy with pending := some r } }) d2

end Sys2Proof.Machine
end

