-- ==== Sys2Proof/Machine/Media.lean ====
section
/-! DEFINITION. Machine/Media.lean: geometry, bands, the map and its journal, placing and reading units, reclamation and retirement (R348
to R381, R553). -/
namespace Sys2Proof.Machine

/-- Media management changed. -/
def modifyMedia (f : Media → Media) (d : Dev) : Dev := { d with media := f d.media }

/-! ## Geometry (R348 to R354, R553) -/

/-- Bytes of a unit of a class: 4, 16 or 64 KiB (R353). -/
def unitBytes (cls : Nat) : Nat := 4096 * 4 ^ cls

/-- Rows of the fitted flash (R350). -/
def rowCount (d : Dev) : Nat := d.media.geo.ce * d.media.geo.luns

/-- Units of a class in one native band: 16 LUNs of every plane's block (R350, R353). -/
def bandUnits (d : Dev) (cls : Nat) : Nat := 16 * d.media.geo.planes * d.media.geo.pages * 16384 / unitBytes cls

/-- Units of a class in a Backwater band, which stores one bit a cell (R361; log entry 22). -/
def slcUnits (d : Dev) (cls : Nat) : Nat := bandUnits d cls / max 1 d.media.geo.cell

/-- Units that a band holds. -/
def bandSize (d : Dev) (b : Band) : Nat := if b.backwater then slcUnits d b.cls else bandUnits d b.cls

/-- Raw capacity (R348). -/
def rawCapacity (d : Dev) : Nat :=
  16 * d.media.geo.ce * d.media.geo.luns * d.media.geo.planes * d.media.geo.blocks * d.media.geo.pages * 16384

/-- Bytes of one block. -/
def blockBytes (d : Dev) : Nat := d.media.geo.pages * 16384

/-- Raw capacity in service (R553). -/
def rawInService (d : Dev) : Nat := rawCapacity d - objNum d 0x383003

/-- Bytes of Backwater (R361, R553). -/
def backwaterBytes (d : Dev) (pct : Nat) : Nat := rawCapacity d * pct / 100

/-- Usable capacity for a Backwater share (R553). -/
def usableFor (d : Dev) (pct : Nat) : Nat :=
  (rawInService d - backwaterBytes d pct - d.media.metaBytes) * 100 / 107 / 65536 * 65536

/-- Usable capacity (R553). -/
def usableCapacity (d : Dev) : Nat := usableFor d (objNum d 0x381001)

/-- Bands a class can hold at once (R353). -/
def reachBands (d : Dev) (cls : Nat) : Nat := (2 ^ 32 - 16) / max 1 (bandUnits d cls)

/-- Class of a namespace (R354). -/
def nsClass (n : Namespace) : Nat := n.iu

/-- Bytes of one block of NSZE. -/
def lbaBytes (n : Namespace) : Nat := if n.kind = 1 then 1 else if n.kind = 0 ∧ n.fmt = 0 then 512 else 4096

/-- Logical size in bytes. -/
def nsBytes (n : Namespace) : Nat := n.nsze * lbaBytes n

/-- Logical size in units (R352). -/
def nsUnits (n : Namespace) : Nat := ceilDiv (nsBytes n) (unitBytes n.iu)

/-- Sum of the logical sizes of a class's namespaces, in bytes (R354). -/
def classSum (d : Dev) (cls : Nat) : Nat := (d.media.nss.filter fun kn => kn.2.iu = cls).foldl (fun a kn => a + nsBytes kn.2) 0

/-- Sum of every namespace's logical size. -/
def logicalSum (d : Dev) : Nat := d.media.nss.foldl (fun a kn => a + nsBytes kn.2) 0

/-- Largest logical sum of a class (R354). -/
def classCap (d : Dev) (cls : Nat) : Nat :=
  if cls = 0 then 15 * 2 ^ 40 else if cls = 1 then 60 * 2 ^ 40 else usableCapacity d

/-! ## Journal (R362, R363) -/

/-- Key of a unit by class and virtual unit address. -/
def unitKey (cls vua : Nat) : Nat := cls * 2 ^ 48 + vua
/-- Key of a band. -/
def bandKey (cls num : Nat) : Nat := cls * 2 ^ 32 + num
/-- Key of a map entry. -/
def mapKey (ns lu : Nat) : Nat := ns * 2 ^ 32 + lu
/-- The value UNCORRECTABLE (R352). -/
def uncorrectable : Nat := 0xFFFFFFFE

/-- New entries put into a map from a unit on. -/
def putEntries (ns : Nat) (m : AMap Nat) : Nat → List (Option Nat) → AMap Nat
  | _, [] => m
  | lu, some v :: es => putEntries ns (mapSet m (mapKey ns lu) v) (lu + 1) es
  | lu, none :: es => putEntries ns (mapErase m (mapKey ns lu)) (lu + 1) es

/-- A copied unit takes its target only if the entry still holds the source address (R368 step 3). -/
def commitCopy (m : AMap Nat) (c : GcCopy) : AMap Nat :=
  if mapGet m (mapKey c.ns c.lu) = some c.src then mapSet m (mapKey c.ns c.lu) (c.dst.getD uncorrectable) else m

/-- What a journal record does to the store (R362). -/
def applyRec (s : Store) (r : JRec) : Store :=
  match r with
  | .map ns first es => { s with map := putEntries ns s.map first es }
  | .object k o ns runs =>
    { s with
      map := runs.foldl (fun m r => putEntries ns m r.1 r.2) s.map
      objs := match o with
        | some o => mapSet s.objs k o
        | none => mapErase s.objs k }
  | .kv ns vs runs => { s with map := runs.foldl (fun m r => putEntries ns m r.1 r.2) s.map, kv := mapSet s.kv ns vs }
  | .gcCommit _ cs => { s with map := cs.foldl commitCopy s.map }
  | .band k b => { s with bands := mapSet s.bands k b }
  | .retire _ _ _ => s
  | .checkpoint _ _ => s

/-- True for the record that acts only from its commit (R368 step 3). -/
def actsAtCommit (r : JRec) : Bool :=
  match r with
  | .gcCommit _ _ => true
  | _ => false

/-- A record queued; it changes the store in DRAM at once, a GC_COMMIT only when it is committed (R362, R363). -/
def journal (r : JRec) (d : Dev) : Dev :=
  modifyMedia (fun m =>
    { m with
      seq := m.seq + 1
      journal := m.journal ++ [(m.seq + 1, r)]
      journalSince := if m.journal.isEmpty then d.tm else m.journalSince
      store := if actsAtCommit r then m.store else applyRec m.store r }) d

/-- Units set to UNCORRECTABLE, counted and logged (R374, R526 class 0x06). -/
def countLost (k : Nat) (d : Dev) : Dev := iter k (fun d => bump 0x383002 (logError 0x06 2 2 0 [] d)) d

/-- The oldest `n` records committed on both dies (R363). -/
def commitJournal (n : Nat) (d : Dev) : Dev :=
  let rs := d.media.journal.take n
  match rs.getLast? with
  | none => d
  | some (seq, _) =>
    let d1 := modifyMedia (fun m =>
      { m with
        journal := m.journal.drop n
        journalSince := d.tm
        durable := rs.foldl (fun s r => applyRec s r.2) m.durable
        store := rs.foldl (fun s r => if actsAtCommit r.2 then applyRec s r.2 else s) m.store
        jobs := m.jobs.map fun j =>
          if j.step = .commit && rs.any (fun r => match r.2 with
            | .gcCommit b _ => b = j.source
            | _ => false) then { j with step := .drain } else j }) d
    countLost ((rs.map fun r => match r.2 with
      | .gcCommit _ cs => (cs.filter fun c => c.dst.isNone && mapGet d.media.store.map (mapKey c.ns c.lu) = some c.src).length
      | _ => 0).sum) (setNum 0x385001 seq d1)

/-- Every queued record committed (R62, R363). -/
def commitAll (d : Dev) : Dev := commitJournal d.media.journal.length d

/-! ## Bands and wear (R350, R353, R367 to R371) -/

/-- Key of a physical band's wear. -/
def wearKey (row block : Nat) : Nat := row * 65536 + block
/-- Wear of a physical band. -/
def blockWear (d : Dev) (row block : Nat) : BlockWear := mapGetD d.media.wear (wearKey row block) {}
/-- Wear changed. -/
def modifyWear (row block : Nat) (f : BlockWear → BlockWear) (d : Dev) : Dev :=
  modifyMedia (fun m => { m with wear := mapSet m.wear (wearKey row block) (f (blockWear d row block)) }) d

/-- True when a physical band carries a band of some class. -/
def bandTaken (d : Dev) (row block : Nat) : Bool :=
  d.media.store.bands.any fun kb => kb.2.row = row && kb.2.block = block && kb.2.state ≠ .free

/-- LUN number of a channel in a row. -/
def lunKey (ch row : Nat) : Nat := ch * 32 + row

/-- True when every block of a physical band is retired, with the LUN, the plane or by itself (R374). -/
def bandDead (d : Dev) (row block : Nat) : Bool :=
  (List.range 16).all fun ch => (List.range d.media.geo.planes).all fun p =>
    d.media.lunsRetired.contains (lunKey ch row) || d.media.planesRetired.contains (lunKey ch row * 4 + p) ||
      (blockWear d row block).retired.contains (ch * 4 + p)

/-- Physical bands that carry nothing, in order. -/
def freeBandList (d : Dev) : List (Nat × Nat) :=
  ((List.range (rowCount d)).map fun r => (List.range d.media.geo.blocks).filterMap fun b =>
    if bandTaken d r b || bandDead d r b then none else some (r, b)).flatten

/-- Bands of a class that are not free. -/
def classBands (d : Dev) (cls : Nat) : List Band := (d.media.store.bands.filter fun kb => kb.2.cls = cls && kb.2.state ≠ .free).map Prod.snd

/-- Free bands of a class, within its reach (R367). -/
def freeBands (d : Dev) (cls : Nat) : Nat := min (freeBandList d).length (reachBands d cls - (classBands d cls).length)

/-- Bands that carry Backwater data. -/
def backwaterBands (d : Dev) : List Band := (d.media.store.bands.filter fun kb => kb.2.backwater && kb.2.state ≠ .free).map Prod.snd

/-- Bands that Backwater's share gives (R361). -/
def backwaterCount (d : Dev) : Nat := rowCount d * d.media.geo.blocks * objNum d 0x381001 / 100

/-- Backwater used, percent (0x3810.04). -/
def backwaterUsed (d : Dev) : Nat := (backwaterBands d).length * 100 / max 1 (backwaterCount d)

/-- Of two physical bands, the one a stream takes: fewest erases for host writes, most for copies (R371). -/
def betterBand (d : Dev) (copies : Bool) (a b : Nat × Nat) : Nat × Nat :=
  let ea := (blockWear d a.1 a.2).erases
  let eb := (blockWear d b.1 b.2).erases
  if copies then (if ea < eb then b else a) else (if eb < ea then b else a)

/-- A physical band for a stream, in another row than the ones given when there is one (R350, R371). -/
def chooseBand (d : Dev) (copies : Bool) (avoid : List Nat) : Option (Nat × Nat) :=
  let l := freeBandList d
  let l' := l.filter fun rb => !avoid.contains rb.1
  match (if l'.isEmpty then l else l') with
  | [] => none
  | x :: xs => some (xs.foldl (betterBand d copies) x)

/-- Open bands of a stream, in order of their numbers. -/
def openBands (d : Dev) (cls : Nat) (bw copies : Bool) : List (Nat × Band) :=
  d.media.store.bands.filter fun kb =>
    kb.2.cls = cls && kb.2.backwater = bw && kb.2.copies = copies && kb.2.state = .open && decide (kb.2.next < bandSize d kb.2)

/-- The lowest band number of a class that can be issued (R353). -/
def freeNumber (d : Dev) (cls : Nat) : Option Nat :=
  findBelow (fun v => match mapGet d.media.store.bands (bandKey cls v) with
    | none => true
    | some b => b.state = .free) (reachBands d cls)

/-- A band opened for a stream; nothing where no physical band or number is free. -/
def openBand (cls : Nat) (bw copies : Bool) (d : Dev) : Dev :=
  match freeNumber d cls, chooseBand d copies ((openBands d cls bw copies).map fun kb => kb.2.row) with
  | some v, some (r, b) =>
    journal (.band (bandKey cls v) { cls := cls, num := v, row := r, block := b, backwater := bw, copies := copies }) d
  | _, _ => d

/-- The two open bands of a stream opened as needed (R350). -/
def ensureOpen (cls : Nat) (bw copies : Bool) (d : Dev) : Dev :=
  iter (2 - (openBands d cls bw copies).length) (openBand cls bw copies) d

/-- The band that takes a stream's next unit: sixteen units to one, then sixteen to the other (R350). -/
def nextBand (d : Dev) (cls : Nat) (bw copies : Bool) : Option (Nat × Band) :=
  match openBands d cls bw copies with
  | [] => none
  | [a] => some a
  | a :: b :: _ => if a.2.next / 16 ≤ b.2.next / 16 then some a else some b

/-- True when host writes of a class go to Backwater: its share has a free band or an open one (R361). -/
def intoBackwater (d : Dev) (cls : Nat) : Bool :=
  !(openBands d cls true false).isEmpty || (decide ((backwaterBands d).length < backwaterCount d) && !(freeBandList d).isEmpty)

/-- A virtual unit address taken from a stream; a band that fills is closed (R353, R362). -/
def takeAddress (cls : Nat) (bw copies : Bool) (d : Dev) : Option Nat × Dev :=
  let d1 := ensureOpen cls bw copies d
  match nextBand d1 cls bw copies with
  | none => (none, d1)
  | some (k, b) =>
    let b' := { b with next := b.next + 1 }
    let d2 := modifyMedia (fun m => { m with store := { m.store with bands := mapSet m.store.bands k b' } }) d1
    let d3 := if b'.next < bandSize d2 b' then d2 else journal (.band k { b' with state := .closed, closedAt := d2.media.seq + 1 }) d2
    (some (b.num * bandUnits d cls + b.next), d3)

/-- Band key of a virtual unit address. -/
def bandOfVua (d : Dev) (cls vua : Nat) : Nat := bandKey cls (vua / max 1 (bandUnits d cls))
/-- Channel of a virtual unit address (R350). -/
def channelOf (d : Dev) (cls vua : Nat) : Nat := vua % max 1 (bandUnits d cls) % 16
/-- Plane of a virtual unit address. -/
def planeOf (d : Dev) (cls vua : Nat) : Nat := vua % max 1 (bandUnits d cls) / 16 % max 1 d.media.geo.planes

/-! ## Writing units (R351, R359) -/

/-- Bytes of the write buffer (R359). -/
def bufferSize (v : Variant) : Nat := byVariant v (12 * 2 ^ 20) (4 * 2 ^ 20) (4 * 2 ^ 20)

/-- Bytes of data that wait in the write buffer. -/
def buffered (d : Dev) : Nat := d.media.buffer.foldl (fun a k => a + unitBytes (k / 2 ^ 48)) 0

/-- True when `n` units of a class can be accepted: room in the write buffer, and no urgent shortage of bands (R359, R367). -/
def canWrite (d : Dev) (cls n : Nat) : Bool :=
  decide (buffered d + n * unitBytes cls ≤ bufferSize d.variant) && (decide (objNum d 0x382002 ≤ freeBands d cls) || intoBackwater d cls)

/-- One unit put into the write buffer at an address of its class's stream (R359, R361). -/
def placeUnit (ns cls lu : Nat) (data : Bytes) (copies : Bool) (d : Dev) : Option Nat × Dev :=
  let bw := !copies && intoBackwater d cls
  match takeAddress cls bw copies d with
  | (none, d1) => (none, d1)
  | (some v, d1) =>
    let u : FlashUnit := { ns := ns, lu := lu, seq := d1.media.seq, data := data }
    (some v, modifyMedia (fun m =>
      { m with units := mapSet m.units (unitKey cls v) u, buffer := if copies then m.buffer else m.buffer ++ [unitKey cls v] }) d1)

/-- Units put into the write buffer in order, with their addresses. -/
def placeUnits (ns cls : Nat) : Nat → List Bytes → Dev → List (Option Nat) × Dev
  | _, [], d => ([], d)
  | lu, x :: xs, d =>
    let (v, d1) := placeUnit ns cls lu x false d
    let (vs, d2) := placeUnits ns cls (lu + 1) xs d1
    (v :: vs, d2)

/-- Units written and their MAP record queued: the write is accepted (R359). -/
def writeUnits (ns cls lu : Nat) (data : List Bytes) (d : Dev) : Dev :=
  let (vs, d1) := placeUnits ns cls lu data (modifyMedia (fun m => { m with hostWriteAt := d.tm }) d)
  journal (.map ns lu vs) d1

/-- Units set to UNMAPPED in one record (R376). -/
def unmapUnits (ns lu n : Nat) (d : Dev) : Dev := journal (.map ns lu (List.replicate n none)) d

/-! ## Reading units (R352, R355, R373) -/

/-- True while the map chunk of a unit is being rebuilt (R364, R366). -/
def chunkRebuilding (d : Dev) (ns lu : Nat) : Bool := d.media.rebuilding.contains (mapKey ns (lu / 16384))

/-- Map entry of a unit. -/
def entryOf (d : Dev) (ns lu : Nat) : Option Nat := mapGet d.media.store.map (mapKey ns lu)

/-- At-rest data of a unit at an address; an erased address reads zeros. -/
def unitData (d : Dev) (cls vua : Nat) : Bytes :=
  match mapGet d.media.units (unitKey cls vua) with
  | some u => padTo (unitBytes cls) u.data
  | none => List.replicate (unitBytes cls) 0

/-- A band scheduled for refresh (R372). -/
def scheduleRefresh (k : Nat) (d : Dev) : Dev :=
  modifyMedia (fun m => if m.refreshDue.contains k || m.jobs.any (·.source = k) then m else { m with refreshDue := m.refreshDue ++ [k] }) d

/-- One more read of the block that holds an address, whose LUN has answered; at the limit its band is refreshed (R372, R374). -/
def countRead (cls vua : Nat) (d : Dev) : Dev :=
  let k := bandOfVua d cls vua
  match mapGet d.media.store.bands k with
  | none => d
  | some b =>
    let d1 := modifyMedia (fun m => { m with silent := mapErase m.silent (lunKey (channelOf d cls vua) b.row) })
      (modifyWear b.row b.block (fun w => { w with reads := w.reads + 1 }) d)
    if (blockWear d1 b.row b.block).reads = objNum d 0x382004 then
      scheduleRefresh k (gaugeCount (0x10E + 16 * channelOf d cls vua) d1) else d1

/-- A decode counted; a deep retry or a soft decision schedules a refresh (R372, R373). -/
def countDecode (cls vua : Nat) (dec : Decode) (d : Dev) : Dev :=
  let ch := channelOf d cls vua
  let n := 4 ^ cls
  let d1 := addNum 0x384001 n (gaugeAdd (0x100 + 16 * ch) n d)
  match dec with
  | .hard => d1
  | .retry l =>
    let d2 := bump 0x384002 (gaugeCount (0x101 + 16 * ch) d1)
    if 6 ≤ l then scheduleRefresh (bandOfVua d cls vua) (gaugeCount (0x10F + 16 * ch) d2) else d2
  | .soft _ =>
    scheduleRefresh (bandOfVua d cls vua) (gaugeCount (0x10F + 16 * ch) (bump 0x384003 (bump 0x384002
      (gaugeCount (0x102 + 16 * ch) (gaugeCount (0x101 + 16 * ch) d1)))))
  | .fail => bump 0x384004 (gaugeCount (0x103 + 16 * ch) d1)

/-- A flash read of an address with its outcome: counted, and a unit that failed every step is known for reclamation (R369, R373). -/
def flashRead (cls vua : Nat) (dec : Decode) (d : Dev) : Dev :=
  let d1 := countDecode cls vua dec (countRead cls vua d)
  if dec = .fail then modifyMedia (fun m => { m with bad := insNat (unitKey cls vua) m.bad }) d1 else d1

/-- Pins raised on the bands of map entries (R358). -/
def pinBands (ks : List Nat) (d : Dev) : Dev :=
  ks.foldl (fun d k => modifyMedia (fun m =>
    { m with store := { m.store with bands := mapUpdate m.store.bands k fun b => { b with pins := b.pins + 1 } } }) d) d

/-- Pins lowered; a drained reclamation whose source is free of pins goes on to its erase (R358, R368). -/
def unpinBands (ks : List Nat) (d : Dev) : Dev :=
  let d1 := ks.foldl (fun d k => modifyMedia (fun m =>
    { m with store := { m.store with bands := mapUpdate m.store.bands k fun b => { b with pins := b.pins - 1 } } }) d) d
  modifyMedia (fun m =>
    { m with jobs := m.jobs.map fun j =>
        if j.step = .drain && (match mapGet m.store.bands j.source with
          | some b => b.pins = 0
          | none => true) then { j with step := .erase } else j }) d1

/-- Jobs whose commit has passed and whose source holds no pin go on to the erase (R368 step 4). -/
def drainJobs (d : Dev) : Dev := unpinBands [] d

/-- Bands that map entries name. -/
def entryBands (d : Dev) (cls : Nat) (es : List (Option Nat)) : List Nat :=
  (es.filterMap fun e => match e with
    | some v => if v < 0xFFFFFFF0 then some (bandOfVua d cls v) else none
    | none => none).eraseDups

/-! ## Namespace of an internal index -/

/-- The namespace with an internal index. -/
def nsByIdx (d : Dev) (idx : Nat) : Option (Nat × Namespace) := d.media.nss.find? fun kn => kn.2.idx = idx
/-- The cache namespace with a tag. -/
def nsByTag (d : Dev) (tag : Nat) : Option (Nat × Namespace) := d.media.nss.find? fun kn => kn.2.kind = 2 && kn.2.tag = tag

/-! ## Object records (R356, R357) -/

/-- The record in use for an object key. -/
def objByKey (d : Dev) (key : Nat) : Option (Nat × ObjRec) := d.media.store.objs.find? fun ko => ko.2.key = key

/-- Namespace tag of a key. -/
def keyTag (key : Nat) : Nat := bits key 95 80
/-- Title of a key. -/
def keyTitle (key : Nat) : Nat := bits key 31 0
/-- Object kind of a key. -/
def keyKind (key : Nat) : Nat := bits key 67 64
/-- Profile class of a key. -/
def keyClass (key : Nat) : Nat := bits key 71 68
/-- Fragment index of a key. -/
def keyFragment (key : Nat) : Nat := bits key 63 40
/-- Track number of a key. -/
def keyTrack (key : Nat) : Nat := bits key 39 32
/-- A key with its namespace tag replaced (R14). -/
def withTag (key tag : Nat) : Nat := bits key 79 0 + tag * 2 ^ 80 + bits key 127 96 * 2 ^ 96
/-- A key with its profile class replaced (R22). -/
def withClass (key cls : Nat) : Nat := key - keyClass key * 2 ^ 68 + cls * 2 ^ 68

/-- Object records of a namespace, by tag. -/
def nsObjs (d : Dev) (tag : Nat) : AMap ObjRec := d.media.store.objs.filter fun ko => keyTag ko.2.key = tag

/-- Units that the objects or values of a namespace own. -/
def usedUnits (d : Dev) (n : Namespace) : Nat :=
  if n.kind = 2 then (nsObjs d n.tag).foldl (fun a ko => a + ko.2.units) 0
  else (mapGetD d.media.store.kv n.idx []).foldl (fun a e => a + ceilDiv e.len (unitBytes n.iu)) 0

/-- NUSE of a cache namespace in bytes. -/
def usedBytes (d : Dev) (n : Namespace) : Nat := usedUnits d n * unitBytes n.iu

/-- True when unit `u` of a cache namespace belongs to some run. -/
def unitOwned (d : Dev) (n : Namespace) (u : Nat) : Bool :=
  if n.kind = 2 then (nsObjs d n.tag).any fun ko => decide (ko.2.base ≤ u ∧ u < ko.2.base + ko.2.units)
  else (mapGetD d.media.store.kv n.idx []).any fun e => decide (e.base ≤ u ∧ u < e.base + ceilDiv e.len (unitBytes n.iu))

/-- The lowest free run of `k` units below `bound` (R357). -/
def freeRun (d : Dev) (n : Namespace) (k bound : Nat) : Option Nat :=
  findBelow (fun u => decide (u + k ≤ bound) && (List.range k).all fun i => !unitOwned d n (u + i)) bound

/-- An object's run moved to a new base, with its map entries and a record (R357). -/
def moveRun (n : Namespace) (rec to_ : Nat) (d : Dev) : Dev :=
  match mapGet d.media.store.objs rec with
  | none => d
  | some o =>
    if o.base = to_ then d
    else
      let es := (List.range o.units).map fun i => entryOf d n.idx (o.base + i)
      journal (.object rec (some { o with base := to_, lastSeq := d.media.seq + 1 }) n.idx
        [(o.base, List.replicate o.units none), (to_, es)]) d

/-- Every run of a cache namespace moved down, in order of its base, so that the free entries join (R357). -/
def compactRuns (n : Namespace) (d : Dev) : Dev :=
  let objs := nsObjs d n.tag
  let sorted := objs.mergeSort fun a b => decide (a.2.base ≤ b.2.base)
  (sorted.foldl (fun (acc : Nat × Dev) ko => (acc.1 + ko.2.units, moveRun n ko.1 acc.1 acc.2)) (0, d)).2

/-- A free run of `k` units, after joining the free entries where needed; the model joins at once (R357). -/
def allocRun (n : Namespace) (k : Nat) (d : Dev) : Option Nat × Dev :=
  match freeRun d n k (nsUnits n) with
  | some b => (some b, d)
  | none =>
    if n.kind = 2 then
      let d1 := compactRuns n d
      (freeRun d1 n k (nsUnits n), d1)
    else (none, d)

/-- The lowest object record number that is not in use, of 65,536 (R356). -/
def freeRec (d : Dev) : Option Nat := findBelow (fun k => (mapGet d.media.store.objs k).isNone) 65536

/-! ## Reclamation (R361, R367 to R369, R371, R372) -/

/-- True when a unit belongs to a withdrawn object, which nothing reads any more (R29, R369). -/
def unitWithdrawn (d : Dev) (n : Namespace) (lu : Nat) : Bool :=
  n.kind = 2 && (nsObjs d n.tag).any fun ko => ko.2.withdrawn && decide (ko.2.base ≤ lu ∧ lu < ko.2.base + ko.2.units)

/-- Valid units of a band: map entries that point into it, as (namespace index, unit, address); a withdrawn object has none. -/
def validUnits (d : Dev) (k : Nat) (b : Band) : List (Nat × Nat × Nat) :=
  d.media.store.map.filterMap fun e =>
    match nsByIdx d (e.1 / 2 ^ 32) with
    | some (_, n) => if n.iu = b.cls ∧ e.2 < 0xFFFFFFF0 ∧ bandOfVua d b.cls e.2 = k ∧ !unitWithdrawn d n (e.1 % 2 ^ 32) then some (e.1 / 2 ^ 32, e.1 % 2 ^ 32, e.2) else none
    | none => none

/-- One valid unit copied to the class's open bands, its ciphertext unchanged; one that cannot be read is to become UNCORRECTABLE (R368 step 1,
R369). -/
def copyUnit (cls : Nat) (u : Nat × Nat × Nat) (acc : List GcCopy × Dev) : List GcCopy × Dev :=
  let (ns, lu, v) := u
  if acc.2.media.bad.contains (unitKey cls v) then (acc.1 ++ [{ ns := ns, lu := lu, src := v, dst := none }], acc.2)
  else match placeUnit ns cls lu (unitData acc.2 cls v) true acc.2 with
  | (some t, d) => (acc.1 ++ [{ ns := ns, lu := lu, src := v, dst := some t }], d)
  | (none, d) => (acc.1, d)

/-- True when every copy of a reclamation has been programmed and verified. -/
def copiesDone (d : Dev) (j : GcJob) : Bool :=
  j.made.all fun c => match c.dst with
    | none => true
    | some v => match mapGet d.media.units (unitKey j.cls v) with
      | some u => u.programmed
      | none => false

/-- The GC_COMMIT of a reclamation queued once all its copies stand (R368 step 3). -/
def queueCommit (k : Nat) (d : Dev) : Dev :=
  match d.media.jobs.find? fun j => j.source = k && j.step = .copy with
  | none => d
  | some j =>
    if copiesDone d j then
      journal (.gcCommit k j.made)
        (modifyMedia (fun m => { m with jobs := m.jobs.map fun x => if x.source = k then { x with step := .commit } else x }) d)
    else d

/-- True when a unit of a band still waits in the write buffer. -/
def bandBuffered (d : Dev) (k : Nat) (b : Band) : Bool :=
  d.media.buffer.any fun u => decide (u / 2 ^ 48 = b.cls) && decide (bandOfVua d b.cls (u % 2 ^ 48) = k)

/-- True for a band whose reclamation may start: closed, with no unit still being written (R367). -/
def startable (d : Dev) (k : Nat) : Bool :=
  match mapGet d.media.store.bands k with
  | some b => b.state = .closed && !bandBuffered d k b
  | none => false

/-- Reclamation of a band started: BAND record, copies of its valid units (R368). -/
def startJob (k cause : Nat) (d : Dev) : Dev :=
  match mapGet d.media.store.bands k with
  | none => d
  | some b =>
    if !startable d k then d
    else
      let d1 := journal (.band k { b with state := .source }) d
      let (cs, d2) := (validUnits d1 k b).foldl (fun acc u => copyUnit b.cls u acc) ([], d1)
      let d3 := modifyMedia (fun m =>
        { m with jobs := m.jobs ++ [{ source := k, cls := b.cls, cause := cause, made := cs }], refreshDue := m.refreshDue.filter (· ≠ k) }) d2
      let d4 := addNum 0x382006 (cs.filter (·.dst.isSome)).length (if cause = 2 then bump 0x382009 d3 else d3)
      queueCommit k ((cs.filter (·.dst.isSome)).foldl (fun d c =>
        gaugeCount ((if cause = 1 then 0x10C else 0x10B) + 16 * channelOf d b.cls c.src) d) d4)

/-- The victim among closed bands: fewest valid units, then closed first (R367). -/
def pickVictim (d : Dev) (p : Band → Bool) : Option Nat :=
  let l := (d.media.store.bands.filter fun kb => kb.2.state = .closed && p kb.2 && !bandBuffered d kb.1 kb.2).map
    fun kb => ((validUnits d kb.1 kb.2).length, kb.2.closedAt, kb.1)
  match l with
  | [] => none
  | x :: xs => some (xs.foldl (fun a b => if b.1 < a.1 ∨ (b.1 = a.1 ∧ b.2.1 < a.2.1) then b else a) x).2.2

/-- The oldest closed Backwater band (R361). -/
def oldestBackwater (d : Dev) : Option Nat :=
  let l := (d.media.store.bands.filter fun kb => kb.2.state = .closed && kb.2.backwater && !bandBuffered d kb.1 kb.2).map
    fun kb => (kb.2.closedAt, kb.1)
  match l with
  | [] => none
  | x :: xs => some (xs.foldl (fun a b => if b.1 < a.1 then b else a) x).2

/-- Folding: started above the fold start level, it takes the oldest Backwater band until the stop level (R361). -/
def foldStep (d : Dev) : Dev :=
  let used := backwaterUsed d
  let on := (d.media.folding || decide (objNum d 0x381002 < used)) && decide (objNum d 0x381003 < used)
  let d1 := modifyMedia (fun m => { m with folding := on }) d
  if on && !d1.media.jobs.any (·.cause = 1) then
    match oldestBackwater d1 with
    | some k => startJob k 1 d1
    | none => d1
  else d1

/-- Erase counts of a class's bands: the lowest with its closed band, and the highest (R371). -/
def eraseSpread (d : Dev) (cls : Nat) : Option (Nat × Nat × Nat) :=
  let l := (d.media.store.bands.filter fun kb => kb.2.cls = cls && kb.2.state = .closed && !kb.2.backwater).map
    fun kb => ((blockWear d kb.2.row kb.2.block).erases, kb.1)
  match l with
  | [] => none
  | x :: xs =>
    let lo := xs.foldl (fun a b => if b.1 < a.1 then b else a) x
    some (lo.1, lo.2, xs.foldl (fun a b => max a b.1) x.1)

/-- What reclamation a class needs next: refresh first, then space, then static levelling (R367, R371, R372). -/
def reclaimClass (cls : Nat) (d : Dev) : Dev :=
  if d.media.jobs.any (fun j => j.cls = cls && j.cause ≠ 1) then d
  else match d.media.refreshDue.find? (fun k => decide (k / 2 ^ 32 = cls) && startable d k) with
    | some k => startJob k 2 d
    | none =>
      if 0 < d.media.geo.blocks ∧ freeBands d cls < objNum d 0x382001 then
        match pickVictim d (fun b => b.cls = cls && !b.backwater) with
        | some k => startJob k 0 d
        | none => d
      else match eraseSpread d cls with
        | some (lo, k, hi) => if objNum d 0x382003 < hi - lo then startJob k 0 d else d
        | none => d

/-- Background work after a step: folding and every class's reclamation; it pauses while Slumber is entered (R361, R367, R434). -/
def background (d : Dev) : Dev :=
  if d.power.phase = .ready && d.power.state < 2 && !d.power.slumberEntry && d.media.ready then
    reclaimClass 2 (reclaimClass 1 (reclaimClass 0 (foldStep d)))
  else d

/-! ## Losing capacity (R375) -/

/-- Critical Warning bits added, with their standard event to every controller (R366, R375, R533). -/
def setCritical (bits_ : Nat) (d : Dev) : Dev :=
  let new := bits_ &&& ((2 ^ 8 - 1) ^^^ d.media.critical)
  if new = 0 then d
  else
    let d1 := modifyMedia (fun m => { m with critical := m.critical ||| bits_ }) d
    d1.host.ctrls.foldl (fun d kc => if kc.2.enabled then deliverNotice kc.1 { type := 1, info := 0, lid := 2 } d else d) d1

/-- A cache namespace's NCAP lowered, with its event and the Changed Namespace List (R375). -/
def lowerNcap (nsid ncap : Nat) (d : Dev) : Dev :=
  match mapGet d.media.nss nsid with
  | none => d
  | some n =>
    let d1 := modifyMedia (fun m => { m with nss := mapSet m.nss nsid { n with ncap := ncap } }) d
    n.attached.foldl (fun d id =>
      deliverNotice id { type := 2, info := 0, lid := 4 }
        (modifyCtrl id (fun c => { c with changedNs := if c.changedNs.contains nsid then c.changedNs else c.changedNs ++ [nsid] }) d)) d1

/-- Bytes that namespaces may hold now: cache namespaces by NCAP, the others by size. -/
def promisedBytes (d : Dev) : Nat :=
  d.media.nss.foldl (fun a kn => a + (if kn.2.kind = 2 then kn.2.ncap * 4096 else nsBytes kn.2)) 0

/-- Spare over the promised bytes, in units of 0.1 percent. -/
def sparePermille (d : Dev) : Nat :=
  let phys := rawInService d - backwaterBytes d (objNum d 0x381001) - d.media.metaBytes
  (phys - promisedBytes d) * 1000 / max 1 (promisedBytes d)

/-- Lost capacity absorbed: cache namespaces shrink in proportion, then the warnings and the read-only state (R375). -/
def absorbLoss (d : Dev) : Dev :=
  let short := promisedBytes d - usableCapacity d
  if short = 0 then d
  else
    let caches := d.media.nss.filter fun kn => kn.2.kind = 2 && decide (0 < kn.2.ncap)
    let total := caches.foldl (fun a kn => a + kn.2.ncap * 4096) 0
    let d1 := caches.foldl (fun d kn =>
      lowerNcap kn.1 (kn.2.ncap - min kn.2.ncap (ceilDiv (short * (kn.2.ncap * 4096) / max 1 total) 4096)) d) d
    if short ≤ total then d1
    else if sparePermille d1 < 5 then setCritical 9 (modifyMedia (fun m => { m with state := 2 }) d1)
    else if sparePermille d1 < 20 then setCritical 1 d1
    else d1

end Sys2Proof.Machine
end

