-- ==== Sys2Proof/Machine/Keys.lean ====
section
/-! DEFINITION. Machine/Keys.lean: key slots, their generations and their limits (R109 to R115, R131, R197 to R212). -/
namespace Sys2Proof.Machine

/-- The key store changed. -/
def modifyKeys (f : KeyStore → KeyStore) (d : Dev) : Dev := { d with keys := f d.keys }

/-- A key slot by number. -/
def keySlot (d : Dev) (n : Nat) : KeySlot := mapGetD d.keys.slots n {}

/-- A key slot changed. -/
def modifySlot (n : Nat) (f : KeySlot → KeySlot) (d : Dev) : Dev :=
  modifyKeys (fun k => { k with slots := mapSet k.slots n (f (mapGetD k.slots n {})) }) d

/-! ## The limits of functions (R109 to R115) -/

/-- The resources that functions draw on. -/
inductive Pool where
  /-- Session contexts. -/
  | sessions
  /-- Key slots. -/
  | keySlots
  /-- Entries of partition 0. -/
  | entries
  deriving DecidableEq, Repr

/-- Subindex of a resource's limit in a VF's pool object (R112). -/
def Pool.sub : Pool → Nat
  | .sessions => 1
  | .keySlots => 2
  | .entries => 3

/-- Object of a VF's pool, as index * 256 (R112). -/
def poolObj (dvf : Nat) : Nat := (0x4100 + dvf - 1) * 256

/-- A VF's limit (R112). -/
def vfLimit (d : Dev) (c : Ctrl) (p : Pool) : Nat := objNum d (poolObj c.dvf + p.sub)

/-- Entries of partition 0 (R255). -/
def indexSize (d : Dev) : Nat := (layoutRange (layoutWord d 0)).2 - (layoutRange (layoutWord d 0)).1

/-- The device's total of a resource (R109). -/
def poolTotal (d : Dev) : Pool → Nat
  | .sessions => objNum d 0x100803
  | .keySlots => 8192
  | .entries => indexSize d

/-- VFs that are enabled and reserved. -/
def reservedVfs (d : Dev) : List (Nat × Ctrl) := d.host.ctrls.filter fun kc => kc.2.vf ≠ 0 && kc.2.poolState = 1

/-- The remainder of a resource: what enabled VFs do not hold (R110). -/
def poolRemainder (d : Dev) (p : Pool) : Nat := poolTotal d p - (reservedVfs d).foldl (fun a kc => a + vfLimit d kc.2 p) 0

/-- A controller's use of a resource (R112, R115). -/
def poolUse (d : Dev) (p : Pool) (id : Nat) : Nat :=
  match p with
  | .sessions => (d.sess.tab.filter fun ks => ks.2.isOpen && ks.2.ctrl = id).length
  | .keySlots => (d.keys.slots.filter fun ks => ks.2.allocated && ks.2.owner = id).length
  | .entries => (d.media.store.objs.filter fun ko => !ko.2.withdrawn && ko.2.charged = id).length

/-- What is charged to the PFs: everything that no VF of the map holds (R112). -/
def pfUse (d : Dev) (p : Pool) : Nat :=
  let vf (id : Nat) : Bool := match getCtrl d id with
    | some c => c.vf ≠ 0
    | none => decide (0x100 ≤ id)
  match p with
  | .sessions => (d.sess.tab.filter fun ks => ks.2.isOpen && !vf ks.2.ctrl).length
  | .keySlots => (d.keys.slots.filter fun ks => ks.2.allocated && !vf ks.2.owner).length
  | .entries => (d.media.store.objs.filter fun ko => !ko.2.withdrawn && !vf ko.2.charged).length

/-- True when a function may take one more of a resource within its limit (R110, R114). -/
def withinLimit (d : Dev) (p : Pool) (id : Nat) : Bool :=
  match getCtrl d id with
  | none => false
  | some c =>
    if c.vf = 0 then decide (pfUse d p < poolRemainder d p)
    else c.poolState = 1 && decide (poolUse d p id < vfLimit d c p)

/-! ## Which numbers are free (R131, R202) -/

/-- Open sessions that name a slot. -/
def sessionsNaming (d : Dev) (n : Nat) : Nat :=
  (d.sess.tab.filter fun ks => ks.2.isOpen && (ks.2.content = some n || ks.2.transport = some n)).length

/-- Title bindings that name a slot. -/
def bindingsNaming (d : Dev) (n : Nat) : Nat := (d.media.titles.filter fun kt => kt.2.slot = n).length

/-- Quarantined: free, and named by open sessions. -/
def quarantined (d : Dev) (n : Nat) : Bool := !(keySlot d n).allocated && decide (0 < sessionsNaming d n)

/-- Reserved: free, and named by title bindings. -/
def slotReserved (d : Dev) (n : Nat) : Bool := !(keySlot d n).allocated && decide (0 < bindingsNaming d n)

/-- True when ordinary allocation may take a number. -/
def slotFree (d : Dev) (n : Nat) : Bool := !(keySlot d n).allocated && !quarantined d n && !slotReserved d n

/-- State of a slot as the window reports it (R223). -/
def slotState (d : Dev) (n : Nat) : Nat :=
  let s := keySlot d n
  if s.allocated then (if s.current.isSome then 2 else 1) else if quarantined d n then 3 else if slotReserved d n then 4 else 0

/-! ## Generations (R208 to R210) -/

/-- The generation after one: modulo 65,536, skipping 0 (R208). -/
def nextGen (g : Nat) : Nat := if g + 1 < 65536 then g + 1 else 1

/-- Generation a is newer than generation b (R208). -/
def genNewer (a b : Nat) : Bool :=
  let diff := (a + 65536 - b) % 65536
  decide (1 ≤ diff ∧ diff ≤ 32767)

/-- The live generation of a slot with a number. -/
def slotGen (d : Dev) (n g : Nat) : Option KeyGen :=
  let s := keySlot d n
  match s.current with
  | some k => if k.gen = g then some k else s.retiring.filter (·.gen = g)
  | none => s.retiring.filter (·.gen = g)

/-- A live generation changed. -/
def modifyGen (n g : Nat) (f : KeyGen → KeyGen) (d : Dev) : Dev :=
  let on (k : KeyGen) : KeyGen := if k.gen = g then f k else k
  modifySlot n (fun s => { s with current := s.current.map on, retiring := s.retiring.map on }) d

/-- Key material installed as the next generation: the old one retires while requests use it, or goes at once (R210). -/
def installSlot (now : Nat) (new : KeyGen) (s : KeySlot) : KeySlot :=
  let g := nextGen s.lastGen
  { s with
    lastGen := g
    current := some { new with gen := g, inUse := 0, gcmNext := 0 }
    retiring := match s.current with
      | some k => if 0 < k.inUse then some k else s.retiring
      | none => s.retiring
    changedAt := now }

/-- This member's ID (0x1010.01). -/
def selfId (d : Dev) : Nat := objNum d 0x101001

/-- Members that have joined, this one excepted (R505). -/
def joinedOthers (d : Dev) : List Nat :=
  (d.cas.members.filter fun km => km.1 ≠ selfId d && (km.2.state = 2 || km.2.state = 3)).map Prod.fst

/-- Hops from member `a` to member `b` in rising order of the fitted members (R501). -/
def hopsUp (ids : List Nat) (a b : Nat) : Nat :=
  let above := ids.filter fun m => decide (a < m ∧ m ≤ b)
  if a ≤ b then above.length else (ids.filter fun m => decide (a < m ∨ m ≤ b)).length

/-- The port a message for a member leaves by: fewest hops, port 1 when equal, and only a port that is up (R504). -/
def routePort (d : Dev) (m : Nat) : Fin 2 :=
  let ids := selfId d :: joinedOthers d
  let up (p : Fin 2) : Bool := d.cas.ports[p].state = 2
  if up 1 && up 0 then (if hopsUp ids m (selfId d) < hopsUp ids (selfId d) m then 0 else 1) else if up 0 then 0 else 1

/-- A message sent towards a member, with the next sequence number of its port (R502, R504). -/
def sendFlit (kind m : Nat) (fields : List Nat) (d : Dev) : Dev :=
  let p := routePort d m
  let q := d.cas.ports[p]
  emit (.flit p.val kind m fields) { d with cas := { d.cas with ports := d.cas.ports.set p { q with txSeq := (q.txSeq + 1) % 4096 } } }

/-- The members to which a deepen master relays key commands (R515). -/
def relayTargets (d : Dev) : List Nat := if d.cas.state = 3 ∧ d.cas.mode = 2 then joinedOthers d else []

/-- A key slot command completed with an error, or answered to the master that relayed it (R200, R515). -/
def failKey (ctrl cid opc : Nat) (st : Status) (d : Dev) : Dev :=
  if ctrl = 0 then sendFlit 5 d.cas.master [cid, st.1, st.2, 0, 0] d
  else finish { ctrl := ctrl, sq := 0, cid := cid, st := st, cdw0 := opc } d

/-- A key slot command that succeeded here: completed, or relayed to every deepen member first (R204, R515). -/
def completeKey (ctrl cid opc dw0 dw1 : Nat) (relay : List Nat) (d : Dev) : Dev :=
  if ctrl = 0 then sendFlit 5 d.cas.master [cid, 0, 0, dw0, dw1] d
  else match relayTargets d with
    | [] => finish { ctrl := ctrl, sq := 0, cid := cid, dw0 := dw0, dw1 := dw1, cdw0 := opc } d
    | ts =>
      let t := d.cas.nextTag
      ts.foldl (fun d m => sendFlit 8 m (t :: opc :: relay) d)
        { d with cas := { d.cas with nextTag := t + 1, relays := mapSet d.cas.relays t { opc := opc, ctrl := ctrl, cid := cid, left := ts, dw0 := dw0, dw1 := dw1, since := d.tm } } }

/-- A KEK 1 load that succeeded here; it concerns this member alone and is not relayed (R515, R517). -/
def completeKek (ctrl cid opc kcv : Nat) (d : Dev) : Dev :=
  if ctrl = 0 then sendFlit 5 d.cas.master [cid, 0, 0, 0, kcv] d
  else finish { ctrl := ctrl, sq := 0, cid := cid, dw1 := kcv, cdw0 := opc } d

/-- An accepted load installed and completed (R204). -/
def installLoad (n : Nat) (h : HeldLoad) (d : Dev) : Dev :=
  let d1 := gaugeCount 0x044 (modifySlot n (installSlot d.tm h.new) d)
  completeKey h.ctrl h.cid 0xC4 (keySlot d1 n).lastGen h.new.kcv (n :: h.buf.map (·.toNat)) d1

/-- Held loads installed while no generation retires; the first argument bounds the run (R210, R212). -/
def drainHeld (n : Nat) : Nat → Dev → Dev
  | 0, d => d
  | k + 1, d =>
    let s := keySlot d n
    match s.held with
    | [] => d
    | h :: hs =>
      if s.retiring.isSome then d
      else drainHeld n k (installLoad n h (modifySlot n (fun s => { s with held := hs }) d))

/-- An unwrapped load: installed, or held behind a retiring generation or an earlier held load (R210, R212). -/
def acceptLoad (n : Nat) (h : HeldLoad) (d : Dev) : Dev :=
  let d1 := modifySlot n (fun s => { s with held := s.held ++ [h] }) d
  drainHeld n (keySlot d1 n).held.length d1

/-- A request begins to use a slot's current generation; its number (R209). -/
def bindGen (n : Nat) (d : Dev) : Option Nat × Dev :=
  match (keySlot d n).current with
  | none => (none, d)
  | some k => (some k.gen, modifyGen n k.gen (fun k => { k with inUse := k.inUse + 1 }) d)

/-- A request ends its use of a generation; a retiring one that nothing uses any more is zeroised (R209, R210). -/
def releaseGen (n g : Nat) (d : Dev) : Dev :=
  let d1 := modifyGen n g (fun k => { k with inUse := k.inUse - 1 }) d
  let d2 := modifySlot n (fun s => { s with retiring := s.retiring.filter fun k => decide (0 < k.inUse) }) d1
  drainHeld n (keySlot d2 n).held.length d2

/-- The next GCM counter of a generation drawn (R196). -/
def drawGcm (n g : Nat) (d : Dev) : Nat × Dev :=
  match slotGen d n g with
  | none => (0, d)
  | some k => (k.gcmNext, modifyGen n g (fun k => { k with gcmNext := (k.gcmNext + 1) % 2 ^ 64 }) d)

/-- Key type to slot type: storage, content, transport, or none for the key-encryption key (R197). -/
def slotTypeOf (keyType : Nat) : Option Nat :=
  if keyType = 1 then some 0 else if keyType = 2 then some 1 else if keyType = 3 ∨ keyType = 4 then some 2 else none

/-- Key bytes of a type (R197). -/
def keyBytes (keyType : Nat) : Nat :=
  if keyType = 1 then 64 else if keyType = 2 ∨ keyType = 3 then 16 else 32

/-- KCV of a key of a type: XTS uses Key1 (R197). -/
def kcvFor (keyType : Nat) (key : Bytes) : Nat := kcvOf (if keyType = 1 then key.take 32 else key)

/-! ## At-rest and namespace keys (R191, R192) -/

/-- Tweak of an object's data unit (R191). -/
def objTweak (key u : Nat) : Nat := u % 2 ^ 24 * 2 ^ 104 + keyTag key * 2 ^ 72 + bits key 71 0

/-- Tweak of a namespace's data unit (R192). -/
def nsTweak (idx u : Nat) : Nat := idx * 2 ^ 64 + u % 2 ^ 64

/-- Data units of 4 KiB of a byte string, the last possibly shorter. -/
def dataUnits (bs : Bytes) : List Bytes := (List.range (ceilDiv bs.length 4096)).map fun i => (bs.drop (4096 * i)).take 4096

/-- A namespace's bytes encrypted from data unit `u` on (R192). -/
def nsEncrypt (key : Bytes) (idx u : Nat) (bs : Bytes) : Bytes :=
  ((dataUnits bs).mapIdx fun i b => xtsEnc key (nsTweak idx (u + i)) b).flatten

/-- A namespace's bytes decrypted from data unit `u` on (R192). -/
def nsDecrypt (key : Bytes) (idx u : Nat) (bs : Bytes) : Bytes :=
  ((dataUnits bs).mapIdx fun i b => xtsDec key (nsTweak idx (u + i)) b).flatten

/-- A fresh namespace key from Springhead's random source; the record holds it wrapped under KEK 0, a form that no path shows (R192). -/
def freshNsKey (idx : Nat) (d : Dev) : Dev :=
  let (k, d1) := drawBytes 64 d
  modifyKeys (fun ks => { ks with nsKeys := mapSet ks.nsKeys idx k }) d1

/-- The unwrapped key of a namespace, while namespace keys are available (R192). -/
def nsKey (d : Dev) (idx : Nat) : Option Bytes :=
  if d.keys.nsKeysReady then mapGet d.keys.nsKeys idx else none

end Sys2Proof.Machine
end

