-- ==== Sys2Proof/Machine/Flags.lean ====
section
/-! DEFINITION. Machine/Flags.lean: FL of an FX32 core and every flag computation (R268, R302 to R312): the arithmetic, shift, multiply,
divide and packed-decimal results with the flags they write. -/
namespace Sys2Proof.Machine

/-! ## FL (R268) -/

/-- Bit of Z. -/
def flZ : Nat := 0
/-- Bit of N. -/
def flN : Nat := 1
/-- Bit of C. -/
def flC : Nat := 2
/-- Bit of V. -/
def flV : Nat := 3
/-- Bit of DZ. -/
def flDZ : Nat := 4
/-- Bit of DC. -/
def flDC : Nat := 5

/-- One bit of a word given a value. -/
def putBit (w : Word) (i : Nat) (b : Bool) : Word := if b then w ||| (1#32 <<< i) else w &&& ~~~(1#32 <<< i)

/-- One flag. -/
def flag (fl : Word) (i : Nat) : Bool := fl.getLsbD i

/-- FL with Z and N of a result (R302). -/
def setZN (r : Word) (fl : Word) : Word := putBit (putBit fl flZ (r == 0)) flN r.msb

/-- FL with Z, N, C and V. -/
def setZNCV (r : Word) (c v : Bool) (fl : Word) : Word := putBit (putBit (setZN r fl) flC c) flV v

/-- A result with the FL that goes with it. -/
abbrev AluOut := Word × Word

/-! ## Integer operations (R302, R304) -/

/-- ra + rb + carry: C is the carry out of bit 31, V the signed overflow. -/
def addOut (a b : Word) (cin : Bool) (fl : Word) : AluOut :=
  let k := if cin then 1 else 0
  let r := a + b + BitVec.ofNat 32 k
  let exact := a.toInt + b.toInt + k
  (r, setZNCV r (decide (2 ^ 32 ≤ a.toNat + b.toNat + k)) (decide (r.toInt ≠ exact)) fl)

/-- ra - rb - borrow: C is the borrow, V the signed overflow. -/
def subOut (a b : Word) (bin : Bool) (fl : Word) : AluOut :=
  let k := if bin then 1 else 0
  let r := a - b - BitVec.ofNat 32 k
  let exact := a.toInt - b.toInt - k
  (r, setZNCV r (decide (a.toNat < b.toNat + k)) (decide (r.toInt ≠ exact)) fl)

/-- A result that writes Z and N only. -/
def logicOut (r fl : Word) : AluOut := (r, setZN r fl)

/-- Leading zero bits, 0 to 32. -/
def clz32 (a : Word) : Nat :=
  if a = 0 then 32 else 31 - a.toNat.log2

/-- The four bytes reversed. -/
def bswap32 (a : Word) : Word :=
  (a.extractLsb' 0 8) ++ (a.extractLsb' 8 8) ++ (a.extractLsb' 16 8) ++ (a.extractLsb' 24 8)

/-! ## Shifts (R306) -/

/-- A shift result: Z and N of the value; C only when the count is not 0. -/
def shiftOut (r : Word) (n : Nat) (c : Bool) (fl : Word) : AluOut :=
  (r, if n = 0 then setZN r fl else putBit (setZN r fl) flC c)

/-- LSL by 0 to 63. -/
def lslOut (a : Word) (n : Nat) (fl : Word) : AluOut :=
  shiftOut (a <<< n) n (decide (n ≤ 32) && a.getLsbD (32 - n)) fl

/-- LSR by 0 to 63. -/
def lsrOut (a : Word) (n : Nat) (fl : Word) : AluOut :=
  shiftOut (a >>> n) n (decide (n ≤ 32) && a.getLsbD (n - 1)) fl

/-- ASR by 0 to 63. -/
def asrOut (a : Word) (n : Nat) (fl : Word) : AluOut :=
  shiftOut (a.sshiftRight n) n (if n ≤ 32 then a.getLsbD (n - 1) else a.msb) fl

/-- ROR by 0 to 31; C is bit 31 of the result when the count is not 0. -/
def rorOut (a : Word) (n : Nat) (fl : Word) : AluOut :=
  let r := a.rotateRight n
  shiftOut r n r.msb fl

/-! ## Multiply and divide (R307, R308) -/

/-- The signed product as PH and PL. -/
def mulSigned (a b : Word) : Word × Word :=
  let p := BitVec.ofInt 64 (a.toInt * b.toInt)
  (p.extractLsb' 32 32, p.extractLsb' 0 32)

/-- The unsigned product as PH and PL. -/
def mulUnsigned (a b : Word) : Word × Word :=
  let p := BitVec.ofNat 64 (a.toNat * b.toNat)
  (p.extractLsb' 32 32, p.extractLsb' 0 32)

/-- The signed quotient and remainder as QT and RM, corners included. -/
def divSigned (a b : Word) : Word × Word :=
  if b = 0 then (if a.msb then 0x80000000 else 0x7FFFFFFF, a)
  else (BitVec.ofInt 32 (a.toInt.tdiv b.toInt), BitVec.ofInt 32 (a.toInt.tmod b.toInt))

/-- The unsigned quotient and remainder as QT and RM. -/
def divUnsigned (a b : Word) : Word × Word :=
  if b = 0 then (0xFFFFFFFF, a) else (a / b, a % b)

/-- FL of DIV at issue: V for the most negative by -1 and clear otherwise; DZ set by a zero divisor (R297). -/
def divFlags (a b fl : Word) : Word :=
  let fl1 := putBit fl flV (a == 0x80000000 && b == 0xFFFFFFFF)
  if b = 0 then putBit fl1 flDZ true else fl1

/-- FL of DIVU at issue: DZ only. -/
def divuFlags (b fl : Word) : Word := if b = 0 then putBit fl flDZ true else fl

/-! ## Packed decimal (R310 to R312) -/

/-- Digit i of a decimal word. -/
def nibble (a : Word) (i : Nat) : Nat := (a.toNat / 16 ^ i) % 16

/-- True when some nibble is a non-BCD digit. -/
def hasNonBcd (a : Word) : Bool := (List.range 8).any fun i => decide (9 < nibble a i)

/-- Digit i with a non-BCD digit read as 9. -/
def digit9 (a : Word) (i : Nat) : Nat := min 9 (nibble a i)

/-- The decimal value of a word, non-BCD digits read as 9. -/
def bcdValue (a : Word) : Nat := (List.range 8).foldl (fun acc i => acc + digit9 a i * 10 ^ i) 0

/-- Eight BCD digits of a number below 10^8. -/
def bcdWord (n : Nat) : Word :=
  BitVec.ofNat 32 ((List.range 8).foldl (fun acc i => acc + (n / 10 ^ i % 10) * 16 ^ i) 0)

/-- A decimal result: Z, V and DC. -/
def decOut (r : Word) (v dc : Bool) (fl : Word) : AluOut :=
  (r, putBit (putBit (putBit fl flZ (r == 0)) flV v) flDC dc)

/-- DADD and DADC. -/
def daddOut (a b : Word) (cin : Bool) (fl : Word) : AluOut :=
  let s := bcdValue a + bcdValue b + if cin then 1 else 0
  decOut (bcdWord (s % 10 ^ 8)) (hasNonBcd a || hasNonBcd b) (decide (10 ^ 8 ≤ s)) fl

/-- DSUB and DSBC: a difference below 0 becomes its ten's complement with DC. -/
def dsubOut (a b : Word) (bin : Bool) (fl : Word) : AluOut :=
  let x := bcdValue a
  let y := bcdValue b + if bin then 1 else 0
  decOut (bcdWord ((10 ^ 8 + x - y) % 10 ^ 8)) (hasNonBcd a || hasNonBcd b) (decide (x < y)) fl

/-- DADJ: nibbles normalised from digit 0 upwards. -/
def dadjOut (a : Word) (fl : Word) : AluOut :=
  let (r, c) := (List.range 8).foldl (fun (acc : Nat × Nat) i =>
    let v := nibble a i + acc.2
    if 10 ≤ v then (acc.1 + (v - 10) * 16 ^ i, 1) else (acc.1 + v * 16 ^ i, 0)) (0, 0)
  decOut (BitVec.ofNat 32 r) false (decide (c = 1)) fl

/-- DCVT: the BCD of ra mod 10^8. -/
def dcvtOut (a : Word) (fl : Word) : AluOut := decOut (bcdWord (a.toNat % 10 ^ 8)) false (decide (10 ^ 8 ≤ a.toNat)) fl

/-- The text byte of a digit. -/
def digitText (n : Nat) : Nat := if 9 < n then 0x3F else 0x30 + n

/-- DTXTL (low = 0) and DTXTH (low = 4): text of the digits low + 3 to low, most significant in byte 0; V for a non-BCD digit read. -/
def dtxtOut (a : Word) (low : Nat) (fl : Word) : AluOut :=
  let r := (List.range 4).foldl (fun acc i => acc + digitText (nibble a (low + 3 - i)) * 256 ^ i) 0
  (BitVec.ofNat 32 r, putBit fl flV ((List.range 4).any fun i => decide (9 < nibble a (low + i))))

/-- DLZ: leading zero digits, 0 to 8; V for a non-BCD digit. -/
def dlzOut (a : Word) (fl : Word) : AluOut :=
  let n := (((List.range 8).map fun i => nibble a (7 - i)).takeWhile (· = 0)).length
  (BitVec.ofNat 32 n, putBit fl flV (hasNonBcd a))

/-! ## Conditions (R303) -/

/-- The condition of Bcc. -/
def condHolds (cond : BitVec 4) (fl : Word) : Bool :=
  let z := flag fl flZ
  let n := flag fl flN
  let c := flag fl flC
  let v := flag fl flV
  match cond.toNat with
  | 0 => z
  | 1 => !z
  | 2 => n != v
  | 3 => n == v
  | 4 => z || n != v
  | 5 => !z && n == v
  | 6 => c
  | 7 => !c
  | 8 => c || z
  | 9 => !c && !z
  | 10 => n
  | 11 => !n
  | 12 => v
  | 13 => !v
  | 14 => flag fl flDC
  | _ => true

end Sys2Proof.Machine
end

