-- ==== Sys2Proof/Machine/Operands.lean ====
section
/-! DEFINITION. Machine/Operands.lean: the operand forms of FX32: registers, immediates, addressing modes (R299, R313), special-register
numbers (R267), the instruction words (R299 to R321) and the address map with its windows (R279 to R283). -/
namespace Sys2Proof.Machine

/-! ## Registers -/

/-- A general register read: g0 reads 0 (R266). -/
def rget (c : FxCore) (r : Reg) : Word := if r = 0 then 0 else c.g[r]

/-- A general register write: a write to g0 is discarded (R266). -/
def rset (r : Reg) (v : Word) (c : FxCore) : FxCore := if r = 0 then c else { c with g := c.g.set r v }

/-- The register after an even register (R315). -/
def oddOf (r : Reg) : Reg := ⟨(r.val + 1) % 32, by omega⟩

/-- lr (R266). -/
def lrReg : Reg := 30

/-! ## CTL (R269) -/

/-- IE. -/
def ctlIE : Nat := 0
/-- PIE. -/
def ctlPIE : Nat := 1
/-- UM. -/
def ctlUM : Nat := 2
/-- PUM. -/
def ctlPUM : Nat := 3
/-- EXL. -/
def ctlEXL : Nat := 4
/-- DZT. -/
def ctlDZT : Nat := 5
/-- RPEND. -/
def ctlRPEND : Nat := 6

/-- One bit of CTL. -/
def ctl (c : FxCore) (i : Nat) : Bool := c.ctl.getLsbD i

/-- True in user mode. -/
def userMode (c : FxCore) : Bool := ctl c ctlUM

/-! ## Instruction words (R299) -/

/-- A word from (field, position) pairs. -/
def wordOf (fs : List (Nat × Nat)) : Word := BitVec.ofNat 32 (fs.foldl (fun a f => a + f.1 * 2 ^ f.2) 0)

/-- Format R. -/
def encR (op rd ra rb sh func : Nat) : Word := wordOf [(op, 26), (rd, 21), (ra, 16), (rb, 11), (sh, 6), (func, 0)]
/-- Format I. -/
def encI (op rd ra : Nat) (imm : BitVec 16) : Word := wordOf [(op, 26), (rd, 21), (ra, 16), (imm.toNat, 0)]
/-- Format M. -/
def encM (op rd ra : Nat) (mode : BitVec 2) (off : BitVec 14) : Word :=
  wordOf [(op, 26), (rd, 21), (ra, 16), (mode.toNat, 14), (off.toNat, 0)]
/-- Format B. -/
def encB (cond : BitVec 4) (off : BitVec 22) : Word := wordOf [(0x20, 26), (cond.toNat, 22), (off.toNat, 0)]
/-- Format J. -/
def encJ (op : Nat) (off : BitVec 26) : Word := wordOf [(op, 26), (off.toNat, 0)]
/-- Format L: level, body length minus 1, and the low 13 bits. -/
def encL (op level : Nat) (len : BitVec 11) (low : Nat) : Word := wordOf [(op, 26), (level, 24), (len.toNat, 13), (low, 0)]
/-- Format S. -/
def encS (rd ra : Nat) (spec : BitVec 6) (func : Nat) : Word :=
  wordOf [(0x30, 26), (rd, 21), (ra, 16), (spec.toNat, 10), (func, 0)]

/-- True when a word is one that the tables of R301 to R321 define, register rules included (R300). -/
def fxDefined (w : Word) : Bool :=
  let x := w.toNat
  let op := bits x 31 26
  let rd := bits x 25 21
  let ra := bits x 20 16
  let rb := bits x 15 11
  let sh := bits x 10 6
  let fn := bits x 5 0
  let mode := bits x 15 14
  let loadOk := mode ≠ 3 && !(mode ≠ 0 && rd = ra)
  match op with
  | 0x00 =>
    if fn = 0x06 ∨ fn = 0x0A then rd = 0 && sh = 0
    else if 1 ≤ fn ∧ fn ≤ 9 then sh = 0 && (fn ≠ 5 || rb = 0)
    else if 0x0B ≤ fn ∧ fn ≤ 0x0E then rb = 0 && sh = 0
    else if 0x10 ≤ fn ∧ fn ≤ 0x13 then sh = 0
    else if 0x14 ≤ fn ∧ fn ≤ 0x17 then rb = 0
    else false
  | 0x02 => decide (1 ≤ fn ∧ fn ≤ 4 ∧ rd = 0 ∧ sh = 0)
  | 0x03 => decide (1 ≤ fn ∧ fn ≤ 9 ∧ sh = 0) && (decide (fn ≤ 4) || rb = 0)
  | 0x04 | 0x05 | 0x06 | 0x07 => true
  | 0x08 => ra = 0
  | 0x09 => rd = 0
  | 0x10 | 0x11 | 0x12 | 0x13 | 0x14 => loadOk
  | 0x15 => loadOk && rd % 2 = 0 && !(mode ≠ 0 && rd + 1 = ra)
  | 0x18 | 0x19 | 0x1A => mode ≠ 3
  | 0x1B => mode ≠ 3 && rd % 2 = 0
  | 0x1C => decide ((fn = 1 ∨ fn = 2) ∧ sh = 0)
  | 0x20 | 0x21 | 0x22 | 0x29 => true
  | 0x23 => decide ((fn = 1 ∨ fn = 2) ∧ rd = 0 ∧ rb = 0 ∧ sh = 0)
  | 0x28 => bits x 7 0 = 0
  | 0x2A => decide (x % 2 ^ 26 ≤ 1)
  | 0x30 =>
    let f := bits x 3 0
    let spec := bits x 15 10
    bits x 9 4 = 0 && (if f = 0 then ra = 0 else if f = 1 then rd = 0 else decide (f ≤ 7 ∧ rd = 0 ∧ ra = 0 ∧ spec = 0))
  | 0x31 | 0x32 => decide (rd = 0 ∧ ra = 0)
  | _ => false

/-- True when a word may not follow a repeat prefix (R295). -/
def fxUnrepeatable (w : Word) : Bool :=
  let x := w.toNat
  let op := bits x 31 26
  let f := bits x 3 0
  let spec := bits x 15 10
  decide (op = 0x20 ∨ op = 0x21 ∨ op = 0x22 ∨ op = 0x23 ∨ op = 0x28 ∨ op = 0x29 ∨ op = 0x2A ∨ op = 0x31 ∨ op = 0x32) ||
    (decide (op = 0x30) && (decide (f = 5 ∨ f = 6 ∨ f = 7) ||
      (decide (f = 1) && decide (spec = 0x01 ∨ spec = 0x1D ∨ (0x10 ≤ spec ∧ spec ≤ 0x1B)))))

/-! ## Addressing modes (R313) -/

/-- Address of a load or store. -/
def memAddr (base : Word) (mode : BitVec 2) (off : BitVec 14) : Word :=
  if mode = 1 then base else base + off.signExtend 32

/-- The base after the access: modes 1 and 2 write ra + off back. -/
def writeback (ra : Reg) (mode : BitVec 2) (off : BitVec 14) (c : FxCore) : FxCore :=
  if mode = 1 ∨ mode = 2 then rset ra (rget c ra + off.signExtend 32) c else c

/-! ## Address map (R279) -/

/-- Where a core address leads. -/
inductive Target where
  /-- A byte of Pool, local memory or DRAM, by memory key. -/
  | mem (key : Nat)
  /-- A byte of the boot ROM, by memory key. -/
  | rom (key : Nat)
  /-- An offset of the device region. -/
  | device (off : Nat)
  /-- An address the table does not list, or memory the variant lacks. -/
  | absent
  deriving DecidableEq, Repr

/-- True when a core exists on a variant (R263). -/
def coreExists (v : Variant) (n : CoreId) : Bool := decide (v = .vl7s ∨ n.val < 16 ∨ 32 ≤ n.val)

/-- The target of a core address (R279). -/
def coreTarget (d : Dev) (n : CoreId) (addr : Word) : Target :=
  let a := addr.toNat
  if a < 0x80000 then .mem (localKey n a)
  else if 0x02000000 ≤ a ∧ a < 0x03110000 then
    let k := (a - 0x02000000) / 0x80000
    if h : k < 34 then
      if coreExists d.variant ⟨k, h⟩ then .mem (localKey ⟨k, h⟩ ((a - 0x02000000) % 0x80000)) else .absent
    else .absent
  else if 0x08000000 ≤ a ∧ a < 0x08000000 + poolSize d.variant then .mem (poolKey (a - 0x08000000))
  else if 0x10000000 ≤ a ∧ a < 0x10001000 then .device (a - 0x10000000)
  else if 0x1F000000 ≤ a ∧ a < 0x1F010000 then
    if CoreId.isSupervisor n then .rom (romBase + (a - 0x1F000000)) else .absent
  else if 0x80000000 ≤ a then
    let c := d.cores[n]
    let hi := if a < 0xC0000000 then c.dab0.toNat % 64 else c.dab1.toNat % 64
    let da := hi * 2 ^ 30 + a % 2 ^ 30
    if da < dramCapacity d.dram.cfg then .mem (dramKey da) else .absent
  else .absent

/-- True when `n` bytes from an address lie wholly inside one window that grants a direction (R280). -/
def windowAllows (c : FxCore) (addr : Word) (n : Nat) (store : Bool) : Bool :=
  c.dwin.toList.any fun w =>
    decide (w.base.toNat ≤ addr.toNat ∧ addr.toNat + n ≤ w.limit.toNat + 1) && w.perm.getLsbD (if store then 1 else 0)

/-- True for the device-region offsets that only kernel mode reaches (R283). -/
def kernelOffset (off : Nat) : Bool :=
  decide ((0x200 ≤ off ∧ off < 0x204) ∨ (0x210 ≤ off ∧ off < 0x218) ∨ (0x400 ≤ off ∧ off < 0x480) ∨ (0x480 ≤ off ∧ off < 0x4C0))

/-- True for the queue registers of Riffle (R283). -/
def riffleOffset (off : Nat) : Bool := decide (0x100 ≤ off ∧ off < 0x110)

/-- The code window that holds a fetch address (R281). -/
def codeWindow (c : FxCore) (addr : Word) : Option CodeWindow :=
  c.cwin.toList.find? fun w => decide (w.base.toNat ≤ addr.toNat ∧ addr.toNat + 3 ≤ w.limit.toNat)

end Sys2Proof.Machine
end

