-- ==== Sys2Proof/Machine/Requests.lean ====
section
/-! DEFINITION. Machine/Requests.lean: how requests, sessions and invocations end: completion, abandonment, stopping by a key erase, the
withdrawal of an object, and Program Fault (R23, R27, R29, R115, R118, R132, R143, R209, R211, R332, R343, R344). -/
namespace Sys2Proof.Machine

/-- The runtime changed. -/
def modifyRt (f : Runtime → Runtime) (d : Dev) : Dev := { d with rt := f d.rt }

/-- Sessions changed. -/
def modifySess (f : Sessions → Sessions) (d : Dev) : Dev := { d with sess := f d.sess }

/-- A request changed. -/
def modifyReq (tag : Nat) (f : Req → Req) (d : Dev) : Dev := { d with reqs := mapUpdate d.reqs tag f }

/-! ## Program versions and cores (R332, R341, R343, R347) -/

/-- A program slot by number. -/
def progSlot (d : Dev) (n : Nat) : ProgSlot := mapGetD d.rt.slots n {}

/-- A program slot changed. -/
def modifyProg (n : Nat) (f : ProgSlot → ProgSlot) (d : Dev) : Dev :=
  modifyRt (fun r => { r with slots := mapSet r.slots n (f (mapGetD r.slots n {})) }) d

/-- A version with one binding more or less. -/
def countBound (up : Bool) (v : Nat) (p : ProgVersion) : ProgVersion :=
  if p.version = v then { p with bound := if up then p.bound + 1 else p.bound - 1 } else p

/-- A version bound by an invocation (R332). -/
def bindVersion (n v : Nat) (d : Dev) : Dev :=
  modifyProg n (fun s => { s with current := s.current.map (countBound true v), retiring := s.retiring.map (countBound true v) }) d

/-- A binding ended: a retiring version that nothing binds leaves the program store (R332). -/
def unbindVersion (n v : Nat) (d : Dev) : Dev :=
  modifyProg n (fun s =>
    { s with
      current := s.current.map (countBound false v)
      retiring := (s.retiring.map (countBound false v)).filter fun p => decide (0 < p.bound) }) d

/-- Memory from a key on set to zero. -/
def zeroMem (key len : Nat) (d : Dev) : Dev :=
  { d with
    mem := d.mem.filter fun c => !decide (key ≤ c.1 ∧ c.1 < key + len)
    poisoned := d.poisoned.filter fun w => !decide (key / 4 ≤ w ∧ w < (key + len) / 4) }

/-- A service core's input area, output area and program region zeroed, and the core idle in its runtime (R343). -/
def idleCore (n : CoreId) (d : Dev) : Dev :=
  modifyCore n (fun c => { c with slot := none, run := if c.run = .halted then .halted else .waiting })
    (zeroMem (localKey n 0x10000) 0x70000 d)

/-- The invocation that a core runs. -/
def callOn (d : Dev) (n : CoreId) : Option Invocation := d.rt.calls.find? fun i => i.core = some n

/-- True when an invocation's ranges lie in a memory namespace (R334, R335). -/
def callUses (n : AuxNamespace) (i : Invocation) : Bool :=
  !i.ranges.isEmpty && decide (n.gib ≤ i.dab1 ∧ i.dab1 < n.gib + n.size)

/-- A memory namespace gone with every set that names it; an Execute Program that still waits for a core and names it completes with
Invalid Field in Command (R334). -/
def deleteMemory (nsid : Nat) (n : AuxNamespace) (d : Dev) : Dev :=
  let waiting := d.rt.calls.filter fun i => i.core.isNone && callUses n i
  waiting.foldl (fun d i =>
    finish { ctrl := i.owner.1, sq := i.owner.2.1, cid := i.owner.2.2, st := stField, cdw0 := 0x01 } (unbindVersion i.slot i.version d))
    (modifyRt (fun r =>
      { r with
        calls := r.calls.filter fun i => !waiting.contains i
        sets := r.sets.filter fun s => s.nsid ≠ nsid
        aux := mapErase r.aux nsid }) d)

/-- Memory namespaces that a deletion names: one, or all of them. -/
def deleteTargets (d : Dev) (nsid : Nat) : AMap AuxNamespace :=
  d.rt.aux.filter fun ka => ka.2.isMemory && (nsid = 0xFFFFFFFF || ka.1 = nsid)

/-- Deletions of memory namespaces that no running invocation holds up any more done and completed (R334). -/
def endDeletes (d : Dev) : Dev :=
  d.rt.deletes.foldl (fun d w =>
    let l := deleteTargets d w.2.2
    if d.rt.calls.any fun i => i.core.isSome && l.any fun ka => callUses ka.2 i then d
    else
      let d1 := modifyRt (fun r => { r with deletes := r.deletes.filter (· ≠ w) }) d
      finish { ctrl := w.1, sq := 0, cid := w.2.1, st := if l.isEmpty && w.2.2 ≠ 0xFFFFFFFF then stNamespace else stOk, cdw0 := 0x0D, nsid := w.2.2 }
        (l.foldl (fun d ka => deleteMemory ka.1 ka.2 d) d1)) d

/-- An invocation taken off the list; its core becomes idle. -/
def dropCall (i : Invocation) (d : Dev) : Dev :=
  let d1 := modifyRt (fun r => { r with calls := r.calls.filter (· ≠ i) }) d
  endDeletes (match i.core with
    | some n => idleCore n d1
    | none => d1)

/-- The calls of a request stopped (R346). -/
def dropCallsOf (tag : Nat) (d : Dev) : Dev :=
  (d.rt.calls.filter fun i => decide (i.kind < 2) && i.owner.1 = tag).foldl (fun d i => dropCall i d) d

/-! ## Estuary and Riffle queues (R187, R236) -/

/-- An Estuary unit changed. -/
def modifyEstuary (u : Fin 2) (f : EstuaryUnit → EstuaryUnit) (d : Dev) : Dev :=
  modifyKeys (fun k => { k with estuary := k.estuary.set u (f k.estuary[u]) }) d

/-- A request's descriptor and its place in a queue given up (R187). -/
def leaveEstuary (tag : Nat) (d : Dev) : Dev :=
  let off (e : EstuaryUnit) : EstuaryUnit := { e with held := e.held.filter (· ≠ tag), waiting := e.waiting.filter (· ≠ tag) }
  modifyEstuary 0 off (modifyEstuary 1 off d)

/-- A request taken out of the Riffle queues. -/
def leaveRiffle (tag : Nat) (d : Dev) : Dev :=
  { d with riffle := d.riffle.map fun u => { u with delivery := u.delivery.filter fun p => p.1 ≠ tag } }

/-- Units of Estuary that are online (R215). -/
def unitsOnline (d : Dev) : List (Fin 2) := (List.finRange 2).filter fun u => d.keys.estuary[u].state = 0

/-! ## Sessions (R132, R256) -/

/-- Handle of a session (R18). -/
def handleOf (idx inc : Nat) : Nat := inc * 65536 + idx

/-- The session of a handle, when it is open (R20). -/
def openSession (d : Dev) (handle : Nat) : Option Session :=
  match mapGet d.sess.tab (handle % 65536) with
  | some s => if s.isOpen ∧ s.inc = handle / 65536 then some s else none
  | none => none

/-- An index given back once its session is closed and its last request is gone (R132). -/
def freeIndex (idx : Nat) (d : Dev) : Dev :=
  match mapGet d.sess.tab idx with
  | some s =>
    if !s.isOpen && s.inFlight = 0 then modifySess (fun t => { t with tab := mapErase t.tab idx, freed := t.freed ++ [idx] }) d else d
  | none => d

/-- A session closed: it returns to its function's limit, its label entry goes, its index waits for its requests (R132, R256). -/
def closeSession (idx : Nat) (d : Dev) : Dev :=
  match mapGet d.sess.tab idx with
  | none => d
  | some s =>
    if !s.isOpen then d
    else
      let d1 := gaugeCount 0x007 (modifySess (fun t => { t with tab := mapSet t.tab idx { s with isOpen := false } }) d)
      freeIndex idx (eddyInvalidateWhere (fun a e => e.valid && inPartition d1 1 a && e.data.toNat = handleOf idx s.inc) d1)

/-- A Stream Read of a session ends (R132, R134). -/
def leaveSession (idx : Nat) (ok : Bool) (bytes : Nat) (d : Dev) : Dev :=
  freeIndex idx (modifySess (fun t =>
    { t with tab := mapUpdate t.tab idx fun s =>
        { s with
          inFlight := s.inFlight - 1
          completed := if ok then s.completed + 1 else s.completed
          bytes := if ok then s.bytes + bytes else s.bytes } }) d)

/-! ## The end of a request -/

/-- A request's uses of key generations ended (R209). -/
def releaseUses (r : Req) (d : Dev) : Dev :=
  let d1 := match r.store with
    | some (n, g) => if r.storeUse then releaseGen n g d else d
    | none => d
  match r.sess with
  | some (n, g) => if r.sessUse then releaseGen n g d1 else d1
  | none => d1

/-- A forward that a request waits for ended with an abort flit (R516). -/
def abortForwards (tag : Nat) (d : Dev) : Dev :=
  (d.cas.forwards.filter fun kf => kf.2.req = some tag).foldl (fun d kf =>
    let d1 := { d with cas := { d.cas with forwards := mapErase d.cas.forwards kf.1 } }
    if kf.2.member = selfId d then d1 else sendFlit 10 kf.2.member [kf.1] d1) d

/-- A title binding ended once its namespace holds no entry of the title and no Put of it is in flight (R136, R145). -/
def pruneTitle (key : Nat) (d : Dev) : Dev :=
  let same (k : Nat) : Bool := keyTag k = keyTag key && keyTitle k = keyTitle key
  if (d.media.store.objs.any fun ko => same ko.2.key) || (d.reqs.any fun kr => kr.2.op = 2 && same kr.2.key) then d
  else modifyMedia (fun m => { m with titles := mapErase m.titles (keyTag key * 2 ^ 32 + keyTitle key) }) d

/-- True while output writes of a controller are under way. -/
def dmaRuns (d : Dev) (ctrl : Nat) : Bool := d.reqs.any fun kr => kr.2.ctrl = ctrl && (kr.2.step = .dma || kr.2.step = .peer)

/-- ATS invalidations answered once every write that used their translations has been issued (R93). -/
def releaseInvalidations (d : Dev) : Dev :=
  (List.finRange 2).foldl (fun d p =>
    let q := d.host.ports[p]
    let (held, free) := q.invalidations.partition fun i => dmaRuns d i.2.1
    free.foldl (fun d i => emit (.atsComplete p.val i.1) d)
      { d with host := { d.host with ports := d.host.ports.set p { q with invalidations := held } } }) d

/-- Everything a request holds given up: its staging is zeroised, its pins, key uses, queue places, calls and binding end (R27, R118, R209,
R332, R358). -/
def endReq (tag : Nat) (d : Dev) : Dev :=
  match mapGet d.reqs tag with
  | none => d
  | some r =>
    let d1 := { d with reqs := mapErase d.reqs tag }
    let d2 := dropCallsOf tag (leaveRiffle tag (leaveEstuary tag (abortForwards tag d1)))
    let d3 := match r.prog with
      | some (n, v) => unbindVersion n v d2
      | none => d2
    let d4 := match r.pageTag with
      | some t => modifyCtrl r.ctrl (fun c => { c with pageRequests := c.pageRequests.filter (· ≠ t) }) d3
      | none => d3
    let d5 := releaseInvalidations (unpinBands r.pins (releaseUses r d4))
    if r.op = 2 then pruneTitle r.key d5 else d5

/-- What a successful Stream Read counts (R134, R521). -/
def countDelivered (r : Req) (bytes : Nat) (d : Dev) : Dev :=
  let d1 := gaugeAdd 0x002 (ceilDiv bytes 4096) (gaugeCount 0x001 d)
  if r.readRetry then gaugeCount 0x00D d1 else d1

/-- The opcode of a request. -/
def reqOpc (r : Req) : Nat := if r.op = 2 then 0x81 else 0x82

/-- A request completed at the host, or at the member that forwarded it (R25, R127, R143, R515). -/
def finishReq (tag : Nat) (st : Status) (d : Dev) (dw0 : Nat := 0) (dw1 : Nat := 0) (bytes : Nat := 0) (record : Bool := true) : Dev :=
  match mapGet d.reqs tag with
  | none => d
  | some r =>
    let d1 := endReq tag d
    let d2 := match r.session with
      | some i => leaveSession i (st = stOk) bytes d1
      | none => d1
    let d2 := if r.op < 2 ∧ r.ctrl ≠ 0 ∧ st = stOk then countDelivered r bytes d2 else d2
    let d3 := if r.retried ∧ st = stOk then bump 0x580007 (gaugeCount 0x00B d2) else d2
    match r.remote with
    | some (m, t) =>
      if r.ctrl = 0 then
        sendFlit 5 m [t, st.1, st.2, dw0, dw1] d3
      else finish { ctrl := r.ctrl, sq := r.sq, cid := r.cid, st := st, dw0 := dw0, dw1 := dw1, cdw0 := reqOpc r, nsid := r.nsid,
                    key := r.key, tag := tag, record := record } d3
    | none =>
      finish { ctrl := r.ctrl, sq := r.sq, cid := r.cid, st := st, dw0 := dw0, dw1 := dw1, cdw0 := reqOpc r, nsid := r.nsid,
               key := r.key, tag := tag, record := record } d3

/-- A request abandoned: it posts no completion (R118). -/
def abandonReq (tag : Nat) (d : Dev) : Dev :=
  match mapGet d.reqs tag with
  | none => d
  | some r =>
    let d1 := endReq tag d
    match r.session with
    | some i => leaveSession i false 0 d1
    | none => d1

/-- Tags of the requests that satisfy a test. -/
def reqTags (d : Dev) (p : Req → Bool) : List Nat := (d.reqs.filter fun kr => p kr.2).map Prod.fst

/-! ## Erasing key material in use (R211) -/

/-- True when a request is in use on a slot (R209). -/
def usesSlot (n : Nat) (r : Req) : Bool :=
  (r.storeUse && (r.store.map Prod.fst) = some n) || (r.sessUse && (r.sess.map Prod.fst) = some n)

/-- A request stopped by an erase (R211). -/
def stopReq (tag : Nat) (d : Dev) : Dev := finishReq tag stRevoked (gaugeCount 0x048 d)

/-- A slot's material zeroised and the requests in use on it stopped; how many there were (R211). -/
def eraseMaterial (n : Nat) (d : Dev) : Nat × Dev :=
  let tags := reqTags d (usesSlot n)
  let d1 := modifySlot n (fun s => { s with current := none, retiring := none, changedAt := d.tm }) d
  (tags.length, tags.foldl (fun d t => stopReq t d) d1)

/-- A slot erased and kept: a held load installs on the now empty slot (R207, R212). -/
def eraseKeep (n : Nat) (d : Dev) : Nat × Dev :=
  let (k, d1) := eraseMaterial n d
  (k, drainHeld n (keySlot d1 n).held.length d1)

/-- Held loads completed with a status (R212). -/
def failLoads (hs : List HeldLoad) (st : Status) (d : Dev) : Dev := hs.foldl (fun d h => failKey h.ctrl h.cid 0xC4 st d) d

/-- A slot freed; its last generation stays in place (R207, R208). -/
def freeSlot (n : Nat) (d : Dev) : Dev := modifySlot n (fun s => { s with allocated := false, owner := 0, type := 0 }) d

/-- A slot erased and freed; its held loads install no more and complete with Slot Not Owned (R207, R212). -/
def eraseFree (n : Nat) (d : Dev) : Nat × Dev :=
  let hs := (keySlot d n).held
  let (k, d1) := eraseMaterial n (modifySlot n (fun s => { s with held := [] }) d)
  (k, freeSlot n (failLoads hs stNotOwned d1))

/-- Every slot of a function erased and freed, its generations back at 0, its held loads abandoned (R117, R199, R212). -/
def dropSlotsOf (id : Nat) (d : Dev) : Dev :=
  (d.keys.slots.filter fun ks => ks.2.allocated && ks.2.owner = id).foldl (fun d ks =>
    modifySlot ks.1 (fun _ => {}) (eraseMaterial ks.1 (modifySlot ks.1 (fun s => { s with held := [] }) d)).2) d

/-! ## Withdrawal (R29, R33, R252, R532) -/

/-- An entry put on a function's Content Withdrawal page, with its notice (R532, R533). -/
def reportWithdrawal (id : Nat) (w : Withdrawal) (d : Dev) : Dev :=
  vendorNotice 0 0xC0 id (modifyCtrl id (fun c =>
    { c with
      withdrawals := if c.withdrawals.length < 256 then c.withdrawals ++ [w] else c.withdrawals
      withdrawalsTotal := c.withdrawalsTotal + 1
      withdrawalsLost := if c.withdrawals.length < 256 then c.withdrawalsLost else c.withdrawalsLost + 1 }) d)

/-- Addresses of the valid partition 0 entries of an object key. -/
def indexAddrs (d : Dev) (key : Nat) : List Nat :=
  (d.eddy.entries.filter fun ae => ae.2.valid && inPartition d 0 ae.1 && ae.2.key.toNat = key).map Prod.fst

/-- Associated data of an object's entry (R255). -/
def objData (rec : Nat) (o : ObjRec) : BitVec 128 :=
  BitVec.ofNat 128 (rec + (if o.withdrawn then 2 ^ 32 else 0) + (if o.compressed then 2 ^ 33 else 0))

/-- True while some unit that a request needs has not been read (R29). -/
def readsPending (r : Req) : Bool :=
  r.op < 2 && (List.range r.obj.units).any fun u => (mapGet r.cipher u).isNone && (mapGet r.plain u).isNone

/-- Record number of a request whose object has been replaced or evicted since it bound its locator. -/
def recGone : Nat := 65536

/-- True when a request reads the object of a record. -/
def readsObject (rec : Nat) (r : Req) : Bool := r.op < 2 && r.recNo = rec

/-- An object withdrawn: its entry is marked, every function that shares the namespace hears of it, and the requests whose reads are not all
done complete with Content Withdrawn (R29, R33, R115). -/
def withdrawObject (rec cause label : Nat) (d : Dev) : Dev :=
  match mapGet d.media.store.objs rec with
  | none => d
  | some o =>
    if o.withdrawn then d
    else
      let o' := { o with withdrawn := true, withdrawnAt := d.tm, lastSeq := d.media.seq + 1 }
      let d1 := bump 0x383001 (journal (.object rec (some o') 0 []) d)
      let d2 := (indexAddrs d1 o.key).foldl (fun d a => eddySetData a (objData rec o') d) d1
      let d3 := logError 0x06 1 1 0 (leBytes 16 o.key) d2
      let d4 := match nsByTag d3 (keyTag o.key) with
        | some (_, n) => n.attached.foldl (fun d id => reportWithdrawal id { key := o.key, at_ := d.tm, label := label, cause := cause } d) d3
        | none => d3
      (reqTags d4 fun r => readsObject rec r && readsPending r).foldl (fun d t => finishReq t stWithdrawn d) d4

/-! ## Program Fault (R344) -/

/-- The log record of a failed invocation (R344, R526 class 0x04). -/
def programDetail (i : Invocation) (c : FxCore) (abort tag : Nat) : Bytes :=
  leBytes 4 c.epc.toNat ++ leBytes 4 c.ecause.toNat ++ leBytes 4 c.eval.toNat ++ leBytes 1 i.slot ++
    leBytes 1 (match i.core with
      | some n => n.val
      | none => 0) ++ leBytes 2 0 ++ leBytes 4 0 ++ leBytes 4 i.version ++ leBytes 4 abort ++ leBytes 4 tag

/-- Dword 0 of a Program Fault (R344). -/
def programDword (core ecause cause : Nat) : Nat := cause + ecause % 256 * 256 + core % 64 * 65536

/-- The controller of the command that an invocation runs for; 0 when it comes from another member. -/
def callCtrl (i : Invocation) (d : Dev) : Nat :=
  if i.kind < 2 then
    match mapGet d.reqs i.owner.1 with
    | some r => r.ctrl
    | none => 0
  else i.owner.1

/-- Origin of a log record about a controller's command; 0xFFFF where there is no controller (R525). -/
def ctrlOrigin (ctrl : Nat) : Nat := if ctrl = 0 then 0xFFFF else ctrl

/-- A failed invocation: counted, logged, and its command completed (R344, R347). -/
def failCall (i : Invocation) (cause ecause abort : Nat) (d : Dev) : Dev :=
  let core := match i.core with
    | some n => n.val
    | none => 0
  let regs := match i.core with
    | some n => d.cores[n]
    | none => ({} : FxCore)
  let tag := if i.kind < 2 then i.owner.1 else 0
  let d1 := modifyProg i.slot (fun s => { s with faults := s.faults + 1 }) (bump 0x700006 (gaugeCount (0x02B + cause) d))
  let d2 := dropCall i (logError 0x04 2 cause (0x02B + cause) (programDetail i regs abort tag) d1
    (origin := ctrlOrigin (callCtrl i d)) (iface := ifaceOf d (callCtrl i d)))
  let dw := programDword core ecause cause
  if i.kind < 2 then finishReq tag stProgram d2 (dw0 := dw) (record := false)
  else
    finish { ctrl := i.owner.1, sq := i.owner.2.1, cid := i.owner.2.2, st := stProgram, dw0 := dw, cdw0 := 0x01, record := false }
      (unbindVersion i.slot i.version d2)

/-- A user-mode exception of a program fails its invocation (R344 cause 0x02). -/
def programException (n : CoreId) (d : Dev) : Dev :=
  match callOn d n with
  | some i => failCall i 2 (bits d.cores[n].ecause.toNat 7 0) 0 d
  | none => d

/-! ## System calls (R338, R339) -/

/-- EXIT of a Braid call with a result above 64 KiB is OUTPUT_LIMIT; else the pass takes the count, or the bytes of the output area (R339). -/
def exitBraid (n : CoreId) (i : Invocation) (g1 : Nat) (d : Dev) : Dev :=
  if 65536 < g1 then failCall i 6 0 0 d
  else if i.kind = 0 then
    dropCall i (modifyReq i.owner.1 (fun r => { r with lenCalls := r.lenCalls ++ [g1], calling := false }) d)
  else if anyPoison d (localKey n 0x25000) g1 then finishReq i.owner.1 stPoison (dropCall i d)
  else
    let bs := memGet d (localKey n 0x25000) g1
    dropCall i (modifyReq i.owner.1 (fun r => { r with asmCalls := r.asmCalls ++ [bs], calling := false }) d)

/-- EXIT of an Execute Program: the command completes with g1 (R339). -/
def exitExecute (i : Invocation) (g1 : Nat) (d : Dev) : Dev :=
  finish { ctrl := i.owner.1, sq := i.owner.2.1, cid := i.owner.2.2, dw0 := g1, cdw0 := 0x01 }
    (unbindVersion i.slot i.version (dropCall i d))

/-- A program's system call as the runtime takes it (R338). -/
def systemCall (n : CoreId) (imm : Nat) (d : Dev) : Dev :=
  match callOn d n with
  | none => d
  | some i =>
    let g1 := (rget d.cores[n] 1).toNat
    if imm = 0 then (if i.kind < 2 then exitBraid n i g1 d else exitExecute i g1 d)
    else if imm = 1 then failCall i 4 0 g1 d
    else failCall i 5 0 0 d

end Sys2Proof.Machine
end

