-- ==== Sys2Proof/Machine/KeyCmds.lean ====
section
/-! DEFINITION. Machine/KeyCmds.lean: the key slot commands, the alarm and the return of Estuary units (R200 to R207, R210 to R218). -/
namespace Sys2Proof.Machine

/-- Reserved bits [hi:lo] of a dword are 0. -/
def zeroBits (x hi lo : Nat) : Bool := bits x hi lo = 0

/-- The dwords from 11, 12, 13 or 14 on are 0 (R11). -/
def zeroFrom (n : Nat) (c : Cmd) : Bool :=
  (11 < n || c.cdw11 = 0) && (12 < n || c.cdw12 = 0) && (13 < n || c.cdw13 = 0) && (14 < n || c.cdw14 = 0) && c.cdw15 = 0

/-! ## Key Slot Allocate (R201, R202) -/

/-- The lowest slot number that ordinary allocation may take. -/
def lowestSlot (d : Dev) : Option Nat := findBelow (fun n => slotFree d n) 8192

/-- True when SPECIFIC may take a number: a PF may take a reserved one with type 0 (R202). -/
def specificFree (d : Dev) (ctrl type n : Nat) : Bool :=
  slotFree d n || (!(keySlot d n).allocated && !quarantined d n && isPf d ctrl && type = 0)

/-- Key Slot Allocate after its fetch: the refusals in order, then the slot (R201). -/
def allocateSlot (c : Cmd) (d : Dev) : Dev :=
  let type := bits c.cdw10 1 0
  let specific := bit c.cdw10 31
  let want := bits c.cdw11 12 0
  if type = 3 ∨ !(zeroBits c.cdw10 30 2 && zeroBits c.cdw11 31 13 && zeroFrom 12 c) then done c stField d
  else if d.keys.locked then done c stLocked d
  else if type = 0 ∧ !isPf d c.ctrl then done c stSlotType d
  else if specific && !specificFree d c.ctrl type want then done c stSlotUnavail d
  else match withinLimit d .keySlots c.ctrl, (if specific then some want else lowestSlot d) with
    | true, some n =>
      let d1 := modifySlot n (fun s => { s with allocated := true, type := type, owner := c.ctrl }) d
      done c stOk d1 (dw0 := n + 65536 * (keySlot d1 n).lastGen)
    | _, _ => done c stSlotsOut d

/-- KEY_SLOT_ALLOCATE: admin C3h (R201). -/
def execKeySlotAllocate (c : Cmd) (s : State) : Host.Outcome State Fault Refusal :=
  run (adminCmd (withOp 0xC3 c) (allocateSlot (withOp 0xC3 c))) s

/-! ## Key Slot Load (R203 to R206) -/

/-- The fields of a load's buffer that stand on their own (R203, R204 step 1). -/
def loadFieldsOk (b : Bytes) : Bool :=
  let wl := leField b 4 2
  leField b 0 2 = 1 && decide (1 ≤ leField b 2 1 ∧ leField b 2 1 ≤ 5) && decide (leField b 3 1 ≤ 1) && (wl = 24 || wl = 40 || wl = 72) &&
    decide (leField b 6 2 ≤ 1) && leField b 44 4 = 0 && leField b (48 + wl) (72 - wl) = 0 && leField b 120 8 = 0

/-- The key-encryption key that a wrapping code names (R198). -/
def wrappingKey (d : Dev) (w : Nat) : Option Bytes := if w = 0 then some d.fuses.kek0 else d.keys.kek1

/-- Refusals of an unwrapped key: expected KCV, a title binding's KCV, equal XTS halves (R200, R206). -/
def keyRefused (d : Dev) (slot : Option Nat) (b key : Bytes) : Bool :=
  let kt := leField b 2 1
  let kcv := kcvFor kt key
  let want := leField b 40 4
  (want ≠ 0 && want ≠ kcv) || (kt = 1 && key.take 32 = key.drop 32) ||
    match slot with
    | some n => d.media.titles.any fun t => t.2.slot = n && t.2.kcv ≠ kcv
    | none => false

/-- A wrapped key unwrapped and checked; the status when that fails (R204 steps 5 and 6). -/
def unwrapLoad (slot : Option Nat) (b : Bytes) (d : Dev) : Except Status Bytes :=
  match (wrappingKey d (leField b 3 1)).bind fun k => keyUnwrap k (slice b 48 (leField b 4 2)) with
  | none => .error stUnwrap
  | some key => if keyRefused d slot b key then .error stKcv else .ok key

/-- What a failed load counts (R222, R520). -/
def countLoadFail (st : Status) (d : Dev) : Dev :=
  if st = stUnwrap then bump 0x581006 (gaugeCount 0x045 d) else if st = stKcv then gaugeCount 0x046 d else d

/-- The generation that a buffer and its key make (R203). -/
def genOfLoad (b key : Bytes) : KeyGen :=
  { gen := 0, key := key, kid := slice b 8 16, iv := slice b 24 16, explicitIv := bit (leField b 6 2) 0, kcv := kcvFor (leField b 2 1) key }

/-- A slot load from step 3 on, for a controller or, with controller 0, for a deepen master (R204, R515). -/
def loadSlot (ctrl cid n : Nat) (b : Bytes) (d : Dev) : Dev :=
  let kt := leField b 2 1
  let fail (st : Status) : Dev := failKey ctrl cid 0xC4 st (countLoadFail st d)
  if d.keys.locked ∨ d.keys.kek1 = none then fail stLocked
  else if slotTypeOf kt ≠ some (keySlot d n).type ∨ leField b 4 2 ≠ keyBytes kt + 8 ∨ leField b 3 1 ≠ 1 then fail stField
  else match unwrapLoad (some n) b d with
    | .error st => fail st
    | .ok key => acceptLoad n { ctrl := ctrl, cid := cid, new := genOfLoad b key, buf := b, since := d.tm } d

/-- The recorded management keys that the unwrap buffers do not hold, unwrapped under KEK 1 (R467, R218). -/
def unwrapMgmt (d : Dev) : Dev :=
  match d.keys.kek1 with
  | none => d
  | some kek =>
    { d with aop := { d.aop with keys := Vector.ofFn fun i =>
        match d.aop.keys[i], d.keys.mgmt[i] with
        | some k, _ => some k
        | none, some w => keyUnwrap kek w
        | none, none => none } }

/-- A KEK 1 load from step 3 on (R204, R205). -/
def loadKek (ctrl cid opc : Nat) (b : Bytes) (d : Dev) : Dev :=
  let fail (st : Status) : Dev := failKey ctrl cid opc st (countLoadFail st d)
  if d.keys.locked ∨ (leField b 3 1 = 1 ∧ d.keys.kek1 = none) then fail stLocked
  else if leField b 2 1 ≠ 5 ∨ leField b 4 2 ≠ 40 then fail stField
  else match unwrapLoad none b d with
    | .error st => fail st
    | .ok key =>
      let d1 := setNum 0x581005 (d.tm % 2 ^ 64) (modifyKeys (fun k => { k with kek1 := some key }) (gaugeCount 0x044 d))
      completeKek ctrl cid opc (kcvOf key) (unwrapMgmt d1)

/-- Key Slot Load after its fetch: steps 1 and 2, then the slot or KEK 1 (R204). -/
def loadKey (c : Cmd) (d : Dev) : Dev :=
  let target := bit c.cdw10 31
  let n := bits c.cdw10 12 0
  let b := padTo 128 c.data
  if !(zeroBits c.cdw10 30 13 && zeroFrom 11 c) ∨ !loadFieldsOk b then done c stField d
  else if target && !isPf d c.ctrl then done c stSlotType d
  else if target then loadKek c.ctrl c.cid 0xC4 b d
  else
    let s := keySlot d n
    if !s.allocated ∨ s.owner ≠ c.ctrl then done c stNotOwned d else loadSlot c.ctrl c.cid n b d

/-- KEY_SLOT_LOAD: admin C4h (R203, R204). -/
def execKeySlotLoad (c : Cmd) (s : State) : Host.Outcome State Fault Refusal :=
  run (adminCmd (withOp 0xC4 c) (withData (withOp 0xC4 c) (loadKey (withOp 0xC4 c)))) s

/-- A command with TARGET_KEK set. -/
def withTargetKek (c : Cmd) : Cmd := { c with opc := 0xC4, cdw10 := c.cdw10 ||| 2 ^ 31 }

/-- KEK_LOAD: admin C4h with TARGET_KEK (R205). -/
def execKekLoad (c : Cmd) (s : State) : Host.Outcome State Fault Refusal :=
  run (adminCmd (withTargetKek c) (withData (withTargetKek c) (loadKey (withTargetKek c)))) s

/-! ## Key Slot Erase (R207, R211) -/

/-- Key Slot Erase after its fetch (R207). -/
def eraseKey (c : Cmd) (d : Dev) : Dev :=
  let n := bits c.cdw10 12 0
  let keep := bit c.cdw10 16
  let s := keySlot d n
  if !(zeroBits c.cdw10 15 13 && zeroBits c.cdw10 31 17 && zeroFrom 11 c) then done c stField d
  else if !s.allocated ∨ s.owner ≠ c.ctrl then done c stNotOwned d
  else
    let (k, d1) := if keep then eraseKeep n d else eraseFree n d
    completeKey c.ctrl c.cid 0xC5 k 0 [n, if keep then 1 else 0] d1

/-- KEY_SLOT_ERASE: admin C5h (R207, R211). -/
def execKeySlotErase (c : Cmd) (s : State) : Host.Outcome State Fault Refusal :=
  run (adminCmd (withOp 0xC5 c) (eraseKey (withOp 0xC5 c))) s

/-! ## Generation Busy (R210) -/

/-- GENERATION_BUSY_TIMEOUT: the load held longest on a slot has waited 1 s and completes; the slot keeps its generations (R210). -/
def execGenerationBusyTimeout (slot now : Nat) (s : State) : Host.Outcome State Fault Refusal :=
  run (fun d =>
    let d0 := advanceTo now d
    match (keySlot d0 slot).held with
    | [] => d0
    | h :: hs =>
      if d0.tm < h.since + 1000000000 then d0
      else failKey h.ctrl h.cid 0xC4 stGenBusy (bump 0x581007 (gaugeCount 0x047 (modifySlot slot (fun s => { s with held := hs }) d0)))) s

/-! ## Alarms (R216 to R218) -/

/-- SPRINGHEAD_ALARM: a sensor trips; every key goes, requests in use get Key Revoked, held loads Key Store Locked, and the
part wakes (R216, R217, R437). -/
def execSpringheadAlarm (now cause : Nat) (s : State) : Host.Outcome State Fault Refusal :=
  run (fun d =>
    let c := cause % 16
    let d0 := advanceTo now d
    if c = 0 then d0
    else
      let hs := (d0.keys.slots.map fun ks => ks.2.held).flatten
      let d1 := modifyKeys (fun k =>
        { k with
          locked := true
          kek1 := none
          nsKeysReady := false
          slots := mapValues k.slots fun _ s => { s with held := [] } }) d0
      let d2 := setNum 0x581005 (d1.tm % 2 ^ 64) d1
      let d3 := failLoads hs stLocked (d2.keys.slots.foldl (fun d ks => (eraseMaterial ks.1 d).2) d2)
      let d4 := setNum 0x582002 c (setNum 0x582003 (d3.tm % 2 ^ 64) (bump 0x582004 d3))
      let d5 := devPersist 0x582005 (objNum d4 0x582005 + 1) d4
      latchWake 0x40 (logError 0x08 3 c 0x04C [] (gaugeCount 0x04C { d5 with aop := { d5.aop with keys := Vector.replicate 4 none } }))) s

/-- KEY_STORE_UNLOCK: every sensor has read clear for 10 ms; the lock clears and Springhead unwraps the namespace keys again (R192, R218). -/
def execKeyStoreUnlock (now : Nat) (s : State) : Host.Outcome State Fault Refusal :=
  run (fun d =>
    let d0 := advanceTo now d
    if d0.keys.locked then modifyKeys (fun k => { k with locked := false, nsKeysReady := true }) d0 else d0) s

/-! ## Estuary units (R215) -/

/-- Index of a unit. -/
def unitIdx (u : Nat) : Fin 2 := if u % 2 = 0 then 0 else 1

/-- A known-answer test ends: its result is kept, and the unit goes online or stays offline (R215, R221). -/
def endKnownAnswer (u : Fin 2) (passed : Bool) (d : Dev) : Dev :=
  if d.keys.estuary[u].testing then
    setNum 0x58000A (if passed then 0 else 1)
      (modifyEstuary u (fun e =>
        { e with testing := false, state := if passed then 0 else 1, failures := if passed then Vector.replicate 2 [] else e.failures }) d)
  else d

/-- KNOWN_ANSWER_TEST_DONE: the 100 µs test of a unit ends (R215). -/
def execKnownAnswerTestDone (u : Fin 2) (passed : Bool) (s : State) : Host.Outcome State Fault Refusal :=
  run (endKnownAnswer u passed) s

end Sys2Proof.Machine
end

