-- ==== Sys2Proof/Machine/BraidImage.lean ====
section
/-! DEFINITION. Machine/BraidImage.lean: profile images (R159 to R165, R180, R184) and the sample tables and track headers that Braid reads
(R156, R157, R552). -/
namespace Sys2Proof.Machine

/-! ## Profile images (R159) -/

/-- One template instruction (R163). -/
structure BrInstr where
  /-- Opcode. -/
  op : Nat
  /-- Sub. -/
  sub : Nat
  /-- A. -/
  a : Nat
  /-- B. -/
  b : Nat
  deriving DecidableEq, Repr

def imgFamily (img : Bytes) : Nat := leField img 8 1
def imgScheme (img : Bytes) : Nat := leField img 9 1
def imgClass (img : Bytes) : Nat := leField img 10 1
def imgFlags (img : Bytes) : Nat := leField img 11 1
def imgKinds (img : Bytes) : Nat := leField img 12 2
def imgCount (img : Bytes) : Nat := leField img 14 2
def imgConstLen (img : Bytes) : Nat := leField img 16 2
def imgProgram (img : Bytes) : Bytes := slice img 20 8
/-- PROGRAM_ASSISTED. -/
def imgAssisted (img : Bytes) : Bool := bit (imgFlags img) 0
/-- TRACK_HEADER. -/
def imgTrack (img : Bytes) : Bool := bit (imgFlags img) 1
/-- Parameter word `i`. -/
def imgParam (img : Bytes) (i : Nat) : Nat := leField img (32 + 4 * i) 4
/-- Template instruction `i` (R163). -/
def imgInstr (img : Bytes) (i : Nat) : BrInstr :=
  let w := leField img (160 + 8 * i) 8
  { op := bits w 63 56, sub := bits w 55 48, a := bits w 47 32, b := bits w 31 0 }
/-- Constant area. -/
def imgConst (img : Bytes) : Bytes := img.drop (160 + 8 * imgCount img)

/-! ## The checks of R180 -/

/-- Check 1: the header. -/
def imgHeaderOk (img : Bytes) : Bool :=
  decide (32 ≤ img.length) && leField img 0 4 = 0x46504C56 && leField img 4 2 = 1 && leField img 6 2 = 32 &&
    decide (imgClass img < 16) && decide (imgFlags img < 4) && decide (1 ≤ imgCount img ∧ imgCount img ≤ 1024) && leField img 18 2 = 0 &&
    !(imgAssisted img && (imgProgram img).all (· = 0))

/-- Check 2: the CRC, taken with its field read as 0. -/
def imgCrcOk (img : Bytes) : Bool := (crc32c (overlay img 28 (leBytes 4 0))).toNat = leField img 28 4

/-- Check 3: the pairs of R160. -/
def imgPairOk (img : Bytes) : Bool :=
  decide (imgFamily img ≤ 3 ∧ imgScheme img ≤ 4) && (imgFamily img = 0 || imgScheme img = 0 || decide (3 ≤ imgScheme img))

/-- Check 4: the accepted kinds of R161. -/
def imgKindsOk (img : Bytes) : Bool :=
  if imgFamily img = 3 then decide (imgKinds img ≠ 0 ∧ imgKinds img < 64) else imgKinds img = if imgTrack img then 2 else 1

/-- Widths of a FIELD kind (R165); none for a kind that does not exist. -/
def fieldWidths (kind : Nat) : List Nat :=
  match kind with
  | 0x01 => [4] | 0x02 => [4, 8] | 0x03 => [1, 2, 4] | 0x04 => [2, 4] | 0x05 => [4] | 0x06 => [4] | 0x07 => [4] | 0x08 => [4]
  | 0x09 => [2] | 0x0A => [2] | 0x0B => [4] | 0x0C => [1] | 0x0D => [8, 16] | 0x0E => [16] | 0x0F => [16] | 0x10 => [4]
  | 0x11 => [4, 8] | 0x12 => [1, 2, 4] | 0x13 => [1, 2, 4, 8] | 0x14 => [8] | 0x15 => [7] | 0x16 => [0] | 0x17 => [4] | 0x18 => [4, 8]
  | _ => []

/-- Kinds whose B names a parameter word (R165). -/
def paramKinds : List Nat := [0x01, 0x02, 0x10, 0x12, 0x15, 0x18]
/-- Kinds whose B is 0 or 1 (R165). -/
def selectKinds : List Nat := [0x04, 0x08, 0x0A, 0x0C, 0x11]
/-- Kinds that concern one sample (R168). -/
def sampleKinds : List Nat := [0x04, 0x06, 0x07, 0x08, 0x09, 0x0A, 0x0B, 0x0C, 0x0D, 0x15]
/-- Kinds that a TRACK_HEADER profile may use (R161). -/
def trackKinds : List Nat := [0x01, 0x0E, 0x0F, 0x10, 0x12, 0x13, 0x16]
/-- Opcodes that a TRACK_HEADER profile may use (R161). -/
def trackOps : List Nat := [0x00, 0x01, 0x02, 0x03, 0x04, 0x05, 0x06, 0x09, 0x0A, 0x0B, 0x0F, 0x10, 0x11]
/-- Opcodes allowed between PES_OPEN and PES_CLOSE (R176). -/
def pesOps : List Nat := [0x01, 0x02, 0x0C, 0x0E, 0x10, 0x11]

/-- Check 5 on one instruction: an undefined opcode, or a non-zero field that the opcode or kind does not use (R164, R165). -/
def opcodeBad (x : BrInstr) : Bool :=
  let kindB := decide (x.b ≠ 0) && !paramKinds.contains x.sub && !selectKinds.contains x.sub && x.sub ≠ 0x13 && !(fieldWidths x.sub).isEmpty
  match x.op with
  | 0x00 | 0x04 | 0x08 | 0x0A | 0x0B | 0x0E => x.sub ≠ 0 || x.a ≠ 0 || x.b ≠ 0
  | 0x01 | 0x10 => x.sub ≠ 0
  | 0x02 => kindB
  | 0x03 => x.sub ≠ 0 || x.a ≠ 0
  | 0x05 => x.sub ≠ 0 || x.b ≠ 0
  | 0x06 => kindB || (x.sub ≠ 0x13 && decide (bits x.a 7 0 ≠ 0))
  | 0x07 | 0x0C => x.a ≠ 0 || x.b ≠ 0
  | 0x09 => decide (bits x.a 15 1 ≠ 0) || x.b ≠ 0
  | 0x0D => x.b ≠ 0 || decide (bits x.a 15 11 ≠ 0)
  | 0x0F => false
  | 0x11 => x.sub ≠ 0 || decide (bits x.b 31 8 ≠ 0)
  | _ => true

/-- Kind, width and argument of FIELD or PATCH_AT outside what R165 allows. -/
def kindBad (img : Bytes) (kind width b : Nat) (patch : Bool) : Bool :=
  !(fieldWidths kind).contains width || (kind = 0x13 && !patch) || (paramKinds.contains kind && decide (31 < b)) ||
    (kind = 0x15 && decide (b ≤ 31) && decide (imgParam img b % 4 + bits (imgParam img b) 11 8 * 256 + bits (imgParam img b) 18 16 * 65536 ≠ imgParam img b)) ||
    (selectKinds.contains kind && decide (1 < b))

/-- Check 6 on one instruction: a value outside its range (R164, R165, R169). -/
def rangeBad (img : Bytes) (x : BrInstr) : Bool :=
  match x.op with
  | 0x01 | 0x11 => decide (x.a = 0 ∨ 4096 < x.a)
  | 0x02 => kindBad img x.sub x.a x.b false
  | 0x05 => decide (15 < x.a)
  | 0x06 => kindBad img x.sub (bits x.a 11 8) x.b true
  | 0x07 => decide (1 < x.sub)
  | 0x09 => decide (5 < x.sub)
  | 0x0C => decide (2 < x.sub)
  | 0x0D => decide (3 < x.sub ∨ bits x.a 9 8 = 1)
  | 0x0F => decide (3 < x.sub ∨ x.a < 8 ∨ 183 < x.a)
  | 0x10 => decide (64 < x.a ∨ 15 < x.b)
  | _ => false

/-- What is open at an instruction. -/
inductive BrOpen where
  | box | samples | subsamples | cond (seenElse : Bool) | pes
  deriving DecidableEq, Repr

/-- True for a condition. -/
def BrOpen.isCond : BrOpen → Bool
  | .cond _ => true
  | _ => false

/-- Check 7 on one instruction: balance and depths (R180, R184). -/
def nestingBad (st : List BrOpen) (x : BrInstr) : Bool :=
  let loops := st.filter fun o => o = .samples || o = .subsamples
  match x.op with
  | 0x03 => decide (8 ≤ (st.filter (· = .box)).length)
  | 0x04 => st.head? ≠ some .box
  | 0x07 => decide (2 ≤ loops.length) || (x.sub = 0 && !loops.isEmpty)
  | 0x08 => st.head? ≠ some .samples && st.head? ≠ some .subsamples
  | 0x09 => decide (4 ≤ (st.filter BrOpen.isCond).length)
  | 0x0A => st.head? ≠ some (.cond false)
  | 0x0B => !(st.head?.any BrOpen.isCond)
  | 0x0E => st.head? ≠ some .pes
  | _ => false

/-- What is open after an instruction. -/
def nextOpen (st : List BrOpen) (x : BrInstr) : List BrOpen :=
  match x.op with
  | 0x03 => .box :: st
  | 0x07 => (if x.sub = 0 then .samples else .subsamples) :: st
  | 0x09 => .cond false :: st
  | 0x0D => .pes :: st
  | 0x0A => if st.head?.any BrOpen.isCond then .cond true :: st.drop 1 else st
  | 0x04 | 0x08 | 0x0B | 0x0E => if nestingBad st x then st else st.drop 1
  | _ => st

/-- Placement of a FIELD or PATCH_AT kind (R161, R165, R168). -/
def kindMisplaced (img : Bytes) (st : List BrOpen) (kind : Nat) : Bool :=
  (imgTrack img && !trackKinds.contains kind) || (kind = 0x16 && !imgTrack img) ||
    ((kind = 0x0A || kind = 0x0B) && !st.contains .subsamples)

/-- Check 8 on one instruction (R161, R168, R170, R176, R180). -/
def placementBad (img : Bytes) (st : List BrOpen) (marks : List Nat) (i : Nat) (x : BrInstr) : Bool :=
  let ts := imgFamily img = 1
  (st.contains .pes && !pesOps.contains x.op) ||
  (imgTrack img && (!trackOps.contains x.op || (x.op = 0x09 && x.sub ≠ 4) || (x.op = 0x10 && x.a ≠ 0))) ||
  (imgFamily img = 3 && x ≠ (if i = 0 then { op := 0x0C, sub := 2, a := 0, b := 0 } else { op := 0, sub := 0, a := 0, b := 0 })) ||
  (decide (i + 1 = imgCount img) != decide (x.op = 0)) ||
  match x.op with
  | 0x02 => kindMisplaced img st x.sub
  | 0x06 => kindMisplaced img st x.sub || !marks.contains (bits x.a 15 12) ||
      (x.sub = 0x13 && !(marks.contains (bits x.a 7 4) && marks.contains (bits x.a 3 0)))
  | 0x07 => x.sub = 1 && !st.contains .samples
  | 0x0D => !ts || !st.contains .samples
  | 0x0F => !ts
  | 0x10 => !imgAssisted img
  | _ => false

/-- Check 9 on one instruction: constant bounds. -/
def constBad (img : Bytes) (x : BrInstr) : Bool := (x.op = 0x01 || x.op = 0x0F) && decide (imgConstLen img < x.b + x.a)

/-- The first instruction index at which each of the checks 5 to 9 fails. -/
structure BrScan where
  /-- What is open. -/
  open_ : List BrOpen := []
  /-- Marks recorded so far. -/
  marks : List Nat := []
  /-- First failures of checks 5 to 9. -/
  fails : List (Nat × Nat) := []

/-- One instruction scanned. -/
def scanInstr (img : Bytes) (s : BrScan) (i : Nat) : BrScan :=
  let x := imgInstr img i
  let now := (if opcodeBad x then [(5, i)] else []) ++ (if rangeBad img x then [(6, i)] else []) ++
    (if nestingBad s.open_ x then [(7, i)] else []) ++ (if placementBad img s.open_ s.marks i x then [(8, i)] else []) ++
    (if constBad img x then [(9, i)] else [])
  { open_ := nextOpen s.open_ x, marks := if x.op = 0x05 then x.a :: s.marks else s.marks, fails := s.fails ++ now }

/-- Instructions that lie wholly in an image. -/
def imgPresent (img : Bytes) : Nat := min (imgCount img) ((img.length - 160) / 8)

/-- The scan of a whole template; what is still open at its end fails check 7 at the last instruction. -/
def scanImage (img : Bytes) : List (Nat × Nat) :=
  let s := (List.range (imgPresent img)).foldl (scanInstr img) {}
  let pcr := imgParam img 28
  s.fails ++ (if s.open_.isEmpty then [] else [(7, imgCount img - 1)]) ++
    (if imgFamily img = 1 && ((decide (3 < pcr) && pcr ≠ 0xFF) || imgParam img 31 ≠ 0) then [(6, 0xFFFF)] else [])

/-- Check 10: the size (R184). -/
def imgSizeOk (img : Bytes) : Bool :=
  img.length = 160 + 8 * imgCount img + imgConstLen img && decide (img.length ≤ 16384)

/-- The first check of R180 that an image fails, with its instruction index; none for an image that may be defined. -/
def imageRefused (img : Bytes) : Option (Nat × Nat) :=
  if !imgHeaderOk img then some (1, 0xFFFF)
  else if !imgCrcOk img then some (2, 0xFFFF)
  else if !imgPairOk img then some (3, 0xFFFF)
  else if !imgKindsOk img then some (4, 0xFFFF)
  else
    let fs := scanImage img
    match ([5, 6, 7, 8, 9].filterMap fun k => ((fs.filter fun f => f.1 = k).map Prod.snd).min?.map fun i => (k, i)) with
    | f :: _ => some f
    | [] => if imgSizeOk img then none else some (10, 0xFFFF)

/-! ## Sample tables (R156, R157) and track headers (R552) -/

/-- A sample record (R156). -/
structure BrSample where
  /-- Size. -/
  size : Nat
  /-- Offset in the payload. -/
  off : Nat
  /-- Decode time. -/
  dt : Nat
  /-- Composition offset. -/
  cto : Int
  /-- Duration. -/
  dur : Nat
  /-- First subsample. -/
  first : Nat
  /-- Subsamples. -/
  subs : Nat
  /-- Sample flags. -/
  flags : Nat
  /-- NAL count. -/
  nals : Nat
  /-- NAL length size. -/
  nalLen : Nat
  deriving DecidableEq, Repr

/-- Sample record `i` of a table. -/
def tableSample (t : Bytes) (i : Nat) : BrSample :=
  let r := t.drop (48 + 48 * i)
  { size := leField r 0 4, off := leField r 4 4, dt := leField r 8 8, cto := (BitVec.ofNat 32 (leField r 16 4)).toInt, dur := leField r 20 4
    first := leField r 24 2, subs := leField r 26 2, flags := leField r 28 4, nals := leField r 32 2, nalLen := leField r 34 1 }

def tableLen (t : Bytes) : Nat := leField t 8 4
def tableCount (t : Bytes) : Nat := leField t 12 4
def tableSubs (t : Bytes) : Nat := leField t 16 4
def tablePayload (t : Bytes) : Nat := leField t 20 4
/-- Subsample entry `j`: clear bytes, protected bytes, reserved. -/
def tableSub (t : Bytes) (j : Nat) : Nat × Nat × Nat :=
  let e := t.drop (48 + 48 * tableCount t + 8 * j)
  (leField e 0 2, leField e 2 4, leField e 6 2)

/-- Subsample entries of a sample. -/
def sampleSubs (t : Bytes) (s : BrSample) : List (Nat × Nat × Nat) := (List.range s.subs).map fun j => tableSub t (s.first + j)

/-- The cause that a sample fails with in step 5 of R157, if any. -/
def sampleCause (t : Bytes) (i : Nat) : Option Nat :=
  let s := tableSample t i
  let subs := sampleSubs t s
  if leField (t.drop (48 + 48 * i)) 35 13 ≠ 0 ∨ !([0, 1, 2, 4].contains s.nalLen) then some 2
  else if 64 < s.subs then some 3
  else if tableSubs t < s.first + s.subs then some 2
  else if subs.any (fun e => decide (e.2.2 ≠ 0)) ∨ (s.subs ≠ 0 ∧ subs.foldl (fun a e => a + e.1 + e.2.1) 0 ≠ s.size) then some 2
  else if tablePayload t < s.off + s.size then some 8
  else none

/-- A table checked (R157): the cause and the sample index of the first failure. -/
def tableRefused (t : Bytes) (stored : Nat) : Option (Nat × Nat) :=
  if leField t 0 4 ≠ 0x4C545356 ∨ leField t 4 2 ≠ 1 ∨ leField t 6 2 ≠ 48 ∨ leField t 41 7 ≠ 0 ∨ leField t 24 4 = 0 then some (2, 0xFFFF)
  else if tableCount t = 0 ∨ 340 < tableCount t ∨ 1024 < tableSubs t ∨ 16384 < tableLen t then some (3, 0xFFFF)
  else if tableLen t ≠ 48 + 48 * tableCount t + 8 * tableSubs t + 4 ∨ tableLen t + tablePayload t ≠ stored then some (2, 0xFFFF)
  else if (crc32c (slice t 0 (tableLen t - 4))).toNat ≠ leField t (tableLen t - 4) 4 then some (2, 0xFFFF)
  else (List.range (tableCount t)).findSome? fun i => (sampleCause t i).map fun c => (c, i)

/-- True for a track header object that passes R552. -/
def trackHeaderOk (t : Bytes) (stored : Nat) : Bool :=
  leField t 0 4 = 0x48544C56 && leField t 4 2 = 1 && decide (leField t 6 1 ≤ 6 ∧ leField t 7 1 ≤ 2) && leField t 8 4 ≠ 0 &&
    leField t 14 2 = 0 && decide (stored ≤ 4096) && stored = 16 + leField t 12 2

end Sys2Proof.Machine
end

