-- ==== Sys2Proof/Machine/Braid.lean ====
section
/-! DEFINITION. Machine/Braid.lean: the template language and its two passes (R161 to R179, R184, R185): one interpreter over the image, the
object and the results of the program calls made so far. -/
namespace Sys2Proof.Machine

/-- What a pass works on. -/
structure BrCtx where
  /-- The profile image. -/
  img : Bytes
  /-- True in the assembly pass. -/
  asm : Bool
  /-- The object as SPLICE OBJECT copies it; zeros where it has not been decrypted. -/
  data : Bytes
  /-- Decoded length (R16). -/
  decoded : Nat
  /-- Object key. -/
  key : Nat
  /-- Key identifier of the content slot's generation (R166). -/
  kid : Bytes
  /-- Constant IV (R166). -/
  constIv : Bytes
  /-- The 8-byte IV that cenc uses for a sample (R193). -/
  sampleIv : Nat → Bytes
  /-- Bytes that each program call of the length pass announced. -/
  lens : List Nat
  /-- Bytes that each program call of the assembly pass emitted. -/
  outs : List Bytes

/-- A PES being built (R172). -/
structure BrPes where
  /-- PID register. -/
  reg : Nat
  /-- A of PES_OPEN. -/
  a : Nat
  /-- PTS. -/
  pts : Nat
  /-- DTS. -/
  dts : Nat
  /-- Sync sample. -/
  sync : Bool
  /-- Sample. -/
  sample : Nat
  /-- Payload length. -/
  len : Nat := 0
  /-- Payload, newest piece first. -/
  parts : List Bytes := []

/-- An active loop. -/
structure BrLoop where
  /-- Instruction of the LOOP. -/
  start : Nat
  /-- True over subsamples. -/
  sub : Bool
  /-- Current index. -/
  idx : Nat
  /-- Passes in all. -/
  count : Nat

/-- A range as it grows: length, protected, restart, sample (R177). -/
structure BrRange where
  /-- Length. -/
  len : Nat
  /-- Protected. -/
  prot : Bool
  /-- RESTART. -/
  restart : Bool
  /-- Sample. -/
  sample : Nat

/-- Where a pass stands. -/
structure BrState where
  /-- Next instruction. -/
  ip : Nat := 0
  /-- Bytes emitted. -/
  pos : Nat := 0
  /-- Pieces emitted, newest first. -/
  parts : List Bytes := []
  /-- Overwritten fields, oldest first. -/
  patches : List (Nat × Bytes) := []
  /-- Marks. -/
  marks : AMap Nat := []
  /-- Starts of the open boxes. -/
  boxes : List Nat := []
  /-- Active loops, innermost first. -/
  loops : List BrLoop := []
  /-- Continuity counters (R175). -/
  cc : Vector Nat 4 := Vector.replicate 4 0
  /-- The open PES. -/
  pes : Option BrPes := none
  /-- Ranges, newest first. -/
  ranges : List BrRange := []
  /-- Program calls made. -/
  calls : Nat := 0

/-- A program call that a pass waits for (R179, R336). -/
structure BrCall where
  /-- Sample index. -/
  sample : Nat
  /-- The sample's offset in the object and how many bytes of it are handed. -/
  at_ : Nat
  /-- Bytes handed. -/
  len : Nat
  /-- Entry number. -/
  entry : Nat
  /-- The 16 marks. -/
  marks : List Nat

/-- Why a pass stops before its end. -/
inductive BrStop where
  /-- Cause and sample index (R185). -/
  | cause (c sample : Nat)
  /-- The result of a program call is needed. -/
  | call (c : BrCall)

/-- A pass or a part of one. -/
abbrev Br (α : Type) := Except BrStop α

/-! ## The samples (R168) -/

/-- Samples of the object; none for a track header or a pass-through. -/
def brCount (c : BrCtx) : Nat := if imgTrack c.img || imgFamily c.img = 3 then 0 else tableCount c.data
/-- A sample; an empty one where the object has none. -/
def brSample (c : BrCtx) (i : Nat) : BrSample :=
  if i < brCount c then tableSample c.data i
  else { size := 0, off := 0, dt := 0, cto := 0, dur := 0, first := 0, subs := 0, flags := 0, nals := 0, nalLen := 0 }
/-- The samples in order. -/
def brSamples (c : BrCtx) : List BrSample := (List.range (brCount c)).map (brSample c)
/-- Index of the current sample: that of LOOP SAMPLES, else 0. -/
def curSample (s : BrState) : Nat := ((s.loops.find? fun l => !l.sub).map (·.idx)).getD 0
/-- Index of the current subsample. -/
def curSub (s : BrState) : Nat := ((s.loops.find? fun l => l.sub).map (·.idx)).getD 0
/-- True for a sync sample. -/
def isSync (x : BrSample) : Bool := !bit x.flags 16
/-- Timescale of the object. -/
def brScale (c : BrCtx) : Nat := if imgTrack c.img then leField c.data 8 4 else leField c.data 24 4
/-- A time rescaled to a target (R165). -/
def rescale (c : BrCtx) (v target : Nat) : Nat := v * target / max 1 (brScale c)
/-- A signed time in 90 kHz, with the offset of word 30, modulo 2^33 (R172). -/
def stamp33 (c : BrCtx) (v : Int) : Nat :=
  ((Int.fdiv (v * 90000) (max 1 (brScale c))) + imgParam c.img 30).emod (2 ^ 33) |>.toNat

/-- A cause with the sample index of R185: the current sample inside LOOP SAMPLES or for a sample-scoped kind, else 0xFFFF. -/
def brFail {α : Type} (s : BrState) (c : Nat) (bySample : Bool := false) : Br α :=
  .error (.cause c (if bySample || s.loops.any (fun l => !l.sub) then curSample s else 0xFFFF))

/-! ## Emitting -/

/-- The scheme marks ranges by sample (R178). -/
def sampleScheme (c : BrCtx) : Bool := imgScheme c.img = 1 || imgScheme c.img = 2

/-- Bytes put at the current position, without any range; the limit of R184. -/
def brRaw (c : BrCtx) (n : Nat) (bs : Bytes) (s : BrState) : Br BrState :=
  let s' := { s with pos := s.pos + n, parts := if c.asm then padTo n bs :: s.parts else s.parts }
  if 8388608 < s'.pos then brFail s 4 else .ok s'

/-- A range added: clear ranges merge, and empty ones are never written (R178). -/
def brRange (c : BrCtx) (r : BrRange) (s : BrState) : Br BrState :=
  if !sampleScheme c || r.len = 0 then .ok s
  else
    let rs := match s.ranges with
      | x :: xs => if !x.prot && !r.prot then { x with len := x.len + r.len } :: xs else r :: s.ranges
      | [] => [r]
    if 16384 < rs.length then brFail s 5 else .ok { s with ranges := rs }

/-- Bytes emitted: into the PES while one is open, else clear into the output (R164, R178). -/
def brPut (c : BrCtx) (n : Nat) (bs : Bytes) (s : BrState) : Br BrState :=
  match s.pes with
  | some p => .ok { s with pes := some { p with len := p.len + n, parts := if c.asm then padTo n bs :: p.parts else p.parts } }
  | none => do
    let s1 ← brRaw c n bs s
    brRange c { len := n, prot := false, restart := false, sample := 0 } s1

/-! ## Length-prefixed samples (R171, R178) -/

/-- Offsets of the length prefixes that a walk meets; none where they do not cover the sample exactly.  The first argument bounds it. -/
def nalWalk (bs : Bytes) (w : Nat) : Nat → Nat → Option (List Nat)
  | 0, p => if p = bs.length then some [] else none
  | k + 1, p =>
    if p = bs.length then some []
    else if bs.length < p + w then none
    else
      let next := p + w + beNat (slice bs p w)
      if bs.length < next then none else (nalWalk bs w k next).map (p :: ·)

/-- The stored bytes of a sample. -/
def sampleBytes (c : BrCtx) (x : BrSample) : Bytes := slice c.data (tableLen c.data + x.off) x.size

/-- Length prefixes of a sample: exactly its NAL count of them, else NAL_WALK. -/
def samplePrefixes (c : BrCtx) (x : BrSample) (s : BrState) : Br (List Nat) :=
  match nalWalk (sampleBytes c x) x.nalLen x.size 0 with
  | some ps => if ps.length = x.nals then .ok ps else brFail s 9 true
  | none => brFail s 9 true

/-- Size of a sample as SAMPLE (0) or ANNEXB (1) emits it. -/
def emittedSize (x : BrSample) (b : Nat) : Nat := if b = 1 ∧ x.nalLen ≠ 0 then x.size + 4 * x.nals - x.nalLen * x.nals else x.size

/-- A sample with start codes in place of its prefixes. -/
def annexB (bs : Bytes) (w : Nat) (ps : List Nat) : Bytes :=
  ((ps.zip ((ps.drop 1) ++ [bs.length])).map fun pq => [0, 0, 0, 1] ++ (bs.take pq.2).drop (pq.1 + w)).flatten

/-- Clear bytes of a sample's subsamples as ANNEXB leaves them; a prefix outside one subsample's clear bytes is NAL_WALK (R178).  The
length pass does not read the prefixes: there the counts stand as stored. -/
def grownClears (c : BrCtx) (x : BrSample) (s : BrState) : Br (List Nat) :=
  let subs := sampleSubs c.data x
  let clears := subs.map (·.1)
  if x.nalLen = 0 || !c.asm then .ok clears
  else do
    let ps ← samplePrefixes c x s
    let bounds := (subs.foldl (fun (a : Nat × List (Nat × Nat)) e => (a.1 + e.1 + e.2.1, a.2 ++ [(a.1, a.1 + e.1)])) (0, [])).2
    let inside (p : Nat) (b : Nat × Nat) : Bool := decide (b.1 ≤ p ∧ p + x.nalLen ≤ b.2)
    if ps.all fun p => bounds.any (inside p) then
      .ok (bounds.map fun b => b.2 - b.1 + 4 * (ps.filter fun p => inside p b).length - x.nalLen * (ps.filter fun p => inside p b).length)
    else brFail s 9 true

/-! ## Fields (R165) -/

/-- A value of a field: a number that must fit its width, or bytes as they stand. -/
inductive BrValue where
  | num (v : Int)
  | raw (bs : Bytes)

/-- The ADTS header of a sample (R165, ISO/IEC 13818-7). -/
def adtsWord (x : BrSample) (w : Nat) : Nat :=
  let head := 0xFFF * 2 ^ 4 + 1
  let a := ((head * 4 + w % 4) * 16 + bits w 11 8) * 2
  let b := ((a * 8 + bits w 18 16) * 16) * 2 ^ 13 + (7 + x.size)
  (b * 2 ^ 11 + 0x7FF) * 4

/-- The value of a kind (R165, R193). -/
def brValue (c : BrCtx) (s : BrState) (kind width b : Nat) : Br BrValue :=
  let x := brSample c (curSample s)
  let p := imgParam c.img
  let n (v : Nat) : Br BrValue := .ok (.num v)
  match kind with
  | 0x01 => n (bits c.key 63 40 + p b)
  | 0x02 => let dt := leField c.data 28 8; n (if p b = 0 then dt else rescale c dt (p b))
  | 0x03 | 0x17 => n (brCount c)
  | 0x04 => n (emittedSize x b)
  | 0x05 => match (brSamples c).findIdx? (fun y => y.dur ≠ (brSample c 0).dur) with
    | some i => .error (.cause 7 i)
    | none => n (brSample c 0).dur
  | 0x06 => n x.dur
  | 0x07 => n x.flags
  | 0x08 => if b = 1 then .ok (.num x.cto) else n (BitVec.ofInt 32 x.cto).toNat
  | 0x09 => n x.subs
  | 0x0A => if b = 1 then do
      let cs ← grownClears c x s
      n (cs.getD (curSub s) 0)
    else n (tableSub c.data (x.first + curSub s)).1
  | 0x0B => n (tableSub c.data (x.first + curSub s)).2.1
  | 0x0C => n ((if imgScheme c.img = 1 then 8 else 0) + (if b = 1 then 2 + 6 * x.subs else 0))
  | 0x0D => .ok (.raw (padTo width (c.sampleIv (curSample s))))
  | 0x0E => .ok (.raw (padTo 16 c.kid))
  | 0x0F => .ok (.raw (padTo 16 c.constIv))
  | 0x10 => n (if p b = 0 then bits c.key 39 32 else p b)
  | 0x11 => n ((brSamples c).foldl (fun a y => a + emittedSize y b) 0)
  | 0x12 => n (p b)
  | 0x14 => let y := brSample c 0; n (stamp33 c (y.dt + y.cto))
  | 0x15 => if 8191 < 7 + x.size then brFail s 6 true else .ok (.raw (beBytes 7 (adtsWord x (p b))))
  | 0x16 => .ok (.raw (slice c.data 16 (leField c.data 12 2)))
  | _ => let t := (brSamples c).foldl (fun a y => a + y.dur) 0; n (if p b = 0 then t else rescale c t (p b))

/-- The bytes of a field, most significant first; a value that does not fit is FIELD_OVERFLOW. -/
def brField (c : BrCtx) (s : BrState) (kind width b : Nat) : Br Bytes := do
  match ← brValue c s kind width b with
  | .raw bs => .ok bs
  | .num v => if v < 0 ∨ (2 ^ (8 * width) : Int) ≤ v then brFail s 6 (sampleKinds.contains kind) else .ok (beBytes width v.toNat)

/-- PATCH_AT (R164, R170). -/
def brPatch (c : BrCtx) (x : BrInstr) (s : BrState) : Br BrState := do
  let width := bits x.a 11 8
  let bs ← if x.sub = 0x13 then
      match mapGet s.marks (bits x.a 7 4), mapGet s.marks (bits x.a 3 0) with
      | some a, some b =>
        let v : Int := a - b + (BitVec.ofNat 32 x.b).toInt
        if v < 0 ∨ (2 ^ (8 * width) : Int) ≤ v then brFail s 6 else .ok (beBytes width v.toNat)
      | _, _ => brFail s 6
    else if (mapGet s.marks (bits x.a 15 12)).isNone then brFail s 6
    else brField c s x.sub width x.b
  match mapGet s.marks (bits x.a 15 12) with
  | some t => if s.pos < t + bs.length then brFail s 6 else .ok { s with patches := s.patches ++ [(t, bs)] }
  | none => brFail s 6

/-! ## Splices (R164, R171, R178) -/

/-- The ranges of a spliced sample. -/
def spliceRanges (c : BrCtx) (sample : Nat) : List (Nat × Nat) → Bool → BrState → Br BrState
  | [], _, s => .ok s
  | (clear, prot) :: es, first, s => do
    let s1 ← brRange c { len := clear, prot := false, restart := false, sample := sample } s
    let s2 ← brRange c { len := prot, prot := true, restart := first || imgScheme c.img = 2, sample := sample } s1
    spliceRanges c sample es (first && prot = 0) s2

/-- SPLICE (R164, R171, R178). -/
def brSplice (c : BrCtx) (mode : Nat) (s : BrState) : Br BrState :=
  if mode = 2 then brPut c c.decoded c.data s
  else do
    let x := brSample c (curSample s)
    let conv := mode = 1 && x.nalLen ≠ 0
    let bs ← if conv && c.asm then do
        let ps ← samplePrefixes c x s
        .ok (annexB (sampleBytes c x) x.nalLen ps)
      else .ok (if c.asm then sampleBytes c x else [])
    let n := emittedSize x (if conv then 1 else 0)
    if s.pes.isSome || !sampleScheme c then brPut c n bs s
    else do
      let s1 ← brRaw c n bs s
      if x.subs = 0 then brRange c { len := n, prot := true, restart := true, sample := curSample s } s1
      else do
        let clears ← if conv then grownClears c x s else .ok ((sampleSubs c.data x).map (·.1))
        spliceRanges c (curSample s) (clears.zip ((sampleSubs c.data x).map (·.2.1))) true s1

/-! ## MPEG-2 TS (R172 to R175, ISO/IEC 13818-1) -/

/-- A timestamp behind a 4-bit prefix. -/
def stampBytes (pre v : Nat) : Bytes :=
  [BitVec.ofNat 8 (pre * 16 + bits v 32 30 * 2 + 1)] ++ beBytes 2 (bits v 29 15 * 2 + 1) ++ beBytes 2 (bits v 14 0 * 2 + 1)

/-- The PES header; none where the length does not fit (R172). -/
def pesHeader (p : BrPes) : Option Bytes :=
  let mode := bits p.a 9 8
  let stamps := if mode = 3 then stampBytes 3 p.pts ++ stampBytes 1 p.dts else if mode = 2 then stampBytes 2 p.pts else []
  let rest : Bytes := [0x84, BitVec.ofNat 8 (mode * 64), BitVec.ofNat 8 stamps.length] ++ stamps
  let len := rest.length + p.len
  if bit p.a 10 then some ([0, 0, 1] ++ leBytes 1 p.a ++ [0, 0] ++ rest)
  else if 65535 < len then none else some ([0, 0, 1] ++ leBytes 1 p.a ++ beBytes 2 len ++ rest)

/-- The 4-byte packet header: PUSI, PID, adaptation control, counter (R173 step 1). -/
def tsHeader (pusi : Bool) (pid afc cc : Nat) : Bytes :=
  [0x47] ++ beBytes 2 ((if pusi then 0x4000 else 0) + pid % 8192) ++ leBytes 1 (afc * 16 + cc % 16)

/-- The flags and PCR of a first packet's adaptation field, without its length byte; empty for none (R173 step 2). -/
def firstField (sync : Bool) (pcr : Option Nat) : Bytes :=
  match pcr with
  | some base => [if sync then 0x50 else 0x10] ++ beBytes 6 (base % 2 ^ 33 * 2 ^ 15 + 0x3F * 2 ^ 9)
  | none => if sync then [0x40] else []

/-- One packet's adaptation field for `room` payload bytes and the field's content (R173 steps 2 to 4). -/
def packetField (content : Bytes) (have_ : Nat) : Bytes :=
  let af := if content.isEmpty then 0 else content.length + 1
  if 184 - af ≤ have_ then (if af = 0 then [] else leBytes 1 (af - 1) ++ content)
  else
    let total := 184 - have_
    if total = 1 then [0]
    else
      let body := if content.isEmpty then [0] else content
      leBytes 1 (total - 1) ++ body ++ List.replicate (total - 1 - body.length) 0xFF

/-- A PES cut into packets; the first argument bounds the run (R173). -/
def packetise (pid : Nat) : Nat → Bytes → Bytes → Bool → Nat → Bytes
  | 0, _, _, _, _ => []
  | k + 1, pes, content, pusi, cc =>
    let field := packetField content pes.length
    let take := 184 - field.length
    tsHeader pusi pid (if field.isEmpty then 1 else 3) cc ++ field ++ pes.take take ++
      (if pes.length ≤ take then [] else packetise pid k (pes.drop take) [] false (cc + 1))

/-- Packets that a PES of `n` bytes takes behind a first field of `a` bytes (R173). -/
def packetCount (n a : Nat) : Nat := if n ≤ 184 - a then 1 else 1 + ceilDiv (n + a - 184) 184

/-- PID register of a number. -/
def pidReg (r : Nat) : Fin 4 := ⟨r % 4, Nat.mod_lt _ (by decide)⟩

/-- PES_OPEN (R172). -/
def brPesOpen (c : BrCtx) (x : BrInstr) (s : BrState) : BrState :=
  let y := brSample c (curSample s)
  { s with pes := some { reg := x.sub, a := x.a, pts := stamp33 c (y.dt + y.cto), dts := stamp33 c y.dt, sync := isSync y, sample := curSample s } }

/-- PES_CLOSE (R172, R173). -/
def brPesClose (c : BrCtx) (s : BrState) : Br BrState :=
  match s.pes with
  | none => .ok s
  | some p =>
    match pesHeader p with
    | none => .error (.cause 6 p.sample)
    | some h =>
      let s1 := { s with pes := none }
      let pcr := if imgParam c.img 28 = p.reg then some ((p.dts + 2 ^ 33 - imgParam c.img 29 % 2 ^ 33) % 2 ^ 33) else none
      let content := firstField p.sync pcr
      let n := packetCount (h.length + p.len) (if content.isEmpty then 0 else content.length + 1)
      let r := pidReg p.reg
      let pes := h ++ p.parts.reverse.flatten
      let bs := if c.asm then packetise (imgParam c.img (24 + p.reg)) n pes content true s.cc[r] else []
      brPut c (188 * n) bs { s1 with cc := s1.cc.set r ((s1.cc[r] + n) % 16) }

/-- TS_SECTION (R174). -/
def brSection (c : BrCtx) (x : BrInstr) (s : BrState) : Br BrState :=
  let r := pidReg x.sub
  let body := slice (imgConst c.img) x.b (x.a - 4)
  let sec := body ++ beBytes 4 (crc32mpeg body).toNat
  let pkt := tsHeader true (imgParam c.img (24 + x.sub)) 1 s.cc[r] ++ [0] ++ sec
  brPut c 188 (pkt ++ List.replicate (188 - pkt.length) 0xFF) { s with cc := s.cc.set r ((s.cc[r] + 1) % 16) }

/-! ## Control (R164, R168, R169) -/

/-- The instruction that ends what instruction `i` opens: the ENDLOOP, or the ELSE or ENDIF at its own depth. -/
def matchFrom (img : Bytes) : Nat → Nat → Nat → Nat
  | 0, i, _ => i
  | k + 1, i, depth =>
    let op := (imgInstr img i).op
    if op = 0x07 ∨ op = 0x09 then matchFrom img k (i + 1) (depth + 1)
    else if op = 0x08 ∨ op = 0x0B then (if depth = 0 then i else matchFrom img k (i + 1) (depth - 1))
    else if op = 0x0A ∧ depth = 0 then i
    else matchFrom img k (i + 1) depth

/-- The instruction after the one that ends what instruction `i` opens. -/
def skipFrom (c : BrCtx) (i : Nat) : Nat := matchFrom c.img (imgCount c.img) (i + 1) 0 + 1

/-- A condition (R169). -/
def brCond (c : BrCtx) (s : BrState) (x : BrInstr) : Bool :=
  let y := brSample c (curSample s)
  let v := match x.sub with
    | 0 => isSync y
    | 1 => decide (curSample s = 0)
    | 2 => decide (curSample s + 1 = brCount c)
    | 3 => decide (y.subs ≠ 0)
    | 4 => decide (imgScheme c.img ≠ 0)
    | _ => (brSamples c).any fun z => z.cto ≠ 0
  v != bit x.a 0

/-- LOOP (R164, R168). -/
def brLoop (c : BrCtx) (x : BrInstr) (s : BrState) : BrState :=
  let n := if x.sub = 0 then brCount c else (brSample c (curSample s)).subs
  if n = 0 then { s with ip := skipFrom c s.ip }
  else { s with ip := s.ip + 1, loops := { start := s.ip, sub := x.sub ≠ 0, idx := 0, count := n } :: s.loops }

/-- ENDLOOP. -/
def brEndLoop (s : BrState) : BrState :=
  match s.loops with
  | [] => { s with ip := s.ip + 1 }
  | l :: ls =>
    if l.idx + 1 < l.count then { s with ip := l.start + 1, loops := { l with idx := l.idx + 1 } :: ls }
    else { s with ip := s.ip + 1, loops := ls }

/-- CALL: the result that the program has given, or the call that is due (R179). -/
def brCallOp (c : BrCtx) (x : BrInstr) (s : BrState) : Br BrState :=
  let y := brSample c (curSample s)
  let call : BrCall :=
    { sample := curSample s, at_ := tableLen c.data + y.off, len := if imgTrack c.img then 0 else min (1024 * x.a) y.size
      entry := x.b, marks := (List.range 16).map fun m => mapGetD s.marks m 0 }
  let s1 := { s with calls := s.calls + 1 }
  if c.asm then
    match c.outs[s.calls]? with
    | none => .error (.call call)
    | some bs => if bs.length = c.lens.getD s.calls 0 then brPut c bs.length bs s1 else brFail s 0x0B
  else
    match c.lens[s.calls]? with
    | none => .error (.call call)
    | some n => brPut c n [] s1

/-- One instruction (R164). -/
def brStep (c : BrCtx) (s : BrState) : Br BrState :=
  let x := imgInstr c.img s.ip
  let next (r : Br BrState) : Br BrState := r.map fun t => { t with ip := s.ip + 1 }
  match x.op with
  | 0x00 => .ok { s with ip := imgCount c.img }
  | 0x01 => next (brPut c x.a (slice (imgConst c.img) x.b x.a) s)
  | 0x02 => next (do
      let bs ← brField c s x.sub x.a x.b
      brPut c bs.length bs s)
  | 0x03 => next (brPut c 8 (leBytes 4 0 ++ beBytes 4 x.b) { s with boxes := s.pos :: s.boxes })
  | 0x04 => match s.boxes with
    | b :: bs => next (.ok { s with boxes := bs, patches := s.patches ++ [(b, beBytes 4 (s.pos - b))] })
    | [] => next (.ok s)
  | 0x05 => next (.ok { s with marks := mapSet s.marks x.a s.pos })
  | 0x06 => next (brPatch c x s)
  | 0x07 => .ok (brLoop c x s)
  | 0x08 => .ok (brEndLoop s)
  | 0x09 => .ok { s with ip := if brCond c s x then s.ip + 1 else skipFrom c s.ip }
  | 0x0A => .ok { s with ip := skipFrom c s.ip }
  | 0x0C => next (brSplice c x.sub s)
  | 0x0D => next (.ok (brPesOpen c x s))
  | 0x0E => next (brPesClose c s)
  | 0x0F => next (brSection c x s)
  | 0x10 => next (brCallOp c x s)
  | 0x11 => next (brPut c x.a (List.replicate x.a (BitVec.ofNat 8 x.b)) s)
  | _ => next (.ok s)

/-- Instructions that one pass may execute (R184). -/
def stepLimit : Nat := 4194304

/-- A pass run to its end; the first argument bounds its instructions (R184). -/
def brRun (c : BrCtx) : Nat → BrState → Br BrState
  | 0, s => if imgCount c.img ≤ s.ip then .ok s else brFail s 0x0C
  | k + 1, s => if imgCount c.img ≤ s.ip then .ok s else do
    let t ← brStep c s
    brRun c k t

/-- Bytes that a scheme adds (R167). -/
def brOverhead (scheme len : Nat) : Nat := if scheme = 3 then 16 - len % 16 else if scheme = 4 then 28 else 0

/-- What a pass gives: the assembled length, the ranges with their offsets, and the bytes of an assembly pass (R167, R177, R178). -/
structure BrResult where
  /-- Assembled length. -/
  len : Nat
  /-- Ranges as offset and range. -/
  ranges : List (Nat × BrRange)
  /-- Assembled bytes. -/
  out : Bytes

/-- Ranges given their offsets. -/
def placeRanges : Nat → List BrRange → List (Nat × BrRange)
  | _, [] => []
  | o, r :: rs => (o, r) :: placeRanges (o + r.len) rs

/-- The end of a pass (R167, R178, R184). -/
def brResult (c : BrCtx) (s : BrState) : Br BrResult :=
  if 8388608 < s.pos + brOverhead (imgScheme c.img) s.pos then .error (.cause 4 0xFFFF)
  else
    let whole : List BrRange := if s.pos = 0 then [] else [{ len := s.pos, prot := imgScheme c.img ≠ 0, restart := imgScheme c.img ≠ 0, sample := 0 }]
    .ok { len := s.pos, ranges := placeRanges 0 (if sampleScheme c then s.ranges.reverse else whole)
          out := s.patches.foldl (fun o p => overlay o p.1 p.2) s.parts.reverse.flatten }

/-- A whole pass over a template (R167). -/
def brPass (c : BrCtx) : Br BrResult := do
  let s ← brRun c stepLimit {}
  brResult c s

/-- The table or header of an object checked before any instruction runs (R157, R185, R552); none where it passes. -/
def objectRefused (img data : Bytes) (stored : Nat) : Option (Nat × Nat) :=
  if imgFamily img = 3 then none
  else if imgTrack img then (if trackHeaderOk data stored then none else some (0x0A, 0xFFFF))
  else tableRefused data stored

end Sys2Proof.Machine
end

