-- ==== Sys2Proof/Machine/Estuary.lean ====
section
/-! DEFINITION. Machine/Estuary.lean: the queues of the transcrypt units, the shadow compare and its retry, units taken offline, and the
session schemes (R24, R186 to R196, R213 to R215, R219, R220). -/
namespace Sys2Proof.Machine

/-! ## What a request still has to pass through its unit -/

/-- Stored length rounded up to a whole number of AES blocks (R191). -/
def atRestLength (o : ObjRec) : Nat := roundUp o.stored 16

/-- Data units of an object. -/
def unitCount (stored : Nat) : Nat := ceilDiv stored 4096

/-- Bytes of data unit `u` at rest. -/
def unitLen (o : ObjRec) (u : Nat) : Nat := min 4096 (atRestLength o - 4096 * u)

/-- Bytes that a request has queued on the decrypt pipeline (R24). -/
def decryptLeft (r : Req) : Nat := if r.op < 2 then atRestLength r.obj - r.plain.foldl (fun a kv => a + kv.2.length) 0 else 0


/-- Bytes that a request has queued on the encrypt pipeline (R24, R186). -/
def encryptLeft (r : Req) : Nat :=
  if r.op = 2 then r.len - r.cipher.foldl (fun a kv => a + kv.2.length) 0
  else if imgScheme r.image = 0 then 0
  else (r.ranges.drop r.rangesDone).foldl (fun a b => a + (if b.prot then b.len else 0)) 0

/-- Bytes queued on a unit: on both pipelines for a Stream Read, on the encrypt pipeline for a Put (R24, R186). -/
def bytesQueued (d : Dev) (u : Nat) (put : Bool) : Nat :=
  d.reqs.foldl (fun a kr => if kr.2.unit = some u then a + encryptLeft kr.2 + (if put then 0 else decryptLeft kr.2) else a) 0

/-- The unit a request is assigned to: fewer bytes queued, A when equal; 2 for the byte-serial core (R24, R186, R220). -/
def chooseUnit (d : Dev) (put : Bool) : Nat :=
  match unitsOnline d with
  | [] => 2
  | [u] => u.val
  | _ => if bytesQueued d 1 put < bytesQueued d 0 put then 1 else 0

/-- A descriptor taken on a unit, or a place in its queue (R187); the byte-serial core has no queue. -/
def joinUnit (tag u : Nat) (d : Dev) : Dev :=
  if 2 ≤ u then d
  else
    let i : Fin 2 := if u = 0 then 0 else 1
    modifyEstuary i (fun e =>
      if e.held.contains tag then e
      else if e.held.length < 48 then { e with held := e.held ++ [tag], waiting := e.waiting.filter (· ≠ tag) }
      else if e.waiting.contains tag then e
      else { e with waiting := e.waiting ++ [tag] }) d

/-- True when a request may use its unit: it holds a descriptor there, or runs in the byte-serial core (R187, R220). -/
def holdsUnit (d : Dev) (tag : Nat) (r : Req) : Bool :=
  match r.unit with
  | none => false
  | some u => 2 ≤ u || d.keys.estuary.any fun e => e.held.contains tag

/-- A request assigned at its first need, and its descriptor taken when there is room (R24, R187, R215). -/
def assignUnit (tag : Nat) (d : Dev) : Dev :=
  match mapGet d.reqs tag with
  | none => d
  | some r =>
    match r.unit with
    | some u => joinUnit tag u d
    | none =>
      let u := chooseUnit d (r.op = 2)
      let d1 := if u = 2 then gaugeCount 0x04D d else d
      joinUnit tag u (modifyReq tag (fun r => { r with unit := some u }) d1)

/-! ## Descriptor (R188) -/


/-- The session key a request uses. -/
def sessKey (d : Dev) (r : Req) : Option KeyGen := r.sess.bind fun p => slotGen d p.1 p.2

/-- The Estuary descriptor of a request as it stands; `at_` holds the Pool addresses of the staging region and of the lists in it, which the
spec leaves to the VL7 (log entry 1). -/
def estuaryDescriptor (d : Dev) (tag : Nat) (r : Req) (at_ : Bytes) : Bytes :=
  let u := r.unit.getD 0
  let flags := (if r.obj.compressed then 1 else 0) + (if r.retried then 2 else 0) + (if u = 2 then 4 else 0) +
    (if (sessKey d r).any (·.explicitIv) then 8 else 0)
  let scheme := imgScheme r.image
  let slotField (x : Option (Nat × Nat)) (present : Nat) : Bytes :=
    match x with
    | some (n, g) => leBytes 2 (n + present) ++ leBytes 2 g
    | none => leBytes 4 0
  leBytes 4 tag ++ leBytes 1 (if r.op = 2 then 1 else 0) ++ leBytes 1 (if r.op = 2 then 0 else scheme) ++
    leBytes 1 flags ++ leBytes 1 (if u = 1 then 1 else 0) ++ slotField r.store 0 ++ slotField r.sess 32768 ++
    leBytes 4 (leField at_ 0 4 / 4096 * 4096) ++ leBytes 4 (atRestLength r.obj) ++ leBytes 4 (r.asmLen.getD 0) ++ slice at_ 4 4 ++ leBytes 2 r.ranges.length ++
    leBytes 1 (match r.asmLen with
      | some n => brOverhead scheme n
      | none => 0) ++ leBytes 1 0 ++ (if r.op < 2 ∧ scheme = 1 then slice at_ 8 4 else leBytes 4 0) ++ leBytes 3 (keyFragment r.key) ++ leBytes 1 0 ++ leBytes 8 (r.gcm.getD 0) ++
    leBytes 11 (objTweak r.key 0) ++ leBytes 1 0

/-! ## Shadow compare (R213 to R215) -/

/-- The log record of a compare failure or of a unit taken offline (R526 class 0x02). -/
def estuaryRecord (tag unit pipeline block code : Nat) (r : Req) (d : Dev) : Dev :=
  let (at_, d) := drawBytes 12 d
  let desc := estuaryDescriptor d tag r at_
  logError 0x02 3 code (if code = 3 then 0x04B else if unit = 1 then 0x04A else 0x049)
    (leBytes 4 tag ++ leBytes 1 unit ++ leBytes 1 pipeline ++ leBytes 4 block) d (conts := [slice desc 0 32, slice desc 32 32])

/-- True when a request's key use on its unit has begun (R209, R215). -/
def keyUseBegun (r : Req) : Bool := if r.op = 2 then !r.cipher.isEmpty else !r.plain.isEmpty

/-- A Stream Read sent back to step 3 of its path with its bindings, on the other unit when that is online (R214). -/
def restartReq (tag : Nat) (d : Dev) : Dev :=
  let d1 := leaveRiffle tag (leaveEstuary tag (dropCallsOf tag d))
  modifyReq tag (fun r =>
    { r with
      retried := true, step := .path, cipher := [], plain := [], unit := none, asmLen := none, passAt := none, inflated := none, lenCalls := [], asmCalls := []
      calling := false, inBraid := false, asm := none, ranges := [], rangesDone := 0, output := [], gcm := none, riffle := none }) d1

/-- The unit that a retry takes: the other one when online, else the same one when online, else the byte-serial core (R214). -/
def retryUnit (d : Dev) (u : Nat) : Nat :=
  let on (v : Nat) : Bool := (unitsOnline d).any fun w => w.val = v
  if on (1 - u) && decide (u < 2) then 1 - u else if on u then u else 2

/-- True when the generations that a request has bound are still in the key store (R210, R212). -/
def bindingsLive (d : Dev) (r : Req) : Bool := [r.store, r.sess].all fun b => b.all fun p => (slotGen d p.1 p.2).isSome

/-- A retry uses its storage generation again where the decrypt half had released it (R209, R214). -/
def retakeStore (tag : Nat) (r : Req) (d : Dev) : Dev :=
  match r.store with
  | some (n, g) =>
    if r.storeUse then d
    else modifyReq tag (fun r => { r with storeUse := true }) (modifyGen n g (fun k => { k with inUse := k.inUse + 1 }) d)
  | none => d

/-- The retry of a Stream Read begun: on a unit, or in the byte-serial core for a clear profile; any other scheme ends it as Unit Absent
(R214), and a bound generation that is gone as Key Revoked (R212). -/
def retryRead (tag u : Nat) (r : Req) (d : Dev) : Dev :=
  let v := retryUnit d u
  if !bindingsLive d r then finishReq tag stRevoked d
  else if v = 2 ∧ imgScheme r.image ≠ 0 then finishReq tag stUnit d
  else
    let d1 := modifyReq tag (fun r => { r with unit := some v }) (restartReq tag (retakeStore tag r d))
    joinUnit tag v (if v = 2 then gaugeCount 0x04D d1 else d1)

/-- A request moved off a unit that went offline: a queued one just changes unit, one whose key use had begun retries (R215). -/
def moveOff (u : Nat) (tag : Nat) (d : Dev) : Dev :=
  match mapGet d.reqs tag with
  | none => d
  | some r =>
    if r.unit ≠ some u then d
    else if keyUseBegun r && r.op < 2 then
      (if r.retried then finishReq tag stPoison (bump 0x580008 d) else retryRead tag u r d)
    else
      let v := retryUnit d u
      if v = 2 ∧ r.op < 2 ∧ imgScheme r.image ≠ 0 then finishReq tag stUnit (leaveEstuary tag d)
      else
        let d1 := modifyReq tag (fun r => { r with unit := some v, retried := r.retried || keyUseBegun r }) (leaveEstuary tag d)
        joinUnit tag v (if v = 2 then gaugeCount 0x04D d1 else d1)

/-- A unit taken offline: its requests move (R215). -/
def takeOffline (u : Fin 2) (tag pipeline block : Nat) (r : Req) (d : Dev) : Dev :=
  let d1 := modifyEstuary u (fun e => { e with state := 1 }) (gaugeCount 0x04B d)
  let d2 := estuaryRecord tag u.val pipeline block 3 r d1
  ((d2.reqs.filter fun kr => kr.2.unit = some u.val && kr.1 ≠ tag).map Prod.fst).foldl (fun d t => moveOff u.val t d) d2

/-- A compare failure counted: the record, the counters, and the unit offline at the fourth failure of a pipeline within 1 s (R214, R215,
R221).  The byte-serial core's own check has no unit to count in (R219). -/
def countCompareFail (tag pipeline block : Nat) (r : Req) (d : Dev) : Dev :=
  let u := r.unit.getD 2
  if 2 ≤ u then estuaryRecord tag u pipeline block (if r.retried then 2 else 1) r d
  else
    let i : Fin 2 := if u = 0 then 0 else 1
    let p : Fin 2 := if pipeline = 0 then 0 else 1
    let d1 := bump (if u = 0 then 0x580005 else 0x580006) (gaugeCount (if u = 0 then 0x049 else 0x04A) d)
    let d2 := estuaryRecord tag u pipeline block (if r.retried then 2 else 1) r d1
    let times := (d2.tm :: d2.keys.estuary[i].failures[p]).filter fun t => decide (d2.tm < t + 1000000000)
    let d3 := modifyEstuary i (fun e => { e with failures := e.failures.set p times }) d2
    if 4 ≤ times.length ∧ d3.keys.estuary[i].state = 0 then takeOffline i tag pipeline block r d3 else d3

/-- A Stream Read whose compare failed: one retry, then Integrity Poison (R214). -/
def readCompareFail (tag pipeline block : Nat) (r : Req) (d : Dev) : Dev :=
  let d1 := countCompareFail tag pipeline block r d
  if r.retried then finishReq tag stPoison (bump 0x580008 d1) else retryRead tag (r.unit.getD 2) r d1

/-! ## Session schemes (R193 to R196) -/

/-- IV of a sample under cenc, as 8 bytes (R193). -/
def sampleIv (r : Req) (sample : Nat) : Bytes :=
  beBytes 8 (keyTrack r.key % 256 * 2 ^ 56 + keyFragment r.key % 2 ^ 24 * 2 ^ 32 + keyClass r.obj.key % 16 * 2 ^ 28 +
    sample % 512 * 2 ^ 19 + keyTitle r.key % 2 ^ 19)

/-- Protected bytes that the ranges before range `i` have taken from its sample's keystream (R193). -/
def streamUsed (rs : List BraidRange) (i : Nat) : Nat :=
  (rs.take i).foldl (fun a r => if r.prot then (if r.restart then r.len else a + r.len) else a) 0

/-- One completed range under the request's scheme: the bytes that stand in its place, overhead included (R167, R193 to R196). -/
def encryptRange (d : Dev) (r : Req) (i : Nat) (b : BraidRange) (bs : Bytes) : Bytes :=
  match sessKey d r with
  | none => bs
  | some k =>
    if !b.prot then bs
    else
      match imgScheme r.image with
      | 1 =>
        let used := if b.restart then 0 else streamUsed r.ranges i
        xorBytes bs ((ctrStream k.key (sampleIv r b.sample) (used + bs.length)).drop used)
      | 2 =>
        let whole := bs.length / 16 * 16
        (withKeys k.key fun rk => cbcsBlocks rk 0 k.iv (blocks16 (bs.take whole))) ++ bs.drop whole
      | 3 =>
        let iv := if k.explicitIv then k.iv else beBytes 16 (keyFragment r.key)
        withKeys k.key fun rk => cbcChain rk iv (blocks16 (pkcs7 bs))
      | 4 =>
        let nonce := k.iv.take 4 ++ beBytes 8 (r.gcm.getD 0)
        let (ct, tag) := gcmEnc k.key nonce bs
        nonce ++ ct ++ tag
      | _ => bs

end Sys2Proof.Machine
end

