-- ==== Sys2Proof/Machine/Placement.lean ====
section
/-! DEFINITION. Machine/Placement.lean: which member of a cascade holds a key, and the forwards a member sends (R508 to R516). -/
namespace Sys2Proof.Machine

/-- Cascade changed. -/
def modifyCas (f : Cascade → Cascade) (d : Dev) : Dev := { d with cas := f d.cas }

/-- Placement slot of a key: multiply mode mixes more fields (R509). -/
def placementSlot (mode key : Nat) : Nat :=
  if mode = 3 then (keyTitle key + 3 * keyTrack key + 5 * keyFragment key + 11 * keyKind key + keyTag key) % 64
  else (keyTitle key + keyFragment key) % 64

/-- True while this member takes part in a cascade (R505). -/
def inCascade (d : Dev) : Bool := d.cas.mode ≠ 0 && (d.cas.state = 1 || d.cas.state = 2 || d.cas.state = 3)

/-- Member that the placement table names for a key; none while no table has been formed (R511). -/
def tableMember (d : Dev) (key : Nat) : Option Nat :=
  let m := (d.cas.table.toList).getD (placementSlot d.cas.mode key) 0xFF
  if m = 0xFF then none else some m

/-- True for a key of a cascade namespace while this member takes part; other namespaces stay local (R510). -/
def cascadeKey (d : Dev) (key : Nat) : Bool :=
  inCascade d && match nsByTag d (keyTag key) with
    | some (_, n) => n.cascade
    | none => false

/-- The other member that a key belongs to, if another (R509, R511). -/
def remoteMember (d : Dev) (key : Nat) : Option Nat :=
  if cascadeKey d key then (tableMember d key).filter (· ≠ selfId d) else none

/-- True when a master is known and a member can be reached (R508, R511). -/
def memberUp (d : Dev) (m : Nat) : Bool :=
  (d.cas.state = 3 || (d.cas.state = 2 && d.cas.master ≠ 0xFF)) && match mapGet d.cas.members m with
    | some k => k.state = 2 || k.state = 3
    | none => false

/-- True on a member that must ask the master's index (R509, R513). -/
def asksIndex (d : Dev) : Bool := inCascade d && d.cas.mode = 1 && d.cas.state ≠ 3

/-- A forward recorded and its message sent; an index lookup is no forward and is not counted (R502, R513, R516). -/
def startForward (f : Forward) (kind : Nat) (fields : List Nat) (d : Dev) : Nat × Dev :=
  let t := d.cas.nextTag
  let d1 := modifyCas (fun c => { c with nextTag := t + 1, forwards := mapSet c.forwards t { f with since := d.tm } }) d
  (t, sendFlit kind f.member (t :: fields) (if f.kind = 4 then d1 else bump 0x802001 (gaugeCount 0x00E d1)))

/-- A forward that has ended. -/
def endForward (t : Nat) (d : Dev) : Dev := modifyCas (fun c => { c with forwards := mapErase c.forwards t }) d

/-- The four key dwords as a message carries them. -/
def keyFields (key : Nat) : List Nat := [bits key 31 0, bits key 63 32, bits key 95 64, bits key 127 96]

end Sys2Proof.Machine
end

