-- ==== Sys2Proof/Machine/RiffleCodec.lean ====
section
/-! DEFINITION. Machine/RiffleCodec.lean: the Riffle stream format (R224 to R235): decoder with its errors, and the compressor. -/
namespace Sys2Proof.Machine

/-! ## Decoder (R224 to R231) -/

/-- The end of a decode: the bytes of every good block, the input consumed by them, and the first error as (code, failing block, byte
offset), code 0 for none. -/
structure RiffleResult where
  /-- Output of the good blocks. -/
  out : Bytes
  /-- Input bytes up to the end of the last good block. -/
  consumed : Nat
  /-- Error code of R230, 0 for none. -/
  code : Nat := 0
  /-- Index of the failing block. -/
  block : Nat := 0
  /-- Offset of the failing byte. -/
  offset : Nat := 0
  /-- The last terminator met was 0xFF. -/
  ended : Bool := false
  deriving DecidableEq, Repr

/-- Where a block's body ended: its bytes, the position after them and the terminator; or an error with its offset. -/
inductive RiffleBlock where
  /-- A whole block: decoded bytes newest first, position after the terminator, terminator. -/
  | good (rev : Bytes) (pos : Nat) (term : Nat)
  /-- An error code at an offset. -/
  | bad (code offset : Nat)
  deriving DecidableEq, Repr

/-- `len` bytes copied from `dist` back, each read after the one before is written; newest first (R229). -/
def echoCopy (dist : Nat) : Nat → Bytes → Bytes
  | 0, rev => rev
  | n + 1, rev => echoCopy dist n (rev.getD (dist - 1) 0 :: rev)

/-- A token that writes `len` bytes: it must not pass the block's length or the stream's limit (R230 code 3). -/
def fitsBlock (len have_ want room : Nat) : Bool := decide (have_ + len ≤ want ∧ have_ + len ≤ room)

/-- The tokens of a block (R228).  Arguments: fuel, the input from the present byte, its offset, bytes decoded newest first and their
number, the block's length, and the bytes the stream may still decode to. -/
def riffleTokens : Nat → Bytes → Nat → Bytes → Nat → Nat → Nat → RiffleBlock
  | 0, _, pos, _, _, _, _ => .bad 4 pos
  | _ + 1, [], pos, _, _, _, _ => .bad 4 pos
  | fuel + 1, b :: rest, pos, rev, n, want, room =>
    let c := b.toNat
    let fail := RiffleBlock.bad 4 (pos + 1 + rest.length)
    let literal (len skip : Nat) : RiffleBlock :=
      if !fitsBlock len n want room then .bad 3 pos
      else
        let body := (rest.drop skip).take len
        if body.length < len then fail
        else riffleTokens fuel (rest.drop (skip + len)) (pos + 1 + skip + len) (body.reverse ++ rev) (n + len) want room
    let fill (len skip : Nat) : RiffleBlock :=
      match rest.drop skip with
      | [] => fail
      | x :: rest' =>
        if !fitsBlock len n want room then .bad 3 pos
        else riffleTokens fuel rest' (pos + 2 + skip) (List.replicate len x ++ rev) (n + len) want room
    let echo (len skip : Nat) : RiffleBlock :=
      match rest.drop skip with
      | lo :: hi :: rest' =>
        let op := lo.toNat + 256 * hi.toNat
        let dist := bits op 11 0 + 1
        if bits op 15 12 ≠ 0 then .bad 1 pos
        else if n < dist then .bad 2 pos
        else if !fitsBlock len n want room then .bad 3 pos
        else riffleTokens fuel rest' (pos + 3 + skip) (echoCopy dist len rev) (n + len) want room
      | _ => fail
    let long (k : Nat → Nat → RiffleBlock) : RiffleBlock :=
      match rest with
      | lo :: hi :: _ => k (lo.toNat + 256 * hi.toNat + 1) 2
      | _ => fail
    if c < 0x40 then literal (c + 1) 0
    else if c < 0x80 then fill (c - 0x40 + 3) 0
    else if c < 0xC0 then echo (c - 0x80 + 4) 0
    else if c = 0xC0 then long literal
    else if c = 0xC1 then long fill
    else if c = 0xC2 then long echo
    else if c < 0xFD then .bad 1 pos
    else if c = 0xFE ∧ want < 65536 then .bad 1 pos
    else if n < want then .bad 4 pos
    else .good rev (pos + 1) c

/-- A RAW body with its terminator (R225, R230). -/
def riffleRaw (rest : Bytes) (pos want room : Nat) : RiffleBlock :=
  if room < want then .bad 3 pos
  else
    let body := rest.take want
    if body.length < want then .bad 4 (pos + rest.length)
    else match rest.drop want with
      | [] => .bad 4 (pos + want)
      | t :: _ =>
        if t.toNat < 0xFD then .bad 1 (pos + want)
        else if t.toNat = 0xFE ∧ want < 65536 then .bad 1 (pos + want)
        else .good body.reverse (pos + want + 1) t.toNat

/-- The blocks of a stream (R224).  Arguments: fuel, the whole input, position, block index, output so far (chunks newest first) and its
length, the limit on the output, whether the input may end after 0xFD or 0xFE, and the exact length wanted, if any. -/
def riffleBlocks : Nat → Bytes → Nat → Nat → List Bytes → Nat → Nat → Bool → Option Nat → RiffleResult
  | 0, _, pos, k, acc, _, _, _, _ => { out := acc.reverse.flatten, consumed := pos, code := 4, block := k, offset := pos }
  | fuel + 1, input, pos, k, acc, have_, limit, cont, exact =>
    let stop (code off : Nat) : RiffleResult :=
      { out := acc.reverse.flatten, consumed := pos, code := code, block := sat 0xFFFF k, offset := off }
    let rest := input.drop pos
    if rest.length < 4 then stop 4 input.length
    else
      let hdr := leNat (rest.take 4)
      if crc8 (rest.take 3) ≠ BitVec.ofNat 8 (bits hdr 31 24) ∨ bits hdr 23 17 ≠ 0 then stop 5 pos
      else
        let want := if bits hdr 15 0 = 0 then 65536 else bits hdr 15 0
        let body := rest.drop 4
        let r := if bit hdr 16 then riffleRaw body (pos + 4) want (limit - have_)
          else riffleTokens (body.length + 1) body (pos + 4) [] 0 want (limit - have_)
        match r with
        | .bad code off => stop code off
        | .good rev pos' term =>
          let acc' := rev.reverse :: acc
          let n := have_ + want
          let done : RiffleResult :=
            { out := acc'.reverse.flatten, consumed := pos', ended := decide (term = 0xFF) }
          if term = 0xFF then
            if pos' < input.length then { done with code := 1, block := sat 0xFFFF k, offset := pos' }
            else if exact.any (n < ·) then { done with code := 4, block := sat 0xFFFF k, offset := pos' }
            else done
          else if pos' = input.length then
            if cont then done else { done with code := 4, block := sat 0xFFFF (k + 1), offset := pos' }
          else riffleBlocks fuel input pos' (k + 1) acc' n limit cont exact

/-- Decode a stream.  `recorded` is the length recorded at Object Put, when there is one; no stream decodes past 8 MiB (R230). -/
def riffleDecode (input : Bytes) (cont : Bool) (recorded : Option Nat) : RiffleResult :=
  riffleBlocks (input.length + 1) input 0 0 [] 0 (min (recorded.getD 8388608) 8388608) cont recorded

/-! ## Compressor (R233 to R235) -/

/-- Length of the run of equal bytes at the front. -/
def runLength : Bytes → Nat
  | [] => 0
  | b :: bs => (bs.takeWhile (· = b)).length + 1

/-- Length of the common beginning of two byte strings. -/
def commonPrefix : Bytes → Bytes → Nat
  | a :: as, b :: bs => if a = b then commonPrefix as bs + 1 else 0
  | _, _ => 0

/-- Matches of 4 bytes or more at position `i` of a block: (distance, length) for distances up to 4,096 (R229, R233). -/
def riffleMatches (block : Bytes) (i : Nat) : List (Nat × Nat) :=
  ((List.range (min i 4096)).map fun k => (k + 1, commonPrefix (block.drop i) (block.drop (i - (k + 1))))).filter
    fun m => decide (4 ≤ m.2)

/-- The longest match; which of equally long ones the hash finds is not stated and stays free (R233). -/
def riffleBest (base i : Nat) (ms : List (Nat × Nat)) : Option (Nat × Nat) :=
  match (ms.map (·.2)).max? with
  | none => none
  | some l =>
    let cands := ms.filter (·.2 = l)
    cands[Config.riffleTie (base + i) cands.length % cands.length]?

/-- Literal tokens for some bytes: the short form up to 64, the long form above (R228). -/
def literalToken (bs : Bytes) : Bytes :=
  if bs.length = 0 then []
  else if bs.length ≤ 64 then BitVec.ofNat 8 (bs.length - 1) :: bs
  else 0xC0 :: leBytes 2 (bs.length - 1) ++ bs

/-- A fill token of `n` bytes `b`. -/
def fillToken (n : Nat) (b : Byte) : Bytes :=
  if n ≤ 66 then [BitVec.ofNat 8 (0x40 + (n - 3)), b] else 0xC1 :: leBytes 2 (n - 1) ++ [b]

/-- An echo token of length `n` and distance `dist`. -/
def echoToken (n dist : Nat) : Bytes :=
  if n ≤ 67 then BitVec.ofNat 8 (0x80 + (n - 4)) :: leBytes 2 (dist - 1)
  else 0xC2 :: leBytes 2 (n - 1) ++ leBytes 2 (dist - 1)

/-- The tokens of a block, chosen greedily (R233).  Arguments: fuel, offset of the block in the input, block, position, literals pending
(newest first), tokens so far. -/
def riffleEncode : Nat → Nat → Bytes → Nat → Bytes → Bytes → Bytes
  | 0, _, _, _, lits, out => out ++ literalToken lits.reverse
  | fuel + 1, base, block, i, lits, out =>
    match block.drop i with
    | [] => out ++ literalToken lits.reverse
    | b :: rest =>
      let run := runLength (b :: rest)
      let best := riffleBest base i (riffleMatches block i)
      let echoLen := (best.map (·.2)).getD 0
      if 3 ≤ run ∧ ¬ run < echoLen then
        riffleEncode fuel base block (i + run) [] (out ++ literalToken lits.reverse ++ fillToken run b)
      else match best with
        | some (dist, n) => riffleEncode fuel base block (i + n) [] (out ++ literalToken lits.reverse ++ echoToken n dist)
        | none => riffleEncode fuel base block (i + 1) (b :: lits) out

/-- One block with header and terminator; RAW when the tokens would not be shorter (R225, R233). -/
def riffleBlockOut (base : Nat) (block : Bytes) (term : Byte) : Bytes :=
  let toks := riffleEncode (block.length + 1) base block 0 [] []
  let raw := decide (block.length ≤ toks.length)
  let h := leBytes 3 (block.length % 65536 + if raw then 65536 else 0)
  h ++ [crc8 h] ++ (if raw then block else toks) ++ [term]

/-- The blocks of an input as the compressor emits them, with the input length of each (R233, R235). -/
def riffleCompress (flush : Bool) : Nat → Nat → Bytes → List (Nat × Bytes)
  | 0, _, _ => []
  | fuel + 1, base, input =>
    if input.length = 0 then []
    else
      let block := input.take 65536
      let rest := input.drop 65536
      let term : Byte :=
        if rest.length ≠ 0 then 0xFE
        else if flush then (if block.length = 65536 then 0xFE else 0xFD)
        else 0xFF
      (block.length, riffleBlockOut base block term) :: riffleCompress flush fuel (base + block.length) rest

end Sys2Proof.Machine
end

