-- ==== Sys2Proof/Machine/Riffle.lean ====
section
/-! DEFINITION. Machine/Riffle.lean: the two Riffle instances: program descriptors (R239 to R241), their completion and the counters
(R231, R243). -/
namespace Sys2Proof.Machine

/-- Bytes written to any memory, DRAM line by line (R386). -/
def storeMem (key : Nat) (bs : Bytes) (d : Dev) : Dev :=
  if dramBase ≤ key then
    (List.range (ceilDiv (bs.length + key % 64) 64)).foldl (fun d i =>
      let from_ := if i = 0 then 0 else 64 * i - key % 64
      let piece := (bs.drop from_).take (if i = 0 then 64 - key % 64 else 64)
      dramStore (key + from_ - dramBase) piece .clean d) d
  else storeBytes key bs .clean d

/-- The memory key of `len` bytes at a core address for an engine: the core's apertures, and in user mode its windows (R282). -/
def resolveFor (d : Dev) (n : CoreId) (addr64 len : Nat) (store : Bool) : Option Nat :=
  if 2 ^ 32 ≤ addr64 ∨ 2 ^ 32 < addr64 + len then none
  else
    let a := BitVec.ofNat 32 addr64
    if userMode d.cores[n] && !windowAllows d.cores[n] a len store then none
    else match coreTarget d n a, coreTarget d n (a + BitVec.ofNat 32 (len - 1)) with
      | .mem k, .mem k' => if k' = k + (len - 1) then some k else none
      | _, _ => none

/-- An instance changed. -/
def modifyRiffle (i : Fin 2) (f : RiffleUnit → RiffleUnit) (d : Dev) : Dev :=
  { d with riffle := d.riffle.set i (f d.riffle[i]) }

/-- The descriptor that a queue-register store names, as the instance takes it (R239, R282). -/
def takeDescriptor (d : Dev) (n : CoreId) (addr64 : Nat) : RiffleJob :=
  let desc := resolveFor d n addr64 64 false
  match desc with
  | none => { core := n, desc := none, op := 0, cont := false, srcLen := 0, src := none, dst := none, cap := 0, bad := false, poison := false }
  | some k =>
    let b := memGet d k 64
    let op := leField b 0 1
    let flags := leField b 1 1
    let srcLen := leField b 4 4
    let cap := leField b 24 4
    let reserved := leField b 2 2 ≠ 0 || leField b 28 4 ≠ 0 || leField b 46 2 ≠ 0 || leField b 56 8 ≠ 0 || 2 ≤ flags
    { core := n
      desc := desc
      op := op
      cont := bit flags 0
      srcLen := srcLen
      src := resolveFor d n (leField b 8 8) srcLen false
      dst := resolveFor d n (leField b 16 8) (max cap 1) true
      cap := cap
      bad := reserved || decide (addr64 % 64 ≠ 0 ∨ 2 < op ∨ srcLen = 0 ∨ 8388608 < srcLen)
      poison := anyPoison d k 64 }

/-- A queue-register store publishes a descriptor; none where the queue is full and the core stalls (R241). -/
def publishDescriptor (i : Fin 2) (n : CoreId) (addr64 : Nat) (d : Dev) : Option Dev :=
  if 64 ≤ d.riffle[i].jobs.length then none
  else some (modifyRiffle i (fun u => { u with jobs := u.jobs ++ [takeDescriptor d n addr64] }) d)

/-- What a descriptor comes to: status, consumed, produced bytes, failing block and offset (R240). -/
structure RiffleDone where
  /-- Status code. -/
  status : Nat
  /-- Input consumed. -/
  consumed : Nat := 0
  /-- Output of the good blocks. -/
  out : Bytes := []
  /-- Failing block. -/
  block : Nat := 0
  /-- Failing offset. -/
  offset : Nat := 0
  deriving DecidableEq, Repr

/-- Decompress or check within a capacity; a capacity met before an error of the stream is DEST_FULL (R240). -/
def runDecode (input : Bytes) (cont : Bool) (cap : Option Nat) : RiffleDone :=
  let r0 := riffleDecode input cont none
  let r1 := match cap with
    | none => r0
    | some c => riffleBlocks (input.length + 1) input 0 0 [] 0 (min c 8388608) cont none
  if r1.code = r0.code ∧ r1.offset = r0.offset then
    { status := r1.code, consumed := r1.consumed, out := r1.out, block := if r1.code = 0 then 0 else r1.block, offset := r1.offset }
  else { status := 0x10, consumed := r1.consumed, out := r1.out }

/-- Compress within a capacity: the blocks that fit (R233, R240). -/
def runCompress (input : Bytes) (flush : Bool) (cap : Nat) : RiffleDone :=
  let blocks := riffleCompress flush (input.length + 1) 0 input
  let fit := blocks.foldl (fun (acc : Nat × Bytes × Bool) b =>
    if acc.2.2 && decide (acc.2.1.length + b.2.length ≤ cap) then (acc.1 + b.1, acc.2.1 ++ b.2, true) else (acc.1, acc.2.1, false))
    (0, [], true)
  { status := if fit.2.2 then 0 else 0x10, consumed := fit.1, out := fit.2.1 }

/-- The input of a job up to its first poisoned word, and whether there is one. -/
def cleanInput (d : Dev) (key len : Nat) : Bytes × Bool :=
  match (wordsOf key len).find? (isPoisoned d) with
  | none => (memGet d key len, false)
  | some w => (memGet d key (4 * w - key), true)

/-- The result of a job (R239, R240). -/
def runJob (d : Dev) (j : RiffleJob) : RiffleDone :=
  if j.desc = none then { status := 0x11 }
  else if j.poison then { status := 0x12 }
  else if j.bad then { status := 0x13 }
  else match j.src, (if j.op = 2 then some 0 else j.dst) with
    | some src, some _ =>
      let (input, poisoned) := cleanInput d src j.srcLen
      let r :=
        if j.op = 1 then
          if poisoned then runCompress (input.take (input.length / 65536 * 65536)) true j.cap else runCompress input j.cont j.cap
        else runDecode input (j.cont || poisoned) (if j.op = 0 then some j.cap else none)
      if poisoned && (r.status = 0 || r.status = 4) then { r with status := 0x12, block := 0 } else r
    | _, _ => { status := 0x11 }

/-- Decoder errors counted and logged (R231). -/
def countDecodeError (i : Fin 2) (code block offset tag : Nat) (key : Bytes) (d : Dev) : Dev :=
  logError 0x03 2 code (0x033 + code)
    (leBytes 4 tag ++ leBytes 4 block ++ leBytes 8 offset ++ padTo 16 key)
    (gaugeCount (0x033 + code) (bump (objKey (0x6810 + i.val) (5 + code)) d))

/-- The oldest descriptor of an instance completes: output, results, then Status with DONE, then the event to the core (R240). -/
def finishDescriptor (i : Fin 2) (d : Dev) : Dev :=
  match d.riffle[i].jobs with
  | [] => d
  | j :: rest =>
    let d0 := modifyRiffle i (fun u => { u with jobs := rest }) d
    let r := runJob d0 j
    let out := if j.op = 2 then [] else r.out
    let d1 := match j.dst with
      | some k =>
        if j.op = 2 ∨ r.status = 0x11 ∨ r.status = 0x13 ∨ (r.status = 0x12 ∧ j.poison) then d0
        else if r.status = 0 then storeMem k out d0
        else
          let (junk, d') := drawBytes (j.cap - out.length) d0
          storeMem k (out ++ junk) d'
      | none => d0
    let unit := objKey (0x6810 + i.val)
    let d2 := addNum (unit 5) r.out.length (addNum (unit 4) r.consumed d1)
    let d3 :=
      if 1 ≤ r.status ∧ r.status ≤ 5 then countDecodeError i r.status r.block r.offset 0 [] d2
      else if 0x10 ≤ r.status then gaugeCount (r.status + 0x29) (bump (unit 0x0B) d2)
      else d2
    let d4 := match j.desc with
      | some k =>
        storeMem (k + 32) (leBytes 4 (r.status + 2 ^ 31))
          (storeMem (k + 36) (leBytes 4 r.consumed ++ leBytes 4 r.out.length ++ leBytes 2 r.block)
            (storeMem (k + 48) (leBytes 8 d3.tm) d3))
      | none => d3
    latchSource j.core 4 d4

end Sys2Proof.Machine
end

