-- ==== Sys2Proof/Machine/Delivery.lean ====
section
/-! DEFINITION. Machine/Delivery.lean: the Delivery commands but Stream Read (R122 to R139, R145 to R155): sessions, Object Put, Evict,
Lookup, Fence and the lookup windows. -/
namespace Sys2Proof.Machine

/-- A Delivery command with its common field checks: NSID 0 where it takes none, CDW3 and an unused CDW2 zero (R122, R123). -/
def deliveryCmd (c : Cmd) (takesNs takesLen : Bool) (f : Dev → Dev) (d : Dev) : Dev :=
  ioCmd c (fun d =>
    if (!takesNs && c.nsid ≠ 0) || c.cdw3 ≠ 0 || (!takesLen && c.cdw2 ≠ 0) then done c stField d else f d) d

/-- The object key of CDW12 to CDW15 (R135). -/
def cmdKey (c : Cmd) : Nat := c.cdw12 + c.cdw13 * 2 ^ 32 + c.cdw14 * 2 ^ 64 + c.cdw15 * 2 ^ 96

/-- Reserved bits of a key are 0 (R12). -/
def keyClean (k : Nat) : Bool := bits k 79 72 = 0 && bits k 127 96 = 0

/-- CDW2 as R124 wants it. -/
def lengthOk (n : Nat) : Bool := n % 4 = 0 && decide (4 ≤ n ∧ n ≤ 8388608)

/-! ## Sessions (R129 to R134) -/

/-- The slots a Session Open names, with their types (R129, R130). -/
def openSlots (c : Cmd) : List (Nat × Nat) :=
  (if bit c.cdw10 15 then [(bits c.cdw10 12 0, 1)] else []) ++ (if bit c.cdw10 31 then [(bits c.cdw10 28 16, 2)] else [])

/-- The index that Session Open takes: one never used, else the one freed longest ago (R130). -/
def takeIndex (d : Dev) : Option (Nat × Sessions) :=
  if d.sess.fresh < poolTotal d .sessions then some (d.sess.fresh, { d.sess with fresh := d.sess.fresh + 1 })
  else match d.sess.freed with
    | [] => none
    | i :: is => some (i, { d.sess with freed := is })

/-- The incarnation after one: 1 to 65,535, never 0 (R19). -/
def nextInc (n : Nat) : Nat := if n + 1 < 65536 then n + 1 else 1

/-- The partition 1 entry of a labelled session (R256). -/
def labelSession (ctrl label handle : Nat) (d : Dev) : Dev :=
  if label = 0 then d
  else match eddyInsert 1 (BitVec.ofNat 128 (label + ctrl % 65536 * 2 ^ 32)) 0x80 (BitVec.ofNat 128 handle) d with
    | (some _, d1) => d1
    | (none, d1) => gaugeCount 0x043 (bump 0x600007 d1)

/-- Session Open after its field checks (R130). -/
def openSessionCmd (c : Cmd) (d : Dev) : Dev :=
  let slots := openSlots c
  if !(zeroBits c.cdw10 14 13 && zeroBits c.cdw10 30 29 && zeroBits c.cdw12 31 16 && zeroFrom 13 c) then done c stField d
  else if slots.any (fun s => !(keySlot d s.1).allocated || (keySlot d s.1).owner ≠ c.ctrl) then done c stRevoked d
  else if slots.any (fun s => (keySlot d s.1).type ≠ s.2) then done c stField d
  else match withinLimit d .sessions c.ctrl, takeIndex d with
    | true, some (i, t) =>
      let inc := nextInc (mapGetD t.incs i 0)
      let s : Session :=
        { inc := inc, ctrl := c.ctrl, content := if bit c.cdw10 15 then some (bits c.cdw10 12 0) else none
          transport := if bit c.cdw10 31 then some (bits c.cdw10 28 16) else none
          label := c.cdw11, idle := bits c.cdw12 15 0, opened := d.tm }
      let d1 := { d with sess := { t with tab := mapSet t.tab i s, incs := mapSet t.incs i inc } }
      done c stOk (gaugeCount 0x006 (labelSession c.ctrl c.cdw11 (handleOf i inc) d1)) (dw0 := handleOf i inc)
    | _, _ => done c stTableFull d

/-- SESSION_OPEN: opcode 80h (R129, R130). -/
def execSessionOpen (c : Cmd) (s : State) : Host.Outcome State Fault Refusal :=
  run (deliveryCmd (withOp 0x80 c) false false (openSessionCmd (withOp 0x80 c))) s

/-- The open session of a handle that belongs to a controller (R20, R115). -/
def sessionFor (d : Dev) (ctrl handle : Nat) : Option Session := (openSession d handle).filter (·.ctrl = ctrl)

/-- Session Close after its field checks (R132). -/
def closeSessionCmd (c : Cmd) (d : Dev) : Dev :=
  if !zeroFrom 11 c then done c stField d
  else match sessionFor d c.ctrl c.cdw10 with
    | none => done c stSession d
    | some s => done c stOk (closeSession (c.cdw10 % 65536) d) (dw0 := s.inFlight)

/-- SESSION_CLOSE: opcode 84h (R132). -/
def execSessionClose (c : Cmd) (s : State) : Host.Outcome State Fault Refusal :=
  run (deliveryCmd (withOp 0x84 c) false false (closeSessionCmd (withOp 0x84 c))) s

/-- A slot field with its present bit (R134). -/
def slotWord (s : Option Nat) : Nat :=
  match s with
  | some n => n % 8192 + 32768
  | none => 0

/-- The 64-byte session record (R134). -/
def sessionRecord (handle : Nat) (s : Session) : Bytes :=
  leBytes 4 handle ++ leBytes 4 s.label ++ leBytes 2 (slotWord s.content) ++ leBytes 2 (slotWord s.transport) ++ leBytes 2 s.idle ++
    leBytes 2 (sat 65535 s.inFlight) ++ leBytes 8 s.opened ++ leBytes 8 s.lastAdm ++ leBytes 8 s.completed ++ leBytes 8 s.bytes ++
    leBytes 16 0

/-- Session Query after its field checks (R134). -/
def querySession (c : Cmd) (d : Dev) : Dev :=
  if !zeroFrom 11 c then done c stField d
  else match sessionFor d c.ctrl c.cdw10 with
    | none => done c stSession d
    | some s => withData c (fun d => done c stOk (sendData c (sessionRecord c.cdw10 s) d)) d

/-- SESSION_QUERY: opcode 8Ah (R134). -/
def execSessionQuery (c : Cmd) (s : State) : Host.Outcome State Fault Refusal :=
  run (deliveryCmd (withOp 0x8A c) false false (querySession (withOp 0x8A c))) s

/-- True when a session has passed its idle timeout (R133). -/
def sessionIdle (now : Nat) (s : Session) : Bool :=
  s.isOpen && s.idle ≠ 0 && decide (max s.lastAdm s.opened + s.idle * 1000000000 ≤ now)

/-- SESSION_IDLE_CHECK: the check of every second (R133). -/
def execSessionIdleCheck (now : Nat) (s : State) : Host.Outcome State Fault Refusal :=
  run (fun d =>
    let d0 := advanceTo now d
    ((d0.sess.tab.filter fun ks => sessionIdle d0.tm ks.2).map Prod.fst).foldl
      (fun d i => closeSession i (gaugeCount 0x008 (bump 0x501003 d))) d0) s

/-! ## Eddy's index (R22, R252, R255) -/

/-- The object record that an exact search of partition 0 finds, with its entry (R255). -/
def findObject (key : Nat) (bad : List Nat) (d : Dev) : Option (EddyHit × Nat × ObjRec) × Dev :=
  match eddySearch 0 0 (BitVec.ofNat 128 key) bad d with
  | (none, d1) => (none, d1)
  | (some h, d1) =>
    match mapGet d1.media.store.objs (bits h.entry.data.toNat 31 0) with
    | some o => (some (h, bits h.entry.data.toNat 31 0, o), d1)
    | none => (none, d1)

/-! ## Object Put: admission (R135 to R137) -/

/-- Puts in flight whose object this member stores. -/
def localPuts (d : Dev) : List Req := (d.reqs.filter fun kr => kr.2.op = 2 && (kr.2.ctrl = 0 || kr.2.remote.isNone)).map Prod.snd

/-- Units of a class that an object's ciphertext takes (R191, R356). -/
def objUnits (cls stored : Nat) : Nat := ceilDiv (roundUp stored 16) (unitBytes cls)

/-- Puts in flight that will take a new entry. -/
def newEntryPuts (d : Dev) : List Req := (localPuts d).filter fun r => (objByKey d r.key).isNone

/-- True when a new entry fits: partition 0 has one free and the function's limit has room, Puts in flight counted (R114, R137, R255). -/
def entryRoom (d : Dev) (ctrl : Nat) : Bool :=
  let waiting := newEntryPuts d
  let mine (id : Nat) : Bool := if isPf d ctrl then !(match getCtrl d id with
    | some c => c.vf ≠ 0
    | none => false) else id = ctrl
  let extra := (waiting.filter fun r => mine r.obj.charged).length
  decide (partValid d 0 + waiting.length < indexSize d) &&
    match getCtrl d ctrl with
    | none => ctrl = 0
    | some c =>
      if c.vf = 0 then decide (pfUse d .entries + extra < poolRemainder d .entries)
      else c.poolState = 1 && decide (poolUse d .entries ctrl + extra < vfLimit d c .entries)

/-- True when a namespace has room for `k` more units, Puts in flight counted (R137, R375). -/
def spaceRoom (d : Dev) (n : Namespace) (k : Nat) : Bool :=
  let waiting := ((localPuts d).filter fun r => keyTag r.key = n.tag).foldl (fun a r => a + r.obj.units) 0
  decide (usedUnits d n + waiting + k ≤ n.ncap * 4096 / unitBytes n.iu)

/-- Capacity check of a Put stored here (R137 check 4). -/
def putFits (d : Dev) (ctrl key : Nat) (n : Namespace) (stored : Nat) : Bool :=
  spaceRoom d n (objUnits n.iu stored) && ((objByKey d key).isSome || entryRoom d ctrl)

/-- The storage slot of a Put: the bound one, or the one that a first Put names; the status where that fails (R136, R137 check 3). -/
def putSlot (d : Dev) (key : Nat) (skp : Bool) (named : Nat) : Except Status Nat :=
  match mapGet d.media.titles (keyTag key * 2 ^ 32 + keyTitle key) with
  | some b => if skp && named ≠ b.slot then .error stField else .ok b.slot
  | none => if skp then .ok named else .error stRevoked

/-- A slot is a loaded storage slot. -/
def storageLoaded (d : Dev) (n : Nat) : Bool :=
  let s := keySlot d n
  s.allocated && s.type = 0 && s.current.isSome

/-- A title bound to its storage slot, where it is not bound yet (R136, R206). -/
def bindTitle (key slot : Nat) (d : Dev) : Dev :=
  let k := keyTag key * 2 ^ 32 + keyTitle key
  match mapGet d.media.titles k, (keySlot d slot).current with
  | none, some g => modifyMedia (fun m => { m with titles := mapSet m.titles k { slot := slot, kcv := g.kcv } }) d
  | _, _ => d

/-- The record that a Put will store (R356). -/
def putRecord (key cls stored version slot charged : Nat) (compressed : Bool) : ObjRec :=
  { key := key, base := 0, units := objUnits cls stored, compressed := compressed, stored := stored, decoded := 0, version := version
    slot := slot, charged := charged, storedAt := 0 }

/-- The next request tag (R188). -/
def takeTag (d : Dev) : Nat × Dev := (d.host.nextTag, { d with host := { d.host with nextTag := d.host.nextTag + 1 } })

/-- Another member that a key is placed on: none, or the member and whether it can be reached (R508, R511). -/
def placedOn (d : Dev) (key : Nat) : Option (Nat × Bool) := (remoteMember d key).map fun m => (m, memberUp d m)

/-- KCV of a slot's current generation. -/
def slotKcv (d : Dev) (n : Nat) : Nat :=
  match (keySlot d n).current with
  | some g => g.kcv
  | none => 0

/-- A Put admitted: its slot's generation bound, and its data fetched (R23, R138, R209, R514). -/
def admitPut (c : Cmd) (key cls slot : Nat) (remote : Option Nat) (d : Dev) : Dev :=
  let comp := bit c.cdw10 16
  let (tag, d1) := takeTag d
  let (g, d2) := bindGen slot d1
  let r : Req :=
    { ctrl := c.ctrl, sq := c.sq, cid := c.cid, op := 2, step := .arriving, key := key, nsid := c.nsid, len := c.cdw2
      obj := putRecord key cls c.cdw2 c.cdw11 slot c.ctrl comp, store := g.map (slot, ·), storeUse := g.isSome }
  match remote with
  | none => bindTitle key slot { d2 with reqs := mapSet d2.reqs tag r }
  | some m =>
    let (t, d3) := startForward { member := m, req := some tag, kind := 1, key := key, since := 0 } 3
      ([1, c.nsid, c.cdw2, slot, slotKcv d2 slot, c.cdw11, if comp then 1 else 0] ++ keyFields key) d2
    { d3 with reqs := mapSet d3.reqs tag { r with remote := some (m, t) } }

/-- Object Put: the checks of R137 in order. -/
def putCmd (c : Cmd) (d : Dev) : Dev :=
  let k := cmdKey c
  let comp := bit c.cdw10 16
  if !(lengthOk c.cdw2 && zeroBits c.cdw10 14 13 && zeroBits c.cdw10 31 17 && keyClean k && decide (keyKind k < 6)) || (comp && decide (keyKind k < 2))
  then done c stField d
  else nsCmd c 2 (fun n d => withData c (fun d =>
    let key := withTag k n.tag
    if comp && d.variant = .vl7e then done c stUnit d
    else match putSlot d key (bit c.cdw10 15) (bits c.cdw10 12 0) with
      | .error st => done c st d
      | .ok slot =>
        if !storageLoaded d slot then done c stRevoked d
        else match placedOn d key with
          | some (_, false) => done c stNotReady d
          | some (m, true) => admitPut c key n.iu slot (some m) d
          | none => if putFits d c.ctrl key n c.cdw2 then admitPut c key n.iu slot none d else done c stCapacity d) d) d

/-- OBJECT_PUT: opcode 81h (R135 to R137). -/
def execObjectPut (c : Cmd) (s : State) : Host.Outcome State Fault Refusal :=
  run (deliveryCmd (withOp 0x81 c) true true (putCmd (withOp 0x81 c))) s

/-! ## Object Put: its data (R138, R186, R189, R191, R213, R214, R236, R359) -/

/-- The instance with fewer bytes queued, A when equal (R236, R237). -/
def chooseRiffle (d : Dev) : Fin 2 :=
  let queued (i : Fin 2) : Nat := d.riffle[i].delivery.foldl (fun a p => a + p.2) 0
  if queued 1 < queued 0 then 1 else 0

/-- A request given its Riffle instance with its bytes (R236, R237). -/
def joinRiffle (tag bytes : Nat) (d : Dev) : Dev :=
  let i := chooseRiffle d
  modifyReq tag (fun r => { r with riffle := some i.val }) (modifyRiffle i (fun u => { u with delivery := u.delivery ++ [(tag, bytes)] }) d)

/-- Riffle instance of a number. -/
def riffleIdx (n : Nat) : Fin 2 := if n = 0 then 0 else 1

/-- A Put's plaintext from its start as far as it has arrived without a gap: the first argument bounds the data units. -/
def putPrefix (m : AMap Bytes) : Nat → Nat → Bytes
  | 0, _ => []
  | k + 1, u => match mapGet m u with
    | some b => b ++ putPrefix m k (u + 1)
    | none => []

/-- What the check-mode decoder says of the part that has arrived: an error, or the decoded length once all is in (R138, R236). -/
def putCheck (r : Req) : Option RiffleResult × Option Nat :=
  let bs := putPrefix r.putUnits (unitCount r.len) 0
  let res := riffleDecode bs false none
  if res.code = 0 then (none, if bs.length = r.len then some res.out.length else none)
  else if res.code = 4 ∧ bs.length < r.len ∧ bs.length ≤ res.offset then (none, none)
  else (some res, none)

/-- A decoder error of a delivery or Put request: counted, logged, and the request ends (R231, R236). -/
def failRiffle (tag : Nat) (r : Req) (res : RiffleResult) (d : Dev) : Dev :=
  let i := riffleIdx (r.riffle.getD 0)
  let unit := objKey (0x6810 + i.val)
  let d1 := addNum (unit 5) res.out.length (addNum (unit 4) res.consumed d)
  finishReq tag stRiffle (countDecodeError i res.code res.block res.offset tag (leBytes 16 r.key) d1) (dw0 := res.code + 65536 * res.block)
    (record := false)

/-- The key use of a Put ends with its last compare: its generation and its descriptor are released (R187, R209). -/
def endPutKey (tag : Nat) (d : Dev) : Dev :=
  match mapGet d.reqs tag with
  | none => d
  | some r =>
    if r.storeUse && unitCount r.len ≤ r.cipher.length then
      match r.store with
      | some (n, g) => releaseGen n g (leaveEstuary tag (modifyReq tag (fun r => { r with storeUse := false }) d))
      | none => d
    else d

/-- The decoded length of a Put known; a compressed one leaves its Riffle instance, which counts its bytes (R138, R236, R243). -/
def endPutCheck (tag : Nat) (r : Req) (n : Nat) (d : Dev) : Dev :=
  let d1 := modifyReq tag (fun r => { r with obj := { r.obj with decoded := n } }) d
  if r.obj.compressed then
    let unit := objKey (0x6810 + r.riffle.getD 0)
    leaveRiffle tag (addNum (unit 5) n (addNum (unit 4) r.len d1))
  else d1

/-- Data unit `u` of a Put encrypted; for an object of another member its ciphertext is sent there (R15, R191, R514). -/
def encryptPutUnit (tag u : Nat) (d : Dev) : Dev :=
  match mapGet d.reqs tag with
  | none => d
  | some r =>
    match mapGet r.putUnits u, r.store.bind (fun p => slotGen d p.1 p.2), mapGet r.cipher u with
    | some b, some g, none =>
      let ct := xtsEnc g.key (objTweak r.key u) (padTo (roundUp b.length 16) b)
      let d1 := endPutKey tag (modifyReq tag (fun r => { r with cipher := mapSet r.cipher u ct }) d)
      match r.remote with
      | some (m, t) => sendFlit 4 m (t :: u :: r.obj.decoded :: ct.map (·.toNat)) d1
      | none => d1
    | _, _, _ => d

/-- Every data unit of a Put that has arrived and may pass the unit encrypted. -/
def encryptArrived (tag : Nat) (d : Dev) : Dev :=
  match mapGet d.reqs tag with
  | none => d
  | some r => if holdsUnit d tag r then (r.putUnits.map Prod.fst).foldl (fun d u => encryptPutUnit tag u d) d else d

/-- A Put whose unit's compare failed: one retry of the data unit, then Integrity Poison (R214). -/
def putCompareFail (tag u : Nat) (d : Dev) : Dev :=
  match mapGet d.reqs tag with
  | none => d
  | some r =>
    let d1 := countCompareFail tag 1 (256 * u) r d
    if r.retried then finishReq tag stPoison (bump 0x580008 d1)
    else
      let v := retryUnit d1 (r.unit.getD 2)
      let d2 := modifyReq tag (fun r => { r with retried := true, unit := some v }) (leaveEstuary tag d1)
      joinUnit tag v (if v = 2 then gaugeCount 0x04D d2 else d2)

/-- PUT_DATA_ARRIVAL: data unit `u` of a Put arrives from the host, is checked by Riffle and encrypted; `fails` is how many compares of
it fail (R138, R189, R213, R214, R236). -/
def putArrival (tag u fails : Nat) (data : Bytes) (d : Dev) : Dev :=
  match mapGet d.reqs tag with
  | none => d
  | some r =>
    if r.op ≠ 2 ∨ r.step ≠ .arriving ∨ r.ctrl = 0 ∨ unitCount r.len ≤ u then d
    else
      let fresh := (mapGet r.putUnits u).isNone
      let b := padTo (min 4096 (r.len - 4096 * u)) data
      let d1 := if fresh then modifyReq tag (fun r => { r with putUnits := mapSet r.putUnits u b }) d else d
      let d2 := if r.obj.compressed && r.riffle.isNone then joinRiffle tag r.len d1 else d1
      match mapGet d2.reqs tag with
      | none => d2
      | some r2 =>
        match (if r2.obj.compressed then putCheck r2 else (none, some r2.len)) with
        | (some res, _) => failRiffle tag r2 res d2
        | (none, dec) =>
          let d3 := match dec with
            | some n => if fresh then endPutCheck tag r2 n d2 else d2
            | none => d2
          let d4 := assignUnit tag d3
          let d5 := if fresh ∧ 1 ≤ fails then putCompareFail tag u d4 else d4
          let d6 := if fresh ∧ 2 ≤ fails then putCompareFail tag u d5 else d5
          encryptArrived tag d6

/-- PUT_DATA_ARRIVAL (R189). -/
def execPutDataArrival (tag u fails : Nat) (data : Bytes) (s : State) : Host.Outcome State Fault Refusal :=
  run (putArrival tag u fails data) s

/-! ## Object Put: the validate step (R31, R138, R139, R252, R356, R357) -/

/-- The ciphertext of a Put's flash unit `i`, with zeros behind the end. -/
def putFlashUnit (r : Req) (cls i : Nat) : Bytes :=
  let k := unitBytes cls / 4096
  padTo (unitBytes cls) ((List.range k).map fun j => mapGetD r.cipher (i * k + j) []).flatten

/-- A Put's flash units put into the write buffer in order while there is room; the second argument bounds the run (R359). -/
def placePut (tag cls ns : Nat) : Nat → Dev → Dev
  | 0, d => d
  | k + 1, d =>
    match mapGet d.reqs tag with
    | none => d
    | some r =>
      let i := r.entries.length
      if r.obj.units ≤ i || !canWrite d cls 1 then d
      else
        let (v, d1) := placeUnit ns cls i (putFlashUnit r cls i) false (modifyMedia (fun m => { m with hostWriteAt := d.tm }) d)
        placePut tag cls ns k (modifyReq tag (fun r => { r with entries := r.entries ++ [v] }) d1)

/-- The out-of-band logical units of a Put's flash units set once its run is fixed (R351). -/
def fixUnits (cls base : Nat) (vs : List (Option Nat)) (d : Dev) : Dev :=
  modifyMedia (fun m =>
    { m with units := (vs.zipIdx.foldl (fun us vi => match vi.1 with
        | some v => mapUpdate us (unitKey cls v) fun x => { x with lu := base + vi.2 }
        | none => us) m.units) }) d

/-- The entry of an object in partition 0: the new one validated in the slot that invalidates the old, or written in place where no address
is free (R252, R255); false where there is none to write. -/
def writeIndex (key rec : Nat) (o : ObjRec) (d : Dev) : Bool × Dev :=
  let old := indexAddrs d key
  let e : EddyEntry := { key := BitVec.ofNat 128 key, prio := 0x80, valid := true, data := objData rec o }
  match partFree d 0, old with
  | some a, [] => (true, putEntry a e (addNum 0x600005 3 d))
  | some a, b :: bs => (true, bs.foldl (fun d b => eddyInvalidate b d) (eddyClear b (putEntry a e (addNum 0x600005 3 d))))
  | none, b :: _ => (true, putEntry b e (addNum 0x600005 3 d))
  | none, [] => (false, d)

/-- The object of a Put stored: run, record, map entries and index entry change together; the completion's dword 1 (R138, R252). -/
def storeObject (tag : Nat) (r : Req) (n : Namespace) (d : Dev) : Option (Nat × Nat) × Dev :=
  match allocRun n r.obj.units d with
  | (none, d1) => (none, d1)
  | (some base, d1) =>
    let old := objByKey d1 r.key
    match (match old with
      | some (k, _) => some k
      | none => freeRec d1) with
    | none => (none, d1)
    | some k =>
      let o := { r.obj with base := base, storedAt := d1.tm, lastSeq := d1.media.seq + 1 }
      match writeIndex r.key k o d1 with
      | (false, d2) => (none, d2)
      | (true, d2) =>
        let runs := (match old with
          | some (_, x) => [(x.base, List.replicate x.units none)]
          | none => []) ++ [(base, r.entries)]
        let d3 := fixUnits n.iu base r.entries (journal (.object k (some o) n.idx runs) d2)
        let d4 := { d3 with reqs := mapValues d3.reqs fun t q => if t ≠ tag ∧ readsObject k q then { q with recNo := recGone } else q }
        (some (k, match old with
          | some (_, x) => if x.withdrawn then 2 else 1
          | none => 0), d4)

/-- A stored Put completed; in widen mode the master enters the object in its index first (R138, R509, R514). -/
def completePut (tag rec dw1 : Nat) (r : Req) (d : Dev) : Dev :=
  if cascadeKey d r.key && d.cas.mode ≠ 3 && d.cas.state ≠ 3 then
    (startForward { member := d.cas.master, req := some tag, kind := 4, key := r.key, since := 0 } 6
      ([1, rec, dw1] ++ keyFields r.key) (modifyReq tag (fun r => { r with step := .path, rangesDone := dw1 }) d)).2
  else
    let d1 := if cascadeKey d r.key && d.cas.mode ≠ 3 then modifyCas (fun c => { c with index := mapSet c.index r.key (selfId d, rec) }) d else d
    finishReq tag stOk (if r.ctrl = 0 then d1 else gaugeCount 0x003 d1) (dw0 := r.obj.decoded) (dw1 := dw1)

/-- OBJECT_PUT_VALIDATE: nothing happens while data are missing, or room in the write buffer, or another member stores the object. -/
def validatePut (tag : Nat) (d : Dev) : Dev :=
  match mapGet d.reqs tag with
  | none => d
  | some r =>
    if r.op ≠ 2 ∨ r.step ≠ .arriving ∨ r.cipher.length < unitCount r.len ∨ (r.ctrl ≠ 0 ∧ r.remote.isSome) then d
    else match nsByTag d (keyTag r.key) with
      | none => finishReq tag stNamespace d
      | some (_, n) =>
        let d1 := placePut tag n.iu n.idx r.obj.units d
        match mapGet d1.reqs tag with
        | none => d1
        | some r1 =>
          if r1.entries.length < r1.obj.units then d1
          else match storeObject tag r1 n d1 with
            | (none, d2) => finishReq tag stCapacity d2
            | (some (k, dw1), d2) => background (completePut tag k dw1 r1 d2)

/-- OBJECT_PUT_VALIDATE (R138). -/
def execObjectPutValidate (tag now : Nat) (s : State) : Host.Outcome State Fault Refusal :=
  run (fun d => validatePut tag (advanceTo now d)) s

/-! ## Object Evict and Lookup (R32, R145, R146) -/

/-- An object removed: index entry, record and map entries, its title binding when it was the last entry (R32, R136, R145, R376). -/
def evictObject (key rec : Nat) (o : ObjRec) (d : Dev) : Dev :=
  match nsByTag d (keyTag key) with
  | none => d
  | some (_, n) =>
    let d1 := (indexAddrs d key).foldl (fun d a => eddyInvalidate a d) d
    let d2 := journal (.object rec none n.idx [(o.base, List.replicate o.units none)]) d1
    let d3 := { d2 with reqs := mapValues d2.reqs fun _ q => if readsObject rec q then { q with recNo := recGone } else q }
    let d4 := pruneTitle key d3
    if n.cascade && inCascade d4 && d4.cas.mode ≠ 3 then
      (if d4.cas.state = 3 then modifyCas (fun c => { c with index := mapErase c.index key }) d4
        else sendFlit 6 d4.cas.master ([0, 2, rec, 0] ++ keyFields key) d4)
    else d4

/-- Evict or Lookup of a key that another member holds: forwarded, or answered Namespace Not Ready where none can be reached (R508, R514). -/
def forwardCmd (c : Cmd) (key kind m : Nat) (up : Bool) (d : Dev) : Dev :=
  if up then
    (startForward { member := m, req := none, kind := kind, cmd := (c.ctrl, c.sq, c.cid), key := key, since := 0 } 3
      ([kind, c.nsid, 0, 0, 0, 0, 0] ++ keyFields key) d).2
  else done c stNotReady d

/-- An exact-key command: its fields and namespace, then here or at the holding member (R145, R146). -/
def exactCmd (c : Cmd) (kind : Nat) (f : Nat → Dev → Dev) (d : Dev) : Dev :=
  let k := cmdKey c
  if c.cdw10 ≠ 0 || c.cdw11 ≠ 0 || !keyClean k || decide (6 ≤ keyKind k) then done c stField d
  else nsCmd c 2 (fun n d =>
    let key := withTag k n.tag
    match placedOn d key with
    | some (m, up) => forwardCmd c key kind m up d
    | none => f key d) d

/-- OBJECT_EVICT after its checks (R145). -/
def evictHere (c : Cmd) (bad : List Nat) (key : Nat) (d : Dev) : Dev :=
  match findObject key bad d with
  | (none, d1) => done c stAbsent d1
  | (some (_, rec, o), d1) =>
    background (done c stOk (gaugeCount 0x004 (evictObject key rec o d1)) (dw1 := if o.withdrawn then 1 else 0))

/-- OBJECT_EVICT: opcode 88h (R145). -/
def execObjectEvict (c : Cmd) (bad : List Nat) (s : State) : Host.Outcome State Fault Refusal :=
  run (deliveryCmd (withOp 0x88 c) true false (exactCmd (withOp 0x88 c) 2 (evictHere (withOp 0x88 c) bad))) s

/-- The 64-byte object record (R146). -/
def lookupRecord (o : ObjRec) : Bytes :=
  leBytes 16 o.key ++ leBytes 4 o.stored ++ leBytes 4 o.decoded ++ leBytes 4 o.version ++ leBytes 2 (o.slot % 8192) ++
    leBytes 1 (if o.withdrawn then 1 else 0) ++ leBytes 1 (if o.compressed then 1 else 0) ++ leBytes 8 o.storedAt ++
    leBytes 8 o.withdrawnAt ++ leBytes 2 o.charged ++ leBytes 14 0

/-- Lookup of a key held here (R127, R146). -/
def lookupHere (c : Cmd) (bad : List Nat) (key : Nat) (d : Dev) : Dev :=
  match findObject key bad d with
  | (none, d1) => done c stAbsent d1
  | (some (h, _, o), d1) =>
    if h.entry.poison then done c stPoison d1 (key := key)
    else withData c (fun d => done c stOk (sendData c (lookupRecord o) d) (dw0 := if o.withdrawn then 1 else 0)) d1

/-- LOOKUP: opcode 86h (R146). -/
def execLookup (c : Cmd) (bad : List Nat) (s : State) : Host.Outcome State Fault Refusal :=
  run (deliveryCmd (withOp 0x86 c) true false (fun d =>
    gaugeCount 0x005 (exactCmd (withOp 0x86 c) 3 (lookupHere (withOp 0x86 c) bad) d))) s

/-! ## Fence (R147 to R151) -/

/-- FENCE: opcode 8Ch; the queue waits for its span, and a Fence whose span has already posted completes at once (R148, R149). -/
def execFence (c : Cmd) (s : State) : Host.Outcome State Fault Refusal :=
  run (fetchCmd (withOp 0x8C c) false true (fun d =>
    let c := withOp 0x8C c
    let d1 := modifyCtrl c.ctrl (fun k => { k with sqs := mapUpdate k.sqs c.sq fun q => { q with cancelling := false } }) d
    if !fieldsOk c false || c.nsid ≠ 0 || c.cdw2 ≠ 0 || c.cdw3 ≠ 0 || !zeroBits c.cdw10 31 1 || !zeroFrom 11 c then done c stField d1
    else
      completeFence c.ctrl c.sq (gaugeCount 0x00A
        (modifyCtrl c.ctrl (fun k => { k with sqs := mapUpdate k.sqs c.sq fun q => { q with fence := some (c.cid, bit c.cdw10 0) } }) d1)))) s

/-! ## Lookup windows (R152 to R155) -/

/-- A lookup window of a controller. -/
def lookupWindow (d : Dev) (ctrl w : Nat) : LookupWindow :=
  match getCtrl d ctrl with
  | some c => mapGetD c.windows w {}
  | none => {}

/-- A lookup window changed. -/
def modifyWindow (ctrl w : Nat) (f : LookupWindow → LookupWindow) (d : Dev) : Dev :=
  modifyCtrl ctrl (fun c => { c with windows := mapSet c.windows w (f (mapGetD c.windows w {})) }) d

/-- A request to a function's BARs that the function answers; else an Unsupported Request (R120). -/
def withBar (ctrl : Nat) (f : Dev → Dev) (d : Dev) : Dev :=
  let ok := match getCtrl d ctrl with
    | some c => c.memSpace
    | none => false
  if ok then f d else emit (.unsupported ctrl) (hostViolation 0x20 3 0x052 ctrl [] d)

/-- A window's own registers after a write of bytes at an offset below 0x40: KEY, CTL and NSID take them, the rest ignores
them, and a write of KEY discards the search that runs (R152 to R154). -/
def windowPut (off : Nat) (bs : Bytes) (w : LookupWindow) : LookupWindow :=
  let img := overlay (w.key ++ leBytes 4 0 ++ leBytes 4 w.ctl ++ leBytes 4 w.nsid ++ leBytes 36 0) off bs
  { w with key := slice img 0 16, ctl := leField img 0x14 4 % 128, nsid := leField img 0x18 4, valid := w.valid && !decide (off < 16)
           job := if off < 16 then none else w.job }

/-- A write to a lookup window; one that covers KEY bytes 0x0C to 0x0F starts a search (R153, R155). -/
def windowWrite (ctrl w off : Nat) (bs : Bytes) (d : Dev) : Dev :=
  if bs.length < 4 then hostViolation 0x21 17 0x05E ctrl (nvmeDetail 0 (0x40 * w + off) (leNat bs)) d
  else
    let d1 := modifyWindow ctrl w (windowPut off bs) d
    if off ≤ 12 ∧ 16 ≤ off + bs.length then
      gaugeCount 0x009 (modifyWindow ctrl w (fun x =>
        { x with seq := (x.seq + 1) % 65536, valid := false, job := some (x.key, x.ctl, x.nsid) }) d1)
    else d1

/-- A profile's image, when it is defined (R180). -/
def profileImage (d : Dev) (p : Nat) : Option Bytes :=
  let img := (mapGetD d.profiles p {}).image
  if img.isEmpty then none else some img


/-- Search of a key with a profile's class and then class 0 (R22 step 6); true when it fell back. -/
def classSearch (key cls : Nat) (bad : List Nat) (d : Dev) : Option (EddyHit × Nat × ObjRec) × Bool × Dev :=
  match findObject (withClass key cls) bad d with
  | (some x, d1) => (some x, false, d1)
  | (none, d1) => if cls = 0 then (none, false, d1) else
    match findObject (withClass key 0) bad d1 with
    | (some x, d2) => (some x, true, d2)
    | (none, d2) => (none, false, d2)

/-- Result bytes 0x1C to 0x2F of a window (R152). -/
def windowResult (tm : Nat) (o : Option ObjRec) : Bytes :=
  (match o with
    | some o => leBytes 4 o.version ++ leBytes 4 o.decoded ++ leBytes 4 o.stored
    | none => leBytes 12 0) ++ leBytes 8 tm

/-- A window search answered: ERROR, or the match (R152, R153). -/
def windowAnswer (ctrl w err : Nat) (o : Option ObjRec) (d : Dev) : Dev :=
  let st := match o with
    | some o => 2 + (if o.withdrawn then 4 else 0) + (if o.compressed then 8 else 0) + keyClass o.key * 16
    | none => err * 256
  modifyWindow ctrl w (fun x => { x with job := none, valid := true, status := st, result := windowResult d.tm o }) d

/-- LOOKUP_WINDOW_RESULT: the search that runs in a window ends (R22, R153, R154). -/
def windowSearch (ctrl w : Nat) (bad : List Nat) (d : Dev) : Dev :=
  match (lookupWindow d ctrl w).job with
  | none => d
  | some (kb, ctl, nsid) =>
    let k := leNat kb
    match (attachedNs d ctrl nsid).filter (·.kind = 2) with
    | none => windowAnswer ctrl w 1 none d
    | some n =>
      let key := withTag k n.tag
      if !keyClean k then windowAnswer ctrl w 2 none d
      else if bit ctl 6 then
        match profileImage d (ctl % 64) with
        | none => windowAnswer ctrl w 3 none d
        | some img =>
          let (r, _, d1) := classSearch key (imgClass img) bad d
          windowAnswer ctrl w 0 (r.map fun x => x.2.2) d1
      else
        let (r, d1) := findObject key bad d
        windowAnswer ctrl w 0 (r.map fun x => x.2.2) d1

/-- LOOKUP_WINDOW_RESULT (R153). -/
def execLookupWindowResult (now ctrl w : Nat) (bad : List Nat) (s : State) : Host.Outcome State Fault Refusal :=
  run (fun d => windowSearch ctrl (w % 1024) bad (advanceTo now d)) s

/-- A window's 64 bytes as one read returns them (R152, R154). -/
def windowBytes (x : LookupWindow) : Bytes :=
  x.key ++ leBytes 4 (x.seq * 65536 + x.status + (if x.valid then 1 else 0)) ++ leBytes 4 x.ctl ++ leBytes 4 x.nsid ++ x.result ++ leBytes 16 0

end Sys2Proof.Machine
end

