-- ==== Sys2Proof/Machine/Nvm.lean ====
section
/-! DEFINITION. Machine/Nvm.lean: the NVM and Key Value commands (R100, R102, R104 to R106, R192, R213, R352, R359, R360, R373, R376).  The
fields of these commands are the NVMe specifications'; each row takes them as operands by name. -/
namespace Sys2Proof.Machine

/-! ## The transcrypt path under a namespace key (R192, R213, R214) -/

/-- What stands for a request in the records of a compare failure of a namespace command, which has no descriptor of its own (R188). -/
def plainReq (c : Cmd) (write : Bool) (unit : Nat) (retried : Bool) : Req :=
  { ctrl := c.ctrl, sq := c.sq, cid := c.cid, op := if write then 2 else 0, key := 0, nsid := c.nsid, len := 0, unit := some unit
    retried := retried
    obj := { key := 0, base := 0, units := 0, compressed := false, stored := 0, decoded := 0, version := 0, slot := 0, charged := 0, storedAt := 0 } }

/-- The shadow compares of a namespace command, of which the first `fails` fail: one retry, then Integrity Poison (R192, R213, R214). -/
def passEstuary (c : Cmd) (write : Bool) (fails : Nat) (f : Dev → Dev) (d : Dev) : Dev :=
  let u := chooseUnit d write
  let d1 := if u = 2 then gaugeCount 0x04D d else d
  let pipe := if write then 1 else 0
  if fails = 0 then f d1
  else
    let d2 := countCompareFail 0 pipe 0 (plainReq c write u false) d1
    let v := retryUnit d2 u
    let d3 := if v = 2 then gaugeCount 0x04D d2 else d2
    if fails = 1 then f (bump 0x580007 (gaugeCount 0x00B d3))
    else done c stPoison (bump 0x580008 (countCompareFail 0 pipe 0 (plainReq c write v true) d3))

/-! ## Reservations (R106) -/

/-- True when a controller is registered. -/
def isRegistrant (n : Namespace) (ctrl : Nat) : Bool := n.rsv.regs.any fun r => r.ctrl = ctrl

/-- True when a controller holds the reservation; of the all-registrants types every registrant does. -/
def holdsRsv (n : Namespace) (ctrl : Nat) : Bool :=
  isRegistrant n ctrl && n.rsv.rtype ≠ 0 && (decide (5 ≤ n.rsv.rtype) || n.rsv.holder = ctrl)

/-- True when a reservation stops a controller's write or read. -/
def rsvConflict (n : Namespace) (ctrl : Nat) (write : Bool) : Bool :=
  let t := n.rsv.rtype
  if t = 0 || holdsRsv n ctrl then false
  else if t = 1 then write
  else if t = 2 then true
  else if isRegistrant n ctrl then false
  else write || t = 4 || t = 6

/-! ## Block namespaces: places and checks -/

/-- Blocks of a command as bytes. -/
def blockSpan (n : Namespace) (slba nlb : Nat) : Nat × Nat := (slba * lbaBytes n, nlb * lbaBytes n)

/-- Checks of a block command: the reservation, MDTS where data move, and the range (R100). -/
def blockStatus (n : Namespace) (ctrl slba nlb : Nat) (write moves : Bool) : Option Status :=
  if moves && decide (8 * 2 ^ 20 < nlb * lbaBytes n) then some stField
  else if n.nsze < slba + nlb then some stLbaRange
  else if rsvConflict n ctrl write then some stRsvConflict
  else none

/-- Units that a span of bytes touches: the first and how many. -/
def spanUnits (n : Namespace) (off len : Nat) : Nat × Nat :=
  let u := unitBytes n.iu
  if len = 0 then (off / u, 0) else (off / u, (off + len - 1) / u - off / u + 1)

/-- Plaintext of a unit under the namespace key (R192). -/
def plainUnit (n : Namespace) (key : Bytes) (lu : Nat) (ct : Bytes) : Bytes := nsDecrypt key n.idx (lu * (unitBytes n.iu / 4096)) ct

/-- One unit read: none where it is UNCORRECTABLE, its map word or chunk is being rebuilt, or every decoding step fails (R352, R355, R366, R373). -/
def readUnit (n : Namespace) (key : Bytes) (dec : List (Nat × Decode)) (lu : Nat) (d : Dev) : Option Bytes × Dev :=
  if d.media.badWords.contains (mapKey n.idx lu) || chunkRebuilding d n.idx lu then (none, d)
  else match entryOf d n.idx lu with
    | none => (some (List.replicate (unitBytes n.iu) 0), d)
    | some v =>
      if v = uncorrectable then (none, d)
      else if d.media.buffer.contains (unitKey n.iu v) then (some (plainUnit n key lu (unitData d n.iu v)), d)
      else
        let k := (dec.lookup lu).getD .hard
        let d1 := flashRead n.iu v k d
        if k = .fail then (none, if n.kind = 0 then scheduleRefresh (bandOfVua d n.iu v) d1 else d1)
        else (some (plainUnit n key lu (unitData d n.iu v)), d1)

/-- Units read in order; none as soon as one cannot be read. -/
def readUnits (n : Namespace) (key : Bytes) (dec : List (Nat × Decode)) : Nat → Nat → Dev → Option Bytes × Dev
  | _, 0, d => (some [], d)
  | lu, k + 1, d =>
    match readUnit n key dec lu d with
    | (none, d1) => (none, d1)
    | (some b, d1) =>
      match readUnits n key dec (lu + 1) k d1 with
      | (none, d2) => (none, d2)
      | (some bs, d2) => (some (b ++ bs), d2)

/-- Map words of a command that read poisoned: they are to be rebuilt (R355). -/
def noteBadWord (n : Namespace) (lu cnt : Nat) (mapBad : Option Nat) (d : Dev) : Dev :=
  match mapBad with
  | some u => if lu ≤ u ∧ u < lu + cnt then modifyMedia (fun m => { m with badWords := insNat (mapKey n.idx u) m.badWords }) d else d
  | none => d

/-- A command that needs the namespace key (R192). -/
def withKey (c : Cmd) (n : Namespace) (f : Bytes → Dev → Dev) (d : Dev) : Dev :=
  match nsKey d n.idx with
  | some k => f k d
  | none => done c stNotReady d

/-- Bytes `off` to `off + len` of a block namespace read and handed on, or Unrecovered Read Error (R373). -/
def readSpan (c : Cmd) (n : Namespace) (off len : Nat) (dec : List (Nat × Decode)) (fails : Nat) (mapBad : Option Nat)
    (f : Bytes → Dev → Dev) (d : Dev) : Dev :=
  withKey c n (fun key d =>
    let (lu, cnt) := spanUnits n off len
    match readUnits n key dec lu cnt (noteBadWord n lu cnt mapBad d) with
    | (none, d1) => background (done c stUnrecovered d1)
    | (some bs, d1) => passEstuary c false fails (fun d => background (f (slice bs (off - lu * unitBytes n.iu) len) d)) d1) d

/-- True when Error Recovery's DULBE is set and a unit of the range is deallocated (R98). -/
def dulbeHit (d : Dev) (c : Cmd) (n : Namespace) (off len : Nat) : Bool :=
  let on := match getCtrl d c.ctrl with
    | some k => bit (mapGetD k.features (0x05 + 2 ^ 32 * c.nsid) 0) 16
    | none => false
  let (lu, cnt) := spanUnits n off len
  on && (List.range cnt).any fun i => (entryOf d n.idx (lu + i)).isNone

/-- Deallocated or Unwritten Logical Block. -/
def stDeallocated : Status := (2, 0x87)

/-- A block command with its checks. -/
def blockCmd (c : Cmd) (slba nlb : Nat) (write moves : Bool) (f : Namespace → Dev → Dev) (d : Dev) : Dev :=
  ioCmd c (nsCmd c 0 (fun n d =>
    match blockStatus n c.ctrl slba nlb write moves with
    | some st => done c st d
    | none => if write && d.media.state = 2 then done c stWriteProtected d else f n d)) d

/-- NVM_READ: opcode 02h; `dec` gives the decoding of units by logical unit, `fails` the failed compares, `mapBad` a unit whose map word reads
poisoned (R352, R373). -/
def execNvmRead (c : Cmd) (slba nlb : Nat) (dec : List (Nat × Decode)) (fails : Nat) (mapBad : Option Nat) (s : State) :
    Host.Outcome State Fault Refusal :=
  let c := withOp 0x02 c
  run (blockCmd c slba nlb false true (fun n => withData c (fun d =>
    let (off, len) := blockSpan n slba nlb
    if dulbeHit d c n off len then done c stDeallocated d
    else readSpan c n off len dec fails mapBad (fun bs d => done c stOk (sendData c bs d)) d))) s

/-- COMPARE: opcode 05h (R100). -/
def execCompare (c : Cmd) (slba nlb : Nat) (dec : List (Nat × Decode)) (fails : Nat) (mapBad : Option Nat) (s : State) :
    Host.Outcome State Fault Refusal :=
  let c := withOp 0x05 c
  run (blockCmd c slba nlb false true (fun n => withData c (fun d =>
    let (off, len) := blockSpan n slba nlb
    if dulbeHit d c n off len then done c stDeallocated d
    else readSpan c n off len dec fails mapBad (fun bs d => done c (if bs = padTo len c.data then stOk else stCompare) d) d))) s

/-- VERIFY: opcode 0Ch; no data move (R100). -/
def execVerify (c : Cmd) (slba nlb : Nat) (dec : List (Nat × Decode)) (fails : Nat) (mapBad : Option Nat) (s : State) :
    Host.Outcome State Fault Refusal :=
  let c := withOp 0x0C c
  run (blockCmd c slba nlb false false (fun n d =>
    let (off, len) := blockSpan n slba nlb
    if dulbeHit d c n off len then done c stDeallocated d
    else readSpan c n off len dec fails mapBad (fun _ d => done c stOk d) d)) s

/-- The old bytes of a unit that a write covers in part; where they cannot be read they are free bytes, since the write replaces the entry
(R352; log entry 1). -/
def oldUnit (n : Namespace) (key : Bytes) (dec : List (Nat × Decode)) (lu : Nat) (d : Dev) : Bytes × Dev :=
  match readUnit n key dec lu d with
  | (some b, d1) => (b, d1)
  | (none, d1) => drawBytes (unitBytes n.iu) d1

/-- The units of a write with the bytes of the first and the last that it does not cover (R119). -/
def mergedUnits (n : Namespace) (key : Bytes) (dec : List (Nat × Decode)) (off : Nat) (bs : Bytes) (d : Dev) : Bytes × Dev :=
  let u := unitBytes n.iu
  let (lu, cnt) := spanUnits n off bs.length
  let head := off - lu * u
  let tail := (lu + cnt) * u - (off + bs.length)
  let (h, d1) := if head = 0 then ([], d) else oldUnit n key dec lu d
  let (t, d2) := if tail = 0 then ([], d1) else if cnt = 1 ∧ head ≠ 0 then (h, d1) else oldUnit n key dec (lu + cnt - 1) d1
  (h.take head ++ bs ++ t.drop (u - tail), d2)

/-- Whole units written under the namespace key (R192, R359). -/
def storeUnits (n : Namespace) (key : Bytes) (lu : Nat) (bs : Bytes) (d : Dev) : Dev :=
  let u := unitBytes n.iu
  let k := ceilDiv bs.length u
  let ct := nsEncrypt key n.idx (lu * (u / 4096)) (padTo (k * u) bs)
  writeUnits n.idx n.iu lu ((List.range k).map fun i => slice ct (i * u) u) d

/-- True while the Host island may fetch write data of a class: the write buffer has room and bands are not short (R359, R367). -/
def mayFetchData (d : Dev) (cls : Nat) : Bool :=
  decide (buffered d < bufferSize d.variant) && (decide (objNum d 0x382002 ≤ freeBands d cls) || intoBackwater d cls)

/-- A command that brings write data is not fetched while its class's writes wait (R359, R367). -/
def whenRoom (c : Cmd) (f : Dev → Dev) (d : Dev) : Dev :=
  match mapGet d.media.nss c.nsid with
  | some n => if mayFetchData d n.iu then f d else advanceTo c.now d
  | none => f d

/-- NVM_WRITE: opcode 01h (R192, R359). -/
def execNvmWrite (c : Cmd) (slba nlb : Nat) (dec : List (Nat × Decode)) (fails : Nat) (s : State) : Host.Outcome State Fault Refusal :=
  let c := withOp 0x01 c
  run (whenRoom c (blockCmd c slba nlb true true (fun n => withData c (withKey c n (fun key => passEstuary c true fails (fun d =>
    let (off, len) := blockSpan n slba nlb
    if len = 0 then done c stOk d
    else
      let (bs, d1) := mergedUnits n key dec off (padTo len c.data) d
      background (done c stOk (storeUnits n key (spanUnits n off len).1 bs d1)))))))) s

/-- FLUSH: opcode 00h of a namespace of any kind; nothing is waited for (R360). -/
def execFlush (c : Cmd) (s : State) : Host.Outcome State Fault Refusal :=
  let c := withOp 0x00 c
  run (ioCmd c (fun d =>
    if (attachedNs d c.ctrl c.nsid).isSome || (attachedAux d c.ctrl c.nsid).isSome then done c stOk d else done c stNamespace d)) s

/-- The whole units inside a span: the first and how many. -/
def wholeUnits (n : Namespace) (off len : Nat) : Nat × Nat :=
  let u := unitBytes n.iu
  (ceilDiv off u, (off + len) / u - ceilDiv off u)

/-- WRITE_ZEROES: opcode 08h, with or without DEAC: the entries become UNMAPPED in one record; a unit covered in part takes zeros by a write
(R105, R376). -/
def execWriteZeroes (c : Cmd) (slba nlb : Nat) (dec : List (Nat × Decode)) (s : State) : Host.Outcome State Fault Refusal :=
  let c := withOp 0x08 c
  run (blockCmd c slba nlb true false (fun n d =>
    let (off, len) := blockSpan n slba nlb
    let u := unitBytes n.iu
    let (lu, cnt) := wholeUnits n off len
    let edge (o k : Nat) (d : Dev) : Dev :=
      if k = 0 ∨ (entryOf d n.idx (o / u)).isNone then d
      else match nsKey d n.idx with
        | none => d
        | some key =>
          let (bs, d1) := mergedUnits n key dec o (List.replicate k 0) d
          storeUnits n key (o / u) bs d1
    if u ∣ off ∧ u ∣ len then background (done c stOk (unmapUnits n.idx lu cnt d))
    else withKey c n (fun _ d =>
      let stop := off + len
      let d1 := if cnt = 0 ∧ off / u = (stop - 1) / u then edge off len d
        else edge (stop / u * u) (stop - stop / u * u) (edge off (min stop (ceilDiv off u * u) - off) d)
      background (done c stOk (if cnt = 0 then d1 else unmapUnits n.idx lu cnt d1))) d)) s

/-- DATASET_MANAGEMENT: opcode 09h; a deallocate sets the whole units of each range to UNMAPPED, and every other attribute changes nothing
(R376). -/
def execDatasetManagement (c : Cmd) (deallocate : Bool) (ranges : List (Nat × Nat)) (s : State) : Host.Outcome State Fault Refusal :=
  let c := withOp 0x09 c
  run (blockCmd c 0 0 deallocate false (fun n => withData c (fun d =>
    if ranges.isEmpty || decide (256 < ranges.length) then done c stField d
    else if ranges.any fun r => decide (n.nsze < r.1 + r.2) then done c stLbaRange d
    else if !deallocate then done c stOk d
    else background (done c stOk (ranges.foldl (fun d r =>
      let (off, len) := blockSpan n r.1 r.2
      let (lu, cnt) := wholeUnits n off len
      if cnt = 0 then d else unmapUnits n.idx lu cnt d) d))))) s

/-! ## Reservation commands (R106) -/

/-- A namespace's reservation changed. -/
def setRsv (nsid : Nat) (r : Reservation) (d : Dev) : Dev :=
  modifyMedia (fun m => { m with nss := mapUpdate m.nss nsid fun n => { n with rsv := r } }) d

/-- Key of a registrant. -/
def rsvKeyOf (r : Reservation) (ctrl : Nat) : Option Nat := (r.regs.find? fun x => x.ctrl = ctrl).map (·.key)

/-- The reservation released, as its holder leaves. -/
def dropHolder (r : Reservation) : Reservation := { r with rtype := 0, holder := 0 }

/-- A registrant taken off; a reservation of it is released, one of all registrants with the last of them. -/
def removeRegistrant (ctrl : Nat) (r : Reservation) : Reservation :=
  let r1 := { r with regs := r.regs.filter (·.ctrl ≠ ctrl), gen := r.gen + 1 }
  if (r.rtype < 5 ∧ r.rtype ≠ 0 ∧ r.holder = ctrl) ∨ (5 ≤ r.rtype ∧ r1.regs.isEmpty) then dropHolder r1 else r1

/-- A reservation notification to a controller, unless its mask for the namespace has the bit: event type 6 I/O command set events, log page
80h (R98, R99). -/
def rsvNotice (nsid maskBit id : Nat) (d : Dev) : Dev :=
  let masked := match getCtrl d id with
    | some c => bit (mapGetD c.features (0x81 + 2 ^ 32 * nsid) 0) maskBit
    | none => true
  if masked then d else deliverNotice id { type := 6, info := 0, lid := 0x80 } d

/-- Register, unregister or replace a key. -/
def registerRsv (action cptpl crkey nrkey : Nat) (iekey : Bool) (ctrl : Nat) (r : Reservation) : Except Status Reservation :=
  let r := if cptpl = 2 then { r with ptpl := false } else if cptpl = 3 then { r with ptpl := true } else r
  match action, rsvKeyOf r ctrl with
  | 0, none => .ok { r with regs := r.regs ++ [{ ctrl := ctrl, key := nrkey }], gen := r.gen + 1 }
  | 0, some k => if k = nrkey then .ok r else .error stRsvConflict
  | 1, some k => if iekey || k = crkey then .ok (removeRegistrant ctrl r) else .error stRsvConflict
  | 2, some k =>
    if iekey || k = crkey then .ok { r with regs := r.regs.map fun x => if x.ctrl = ctrl then { x with key := nrkey } else x, gen := r.gen + 1 }
    else .error stRsvConflict
  | 2, none => if iekey then .ok { r with regs := r.regs ++ [{ ctrl := ctrl, key := nrkey }], gen := r.gen + 1 } else .error stRsvConflict
  | 1, none => .error stRsvConflict
  | _, _ => .error stField

/-- RESERVATION_REGISTER: opcode 0Dh: action 0 register, 1 unregister, 2 replace (R106). -/
def execReservationRegister (c : Cmd) (action cptpl crkey nrkey : Nat) (iekey : Bool) (s : State) : Host.Outcome State Fault Refusal :=
  let c := withOp 0x0D c
  run (ioCmd c (nsCmd c 0 (fun n => withData c (fun d =>
    match registerRsv action cptpl crkey nrkey iekey c.ctrl n.rsv with
    | .ok r => done c stOk (setRsv c.nsid r d)
    | .error st => done c st d)))) s

/-- The registered controller data of a Reservation Report: the standard structure of 24 bytes a registrant after a 24-byte header. -/
def rsvReport (r : Reservation) : Bytes :=
  leBytes 4 r.gen ++ leBytes 1 r.rtype ++ leBytes 2 r.regs.length ++ leBytes 2 0 ++ leBytes 1 (if r.ptpl then 1 else 0) ++ leBytes 14 0 ++
    (r.regs.map fun x => leBytes 2 x.ctrl ++ leBytes 1 (if (decide (5 ≤ r.rtype) || x.ctrl = r.holder) && r.rtype ≠ 0 then 1 else 0) ++ leBytes 5 0 ++
      leBytes 8 x.ctrl ++ leBytes 8 x.key).flatten

/-- RESERVATION_REPORT: opcode 0Eh (R106). -/
def execReservationReport (c : Cmd) (len : Nat) (s : State) : Host.Outcome State Fault Refusal :=
  let c := withOp 0x0E c
  run (ioCmd c (nsCmd c 0 (fun n => withData c (fun d => done c stOk (sendData c ((rsvReport n.rsv).take len) d))))) s

/-- A preempt: the registrants of a key lose their registration, and the reservation passes on where its holder loses it. -/
def preemptRsv (prkey rtype ctrl : Nat) (r : Reservation) : Reservation :=
  let hit (x : Registrant) : Bool := x.ctrl ≠ ctrl && (x.key = prkey || (decide (5 ≤ r.rtype) && prkey = 0))
  let holderHit := if 5 ≤ r.rtype then prkey = 0 else r.rtype ≠ 0 ∧ rsvKeyOf r r.holder = some prkey
  let r1 := { r with regs := r.regs.filter fun x => !hit x, gen := r.gen + 1 }
  if holderHit then { r1 with rtype := rtype, holder := ctrl } else r1

/-- Acquire or preempt. -/
def acquireRsv (action crkey prkey rtype ctrl : Nat) (r : Reservation) : Except Status Reservation :=
  if rsvKeyOf r ctrl ≠ some crkey then .error stRsvConflict
  else if rtype = 0 ∨ 6 < rtype then .error stField
  else match action with
    | 0 =>
      if r.rtype = 0 then .ok { r with rtype := rtype, holder := ctrl }
      else if r.rtype = rtype ∧ (r.holder = ctrl ∨ 5 ≤ rtype) then .ok r
      else .error stRsvConflict
    | 1 => .ok (preemptRsv prkey rtype ctrl r)
    | 2 => .ok (preemptRsv prkey rtype ctrl r)
    | _ => .error stField

/-- RESERVATION_ACQUIRE: opcode 11h: action 0 acquire, 1 preempt, 2 preempt and abort (R106). -/
def execReservationAcquire (c : Cmd) (action crkey prkey rtype : Nat) (s : State) : Host.Outcome State Fault Refusal :=
  let c := withOp 0x11 c
  run (ioCmd c (nsCmd c 0 (fun n => withData c (fun d =>
    match acquireRsv action crkey prkey rtype c.ctrl n.rsv with
    | .ok r =>
      let lost := n.rsv.regs.filter fun x => !r.regs.any fun y => y.ctrl = x.ctrl
      lost.foldl (fun d x => rsvNotice c.nsid 1 x.ctrl d) (done c stOk (setRsv c.nsid r d))
    | .error st => done c st d)))) s

/-- Release or clear. -/
def releaseRsv (action crkey rtype ctrl : Nat) (r : Reservation) : Except Status Reservation :=
  if rsvKeyOf r ctrl ≠ some crkey then .error stRsvConflict
  else match action with
    | 0 =>
      if r.rtype = 0 ∨ !(5 ≤ r.rtype ∨ r.holder = ctrl) then .ok r
      else if r.rtype ≠ rtype then .error stField
      else .ok (dropHolder r)
    | 1 => .ok (dropHolder { r with regs := [], gen := r.gen + 1 })
    | _ => .error stField

/-- RESERVATION_RELEASE: opcode 15h: action 0 release, 1 clear (R106). -/
def execReservationRelease (c : Cmd) (action crkey rtype : Nat) (s : State) : Host.Outcome State Fault Refusal :=
  let c := withOp 0x15 c
  run (ioCmd c (nsCmd c 0 (fun n => withData c (fun d =>
    match releaseRsv action crkey rtype c.ctrl n.rsv with
    | .ok r =>
      let others := n.rsv.regs.filter fun x => x.ctrl ≠ c.ctrl && decide (r.rtype = 0 ∧ n.rsv.rtype ≠ 0 ∧ (3 ≤ n.rsv.rtype ∨ action = 1))
      others.foldl (fun d x => rsvNotice c.nsid 2 x.ctrl d) (done c stOk (setRsv c.nsid r d))
    | .error st => done c st d)))) s

/-! ## Key Value namespaces (R102, R105, R376) -/

/-- Values of a namespace. -/
def kvValues (d : Dev) (n : Namespace) : List KvEntry := mapGetD d.media.store.kv n.idx []

/-- The value of a key. -/
def kvFind (d : Dev) (n : Namespace) (key : Bytes) : Option KvEntry := (kvValues d n).find? fun e => e.key = key

/-- A Key Value command with its key check (R102). -/
def kvCmd (c : Cmd) (key : Bytes) (f : Namespace → Dev → Dev) (d : Dev) : Dev :=
  ioCmd c (nsCmd c 1 (fun n d => if 1 ≤ key.length ∧ key.length ≤ 16 then f n d else done c stKvKeySize d)) d

/-- Units of a value. -/
def kvUnits (n : Namespace) (len : Nat) : Nat := ceilDiv len (unitBytes n.iu)

/-- A value stored: its units, its entry, and the old value's units UNMAPPED (R359).  A value's bytes are bound to their place by the tweak of
R192, so the model moves no value to join free entries. -/
def kvPut (c : Cmd) (n : Namespace) (key nsk : Bytes) (d : Dev) : Dev :=
  let k := kvUnits n c.data.length
  let u := unitBytes n.iu
  let d0 := match kvFind d n key with
    | some o => journal (.kv n.idx ((kvValues d n).filter (·.key ≠ key)) [(o.base, List.replicate (kvUnits n o.len) none)]) d
    | none => d
  match freeRun d0 n k (nsUnits n) with
  | none => done c stCapacity d
  | some b =>
    let ct := nsEncrypt nsk n.idx (b * (u / 4096)) (padTo (k * u) c.data)
    let (vs, d2) := placeUnits n.idx n.iu b ((List.range k).map fun i => slice ct (i * u) u) (modifyMedia (fun m => { m with hostWriteAt := d.tm }) d0)
    let vals := kvValues d2 n ++ [{ key := key, base := b, len := c.data.length }]
    background (done c stOk (journal (.kv n.idx vals [(b, vs)]) d2))

/-- KV_STORE: opcode 01h; `mustExist` and `noOverwrite` are its options (R102). -/
def execKvStore (c : Cmd) (key : Bytes) (mustExist noOverwrite : Bool) (fails : Nat) (s : State) : Host.Outcome State Fault Refusal :=
  let c := withOp 0x01 c
  run (whenRoom c (kvCmd c key (fun n d =>
    let old := kvFind d n key
    let need := kvUnits n c.data.length
    let have_ := match old with
      | some o => kvUnits n o.len
      | none => 0
    if 8 * 2 ^ 20 < c.data.length then done c stKvValueSize d
    else if mustExist && old.isNone then done c stKvNoKey d
    else if noOverwrite && old.isSome then done c stKvExists d
    else if d.media.state = 2 then done c stWriteProtected d
    else if n.ncap / unitBytes n.iu < usedUnits d n - have_ + need then done c stCapacity d
    else withData c (withKey c n (fun nsk => passEstuary c true fails (kvPut c n key nsk))) d))) s

/-- KV_RETRIEVE: opcode 02h into a buffer of `len` bytes; dword 0 gives the value's length (R102, R105, R373). -/
def execKvRetrieve (c : Cmd) (key : Bytes) (len : Nat) (dec : List (Nat × Decode)) (fails : Nat) (mapBad : Option Nat) (s : State) :
    Host.Outcome State Fault Refusal :=
  let c := withOp 0x02 c
  run (kvCmd c key (fun n d =>
    match kvFind d n key with
    | none => done c stKvNoKey d
    | some e =>
      withData c (readSpan c n (e.base * unitBytes n.iu) e.len dec fails mapBad
        (fun bs d => done c stOk (sendData c (bs.take len) d) (dw0 := e.len))) d)) s

/-- KV_DELETE: opcode 10h (R105, R376). -/
def execKvDelete (c : Cmd) (key : Bytes) (s : State) : Host.Outcome State Fault Refusal :=
  let c := withOp 0x10 c
  run (kvCmd c key (fun n d =>
    match kvFind d n key with
    | none => done c stKvNoKey d
    | some e =>
      if d.media.state = 2 then done c stWriteProtected d
      else background (done c stOk (journal (.kv n.idx ((kvValues d n).filter (·.key ≠ key))
        [(e.base, List.replicate (kvUnits n e.len) none)]) d)))) s

/-- KV_EXIST: opcode 14h (R105). -/
def execKvExist (c : Cmd) (key : Bytes) (s : State) : Host.Outcome State Fault Refusal :=
  let c := withOp 0x14 c
  run (kvCmd c key (fun n d => done c (if (kvFind d n key).isSome then stOk else stKvNoKey) d)) s

/-- True when a key stands at or after another one, byte by byte. -/
def keyFrom : Bytes → Bytes → Bool
  | [], _ => true
  | _ :: _, [] => false
  | a :: as, b :: bs => if a.toNat < b.toNat then true else if b.toNat < a.toNat then false else keyFrom as bs

/-- Keys in order, each as its length and its bytes on a multiple of 4, until the buffer is full. -/
def kvListing : Nat → List Bytes → Nat × Bytes
  | _, [] => (0, [])
  | room, k :: ks =>
    let e := leBytes 2 k.length ++ padTo (roundUp (2 + k.length) 4 - 2) k
    if room < e.length then (0, [])
    else
      let (n, bs) := kvListing (room - e.length) ks
      (n + 1, e ++ bs)

/-- KV_LIST: opcode 06h: the keys from `key` on, into a buffer of `len` bytes (R102). -/
def execKvList (c : Cmd) (key : Bytes) (len : Nat) (s : State) : Host.Outcome State Fault Refusal :=
  let c := withOp 0x06 c
  run (ioCmd c (nsCmd c 1 (fun n => withData c (fun d =>
    let ks := ((kvValues d n).map (·.key)).filter (keyFrom key)
    let (k, bs) := kvListing (len - 4) (ks.mergeSort keyFrom)
    done c stOk (sendData c ((leBytes 4 k ++ bs).take len) d))))) s

end Sys2Proof.Machine
end

