-- ==== Sys2Proof/Machine/Sha.lean ====
section
/-! DEFINITION. Machine/Sha.lean: SHA-256, SHA-384 and HMAC-SHA-256, and ECDSA P-384 verification, as the standards give them (FIPS
180-4, FIPS 198-1, FIPS 186-5); the spec names them in R467, R471, R536 and R327.  Log entry 11. -/
namespace Sys2Proof.Machine

/-- True when a number above 1 has no divisor from `k` on below the bound given first. -/
def noDivisor : Nat → Nat → Nat → Bool
  | 0, _, _ => true
  | f + 1, k, n => if n < k * k + 0 then true else n % k ≠ 0 && noDivisor f (k + 1) n

/-- The first `n` primes, from `k` on; the first argument bounds the run. -/
def primesFrom : Nat → Nat → Nat → List Nat
  | 0, _, _ => []
  | f + 1, n, k =>
    if n = 0 then [] else if noDivisor 25 2 k then k :: primesFrom f (n - 1) (k + 1) else primesFrom f n (k + 1)

/-- The integer root of degree `e` of a number, bit by bit from bit `n` down. -/
def rootBits (e x : Nat) : Nat → Nat → Nat
  | 0, r => r
  | n + 1, r => let r' := r + 2 ^ n; rootBits e x n (if r' ^ e ≤ x then r' else r)

/-- The first `w` bits of the fraction of the root of degree `e` of a number. -/
def rootFrac (w e p : Nat) : Nat := rootBits e (p * 2 ^ (w * e)) (w + 5) 0 % 2 ^ w

/-- The 80 primes that the SHA-2 constants come from. -/
def shaPrimes : List Nat := primesFrom 500 80 2

/-- Round constants of a word size: fractions of cube roots of the first primes. -/
def shaK (w n : Nat) : List Nat := (shaPrimes.take n).map (rootFrac w 3)
/-- Initial value of SHA-256: fractions of the square roots of the first 8 primes. -/
def h256 : List Nat := (shaPrimes.take 8).map (rootFrac 32 2)
/-- Initial value of SHA-384: fractions of the square roots of the ninth to the sixteenth prime. -/
def h384 : List Nat := ((shaPrimes.drop 8).take 8).map (rootFrac 64 2)

/-- A member of the SHA-2 family: its word size, its rounds, its initial value, and the rotation and shift counts of Sigma0, Sigma1, sigma0 and
sigma1. -/
structure ShaKind where
  /-- Bits of a word. -/
  w : Nat
  /-- Round constants, one a round. -/
  k : List Nat
  /-- Initial value. -/
  init : List Nat
  /-- Sigma0. -/
  a : Nat × Nat × Nat
  /-- Sigma1. -/
  e : Nat × Nat × Nat
  /-- sigma0; the last is a shift. -/
  s0 : Nat × Nat × Nat
  /-- sigma1; the last is a shift. -/
  s1 : Nat × Nat × Nat

/-- A word rotated to the right. -/
def rotWord (w n x : Nat) : Nat := x >>> n ||| (x % 2 ^ n) <<< (w - n)
/-- Three rotations to the right XORed. -/
def rot3 (w : Nat) (r : Nat × Nat × Nat) (x : Nat) : Nat := rotWord w r.1 x ^^^ rotWord w r.2.1 x ^^^ rotWord w r.2.2 x
/-- Two rotations and a shift to the right XORed. -/
def rotShift (w : Nat) (r : Nat × Nat × Nat) (x : Nat) : Nat := rotWord w r.1 x ^^^ rotWord w r.2.1 x ^^^ x >>> r.2.2

/-- The rounds on the eight working words; the window holds the next 16 words of the message schedule. -/
def shaRounds (m : ShaKind) : List Nat → List Nat → List Nat → List Nat
  | kw :: ks, w0 :: win, [a, b, c, d, e, f, g, h] =>
    forced ((h + rot3 m.w m.e e + ((e &&& f) ^^^ ((2 ^ m.w - 1 - e) &&& g)) + kw + w0) % 2 ^ m.w) fun t1 =>
    forced ((t1 + rot3 m.w m.a a + ((a &&& b) ^^^ (a &&& c) ^^^ (b &&& c))) % 2 ^ m.w) fun a' =>
    forced ((d + t1) % 2 ^ m.w) fun e' =>
    forced ((rotShift m.w m.s1 (win.getD 13 0) + win.getD 8 0 + rotShift m.w m.s0 (win.getD 0 0) + w0) % 2 ^ m.w) fun w16 =>
    shaRounds m ks (win ++ [w16]) [a', a, b, c, e', e, f, g]
  | _, _, v => v

/-- One block of the compression function. -/
def shaBlock (m : ShaKind) (hs : List Nat) (blk : Bytes) : List Nat :=
  List.zipWith (fun a b => (a + b) % 2 ^ m.w) hs
    (shaRounds m m.k ((List.range 16).map fun i => beNat ((blk.drop (m.w / 8 * i)).take (m.w / 8))) hs)

/-- A message padded to whole blocks of `n` bytes with its bit length in the last `n / 8` bytes. -/
def shaPad (n : Nat) (bs : Bytes) : Bytes :=
  let l := bs.length + 1 + n / 8
  bs ++ 0x80 :: List.replicate (roundUp l n - l) 0 ++ beBytes (n / 8) (8 * bs.length)

/-- `n` blocks of a padded message hashed. -/
def shaBlocks (m : ShaKind) : Nat → List Nat → Bytes → List Nat
  | 0, hs, _ => hs
  | n + 1, hs, p => shaBlocks m n (shaBlock m hs (p.take (2 * m.w))) (p.drop (2 * m.w))

/-- The digest's words of a message, each in big-endian order. -/
def shaDigest (m : ShaKind) (bs : Bytes) : Bytes :=
  let p := shaPad (2 * m.w) bs
  ((shaBlocks m (p.length / (2 * m.w)) m.init p).map (beBytes (m.w / 8))).flatten

/-- SHA-256. -/
def sha256 (bs : Bytes) : Bytes := shaDigest ⟨32, shaK 32 64, h256, (2, 13, 22), (6, 11, 25), (7, 18, 3), (17, 19, 10)⟩ bs

/-- SHA-384. -/
def sha384 (bs : Bytes) : Bytes := (shaDigest ⟨64, shaK 64 80, h384, (28, 34, 39), (14, 18, 41), (1, 8, 7), (19, 61, 6)⟩ bs).take 48

/-- HMAC-SHA-256 with a key of at most 64 bytes. -/
def hmacSha256 (key bs : Bytes) : Bytes :=
  let k := padTo 64 key
  sha256 (k.map (· ^^^ 0x5C) ++ sha256 (k.map (· ^^^ 0x36) ++ bs))

/-! ## ECDSA P-384 verification -/

/-- The field prime of P-384. -/
def p384P : Nat := 2 ^ 384 - 2 ^ 128 - 2 ^ 96 + 2 ^ 32 - 1
/-- The group order of P-384. -/
def p384N : Nat := 0xFFFFFFFFFFFFFFFFFFFFFFFFFFFFFFFFFFFFFFFFFFFFFFFFC7634D81F4372DDF581A0DB248B0A77AECEC196ACCC52973
/-- The coefficient b of P-384. -/
def p384B : Nat := 0xB3312FA7E23EE7E4988E056BE3F82D19181D9C6EFE8141120314088F5013875AC656398D8A2ED19D2A85C8EDD3EC2AEF
/-- The base point of P-384. -/
def p384G : Nat × Nat :=
  (0xAA87CA22BE8B05378EB1C71EF320AD746E1D3B628BA79B9859F741E082542A385502F25DBF55296C3A545E3872760AB7,
   0x3617DE4A96262C6F5D9E98BF9292DC29F8F41DBD289A147CE9DA3113B5F0B8C00A60B1CE1D7E819D7A431D7C90EA0E5F)

/-- A power modulo `m`, over `n` bits of the exponent. -/
def powMod (m : Nat) : Nat → Nat → Nat → Nat
  | 0, _, _ => 1
  | n + 1, b, e =>
    forced (b * b % m) fun b2 => forced (e / 2) fun e2 => forced (powMod m n b2 e2) fun h => if e % 2 = 1 then b * h % m else h

/-- The inverse modulo a prime below 2^384. -/
def invMod (m a : Nat) : Nat := powMod m 384 (a % m) (m - 2)

/-- A point of the curve in Jacobian coordinates: X / Z^2 and Y / Z^3; Z = 0 is the point at infinity. -/
abbrev EcPoint := Nat × Nat × Nat

/-- A point given its three coordinates, each evaluated and reduced. -/
def ecPoint (x y z : Nat) : EcPoint := forced (x % p384P) fun x => forced (y % p384P) fun y => forced (z % p384P) fun z => (x, y, z)

/-- Twice a point. -/
def ecDouble : EcPoint → EcPoint
  | (x, y, z) =>
    forced (y * y % p384P) fun yy => forced (z * z % p384P) fun zz => forced (4 * x * yy % p384P) fun s =>
    forced (3 * (x + (p384P - zz)) * (x + zz) % p384P) fun m => forced ((m * m + 2 * (p384P - s)) % p384P) fun x3 =>
    ecPoint x3 (m * (s + (p384P - x3)) + 8 * (p384P - yy * yy % p384P)) (2 * y * z)

/-- The sum of two points. -/
def ecAdd (p q : EcPoint) : EcPoint :=
  match p, q with
  | (x1, y1, z1), (x2, y2, z2) =>
    if z1 = 0 then q
    else if z2 = 0 then p
    else
      forced (z1 * z1 % p384P) fun a => forced (z2 * z2 % p384P) fun b => forced (x1 * b % p384P) fun u1 => forced (x2 * a % p384P) fun u2 =>
      forced (y1 * b * z2 % p384P) fun s1 => forced (y2 * a * z1 % p384P) fun s2 =>
      if u1 = u2 then (if s1 = s2 then ecDouble p else (0, 1, 0))
      else
        forced ((u2 + (p384P - u1)) % p384P) fun h => forced ((s2 + (p384P - s1)) % p384P) fun r => forced (h * h % p384P) fun hh =>
        forced (h * hh % p384P) fun h3 => forced (u1 * hh % p384P) fun v => forced ((r * r + (p384P - h3) + 2 * (p384P - v)) % p384P) fun x3 =>
        ecPoint x3 (r * (v + (p384P - x3)) + s1 * (p384P - h3)) (h * z1 * z2)

/-- A multiple of a point, over `n` bits of the factor. -/
def ecMul : Nat → Nat → EcPoint → EcPoint
  | 0, _, _ => (0, 1, 0)
  | n + 1, k, p => if k % 2 = 1 then ecAdd p (ecMul n (k / 2) (ecDouble p)) else ecMul n (k / 2) (ecDouble p)

/-- True when a 96-byte signature, r then s big-endian, verifies over the SHA-384 of a message under a public key. -/
def ecdsaVerify (key : Nat × Nat) (msg sig : Bytes) : Bool :=
  let r := beNat (sig.take 48)
  let s := beNat ((sig.drop 48).take 48)
  if r = 0 ∨ p384N ≤ r ∨ s = 0 ∨ p384N ≤ s then false
  else
    forced (invMod p384N s) fun w => forced (beNat (sha384 msg)) fun e => forced (e * w % p384N) fun u => forced (r * w % p384N) fun v =>
    match ecAdd (ecMul 384 u (p384G.1, p384G.2, 1)) (ecMul 384 v (key.1, key.2, 1)) with
    | (x, _, z) => z ≠ 0 && decide (x * invMod p384P (z * z) % p384P % p384N = r)

end Sys2Proof.Machine
end

