-- ==== Sys2Proof/Machine/ProgImage.lean ====
section
/-! DEFINITION. Machine/ProgImage.lean: the Mladide image, its checks, its place in the program store, and the versions of a slot (R323 to
R332). -/
namespace Sys2Proof.Machine

/-! ## Header and body (R325, R326) -/

def progName (img : Bytes) : Bytes := slice img 8 8
def progCodeLen (img : Bytes) : Nat := leField img 16 4
def progRodataLen (img : Bytes) : Nat := leField img 20 4
def progDataLen (img : Bytes) : Nat := leField img 24 4
def progBssLen (img : Bytes) : Nat := leField img 28 4
def progStackLen (img : Bytes) : Nat := leField img 32 4
def progEntries (img : Bytes) : Nat := leField img 36 2
def progFlags (img : Bytes) : Nat := leField img 38 1
def progTimeLimit (img : Bytes) : Nat := leField img 40 4
def progLength (img : Bytes) : Nat := leField img 44 4
/-- SIGNED. -/
def progSigned (img : Bytes) : Bool := bit (progFlags img) 0
/-- SHARED (R340). -/
def progShared (img : Bytes) : Bool := bit (progFlags img) 1
/-- Entry word `e`. -/
def progEntry (img : Bytes) (e : Nat) : Nat := leField img (64 + 4 * e) 4
/-- Offset of the code: after the header and the 16 entry words. -/
def progCodeAt : Nat := 128
/-- Code lines of 64 bytes. -/
def progLines (img : Bytes) : Nat := progCodeLen img / 64
/-- Offset of the check table. -/
def progCheckAt (img : Bytes) : Nat := progCodeAt + progCodeLen img
/-- Offset of the read-only data. -/
def progRodataAt (img : Bytes) : Nat := progCheckAt img + 4 * progLines img
/-- Offset of the initialised data. -/
def progDataAt (img : Bytes) : Nat := progRodataAt img + progRodataLen img

/-! ## Checks of R328 -/

/-- Check 1: magic, version, header length, reserved fields, and the image length against the sections. -/
def progHeaderOk (img : Bytes) : Bool :=
  decide (leField img 0 4 = 0x4D494C4D) && decide (leField img 4 2 = 1) && decide (leField img 6 2 = 64) && decide (leField img 39 1 = 0) &&
    decide (leField img 48 12 = 0) && decide (progFlags img < 4) && decide (progLength img = progDataAt img + progDataLen img) &&
    decide (img.length = progLength img + if progSigned img then 96 else 0)

/-- Check 2: the CRC. -/
def progCrcOk (img : Bytes) : Bool := decide ((crc32c (overlay (img.take (progLength img)) 60 (leBytes 4 0))).toNat = leField img 60 4)

/-- Check 3: the signature, against the key of object 0x7001.02. -/
def progSignatureOk (need : Bool) (key img : Bytes) : Bool :=
  if progSigned img then
    decide (key.length = 97) && ecdsaVerify (beNat (slice key 1 48), beNat (slice key 49 48)) (img.take (progLength img)) (slice img (progLength img) 96)
  else !need

/-- Check 4: the lengths, the entry count, the name and the time limit; the limit may be at most the greatest value of object 0x7000.03. -/
def progLimitsOk (img : Bytes) : Bool :=
  decide (progCodeLen img % 64 = 0 ∧ 64 ≤ progCodeLen img ∧ progCodeLen img ≤ 4194304) &&
    decide (progRodataLen img % 64 = 0 ∧ progRodataLen img ≤ 4194304) && decide (4096 ≤ progStackLen img) &&
    decide (progDataLen img + progBssLen img + progStackLen img ≤ 307200) && decide (1 ≤ progEntries img ∧ progEntries img ≤ 16) &&
    decide (progTimeLimit img ≤ 60000) && decide (leField img 8 1 ≠ 0) && (progName img).all (fun b => decide (b.toNat < 128))

/-- Check 5: the entry table. -/
def progEntriesOk (img : Bytes) : Bool :=
  (List.range 16).all fun e =>
    if e < progEntries img then decide (progEntry img e % 4 = 0 ∧ progEntry img e < progCodeLen img) else decide (progEntry img e = 0)

/-- Check 6: the check table. -/
def progLinesOk (img : Bytes) : Bool :=
  (List.range (progLines img)).all fun l =>
    decide (leField img (progCheckAt img + 4 * l) 4 = (crc32c (slice img (progCodeAt + 64 * l) 64)).toNat)

/-- Bytes of the program store (R328). -/
def storeSize : Nat := 256 * 2 ^ 20

/-- Bytes that a version takes in the store: code and read-only data, and its check table, each from a line boundary. -/
def versionBytes (img : Bytes) : Nat := progCodeLen img + progRodataLen img + roundUp (4 * progLines img) 64

/-- Every version in the store. -/
def storedVersions (d : Dev) : List ProgVersion :=
  (d.rt.slots.map fun ks => (match ks.2.current with
    | some v => [v]
    | none => []) ++ ks.2.retiring).flatten

/-- First byte of the program store: the last 256 MiB of DRAM's last GiB, inside the firmware's reserved GiB (log entry 21). -/
def storeBase (d : Dev) : Nat := dramCapacity d.dram.cfg - storeSize

/-- A free place for `n` bytes in the store: the store's start, or the end of a version (log entry 21). -/
def storePlace (d : Dev) (n : Nat) : Option Nat :=
  let vs := storedVersions d
  let ends := storeBase d :: vs.map fun v => v.base + versionBytes v.image
  ends.find? fun b => decide (b + n ≤ storeBase d + storeSize) &&
    vs.all fun v => decide (b + n ≤ v.base ∨ v.base + versionBytes v.image ≤ b)

/-- The first check that refuses an image for a slot and a function (R328). -/
def progRefused (d : Dev) (slot ctrl : Nat) (img : Bytes) : Option Nat :=
  if !progHeaderOk img then some 1
  else if !progCrcOk img then some 2
  else if !progSignatureOk (objNum d 0x700101 ≠ 0) (objOct d 0x700102) img then some 3
  else if !progLimitsOk img then some 4
  else if !progEntriesOk img then some 5
  else if !progLinesOk img then some 6
  else if d.rt.slots.any (fun ks => ks.1 ≠ slot && (match ks.2.current with
    | some v => progName v.image = progName img
    | none => false)) then some 7
  else if (progSlot d slot).state ≠ 0 ∧ (progSlot d slot).owner ≠ ctrl then some 8
  else if (storePlace d (versionBytes img)).isNone then some 9
  else none

/-! ## Changes of a slot (R330 to R332) -/

/-- A version moved to the retiring ones while something binds it. -/
def retireVersion (s : ProgSlot) : ProgSlot :=
  { s with
    current := none
    retiring := s.retiring ++ (match s.current with
      | some v => if 0 < v.bound then [v] else []
      | none => []) }

/-- An image loaded into a slot as a new version; its bytes stand in the store (R331). -/
def loadProgram (slot ctrl : Nat) (img : Bytes) (d : Dev) : Dev :=
  match storePlace d (versionBytes img) with
  | none => d
  | some b =>
    let code := slice img progCodeAt (progCodeLen img) ++ slice img (progRodataAt img) (progRodataLen img) ++ slice img (progCheckAt img) (4 * progLines img)
    storeBytes (dramKey b) code .clean (modifyProg slot (fun s =>
      { retireVersion s with
        state := if s.state = 0 then 1 else s.state
        owner := ctrl
        lastVersion := s.lastVersion + 1
        current := some { version := s.lastVersion + 1, image := img, base := b }
        changedAt := d.tm }) d)

/-- A slot activated or deactivated (R331). -/
def activateProgram (slot : Nat) (on : Bool) (d : Dev) : Dev :=
  modifyProg slot (fun s => { s with state := if on then 2 else 1, changedAt := d.tm }) d

/-- A slot emptied: its Eddy partitions lose their entries (R261, R332). -/
def unloadProgram (slot : Nat) (d : Dev) : Dev :=
  eddyInvalidateWhere (fun a e => e.valid && (List.range 8).any fun p => partOwner d p = slot && inPartition d p a)
    (modifyProg slot (fun s => { retireVersion s with state := 0, owner := 0, changedAt := d.tm }) d)

/-- The active slot of a program name (R324). -/
def activeSlot (d : Dev) (name : Bytes) : Option (Nat × ProgVersion) :=
  d.rt.slots.findSome? fun ks =>
    if ks.2.state = 2 then (match ks.2.current with
      | some v => if progName v.image = name then some (ks.1, v) else none
      | none => none) else none

/-- A version of a slot, current or retiring. -/
def versionOf (d : Dev) (slot v : Nat) : Option ProgVersion :=
  let s := progSlot d slot
  ((match s.current with
    | some x => [x]
    | none => []) ++ s.retiring).find? fun x => x.version = v

end Sys2Proof.Machine
end

