-- ==== Sys2Proof/Machine/StreamRead.lean ====
section
/-! DEFINITION. Machine/StreamRead.lean: Stream Read from admission to its completion (R21 to R32, R83, R94, R140 to R144, R167, R177 to
R179, R185, R187 to R196, R214, R237, R373). -/
namespace Sys2Proof.Machine

/-! ## Page requests (R94) -/

/-- Page requests that a function may have outstanding (R94). -/
def pageLimit : Nat := 512

/-- The oldest request of a function that waits to send its page request sends it while fewer than 512 are outstanding (R94). -/
def nextPage (ctrl : Nat) (d : Dev) : Dev :=
  match getCtrl d ctrl with
  | none => d
  | some c =>
    if pageLimit ≤ c.pageRequests.length then d
    else match d.reqs.find? fun kr => kr.2.ctrl = ctrl && kr.2.pageTag = some kr.1 && !c.pageRequests.contains kr.1 with
      | none => d
      | some (t, _) =>
        emit (.pageRequest ctrl t) (modifyCtrl ctrl (fun c => { c with pageRequests := c.pageRequests ++ [t] }) d)

/-- A translation of a Stream Read's output faults: a page request, or Data Transfer Error where the function may send none (R92, R94). -/
def pageFault (tag ctrl : Nat) (d : Dev) : Dev :=
  match getCtrl d ctrl with
  | none => d
  | some c =>
    if !c.ats then d
    else if !c.pri || c.priStopped then finishReq tag stTransfer d
    else nextPage ctrl (modifyReq tag (fun r => { r with pageTag := some tag }) d)

/-- The answer to a page request: 0 success, 1 invalid request, 15 response failure; another code counts as response failure (R94). -/
def pageAnswer (ctrl tag code : Nat) (d : Dev) : Dev :=
  match getCtrl d ctrl with
  | none => d
  | some c =>
    if !c.pageRequests.contains tag then d
    else
      let d1 := modifyCtrl ctrl (fun c =>
        { c with pageRequests := c.pageRequests.filter (· ≠ tag), priStopped := c.priStopped || (code ≠ 0 && code ≠ 1) }) d
      nextPage ctrl (if code = 0 then modifyReq tag (fun r => { r with pageTag := none }) d1 else finishReq tag stTransfer d1)

/-- PAGE_REQUEST_RESPONSE (R94). -/
def execPageRequestResponse (ctrl tag code : Nat) (s : State) : Host.Outcome State Fault Refusal := run (pageAnswer ctrl tag code) s

/-- PAGE_REQUEST_TIMEOUT: 100 ms without a response; the function may go on sending requests (R94). -/
def execPageRequestTimeout (ctrl tag now : Nat) (s : State) : Host.Outcome State Fault Refusal :=
  run (fun d => pageAnswer ctrl tag 1 (advanceTo now d)) s

/-! ## Admission (R21, R22, R140 to R142) -/

/-- CDW11 of a row: the row fixes SIZE (R140). -/
def withSize (size : Bool) (c : Cmd) : Cmd :=
  { withOp 0x82 c with cdw11 := c.cdw11 - (if bit c.cdw11 9 then 512 else 0) + (if size then 512 else 0) }

/-- What a Stream Read knows of its object before check 6. -/
def noObject (key : Nat) : ObjRec :=
  { key := key, base := 0, units := 0, compressed := false, stored := 0, decoded := 0, version := 0, slot := 0, charged := 0, storedAt := 0 }

/-- Check 2: the handle (R20, R115, R141). -/
def handleOk (d : Dev) (c : Cmd) (img : Option Bytes) : Bool :=
  if c.cdw10 = 0 then (match img with
    | some i => imgScheme i = 0
    | none => true)
  else (sessionFor d c.ctrl c.cdw10).isSome

/-- Check 4: a scheme other than None needs an Estuary unit (R4, R183, R215). -/
def unitMissing (d : Dev) (img : Bytes) : Bool := imgScheme img ≠ 0 && (d.variant = .vl7e || (unitsOnline d).isEmpty)

/-- The session's slot for a scheme (R21, R130). -/
def schemeSlot (d : Dev) (c : Cmd) (img : Bytes) : Option Nat :=
  match sessionFor d c.ctrl c.cdw10 with
  | none => none
  | some s => if imgScheme img = 4 then s.transport else s.content

/-- Check 5: the session's slot, with a current generation that may be bound (R21, R22). -/
def sessionKeyMissing (d : Dev) (c : Cmd) (img : Bytes) : Bool :=
  imgScheme img ≠ 0 && (match schemeSlot d c img with
    | none => true
    | some n => !(keySlot d n).allocated || (keySlot d n).current.isNone || (keySlot d n).owner ≠ c.ctrl)

/-- The request as checks 1 to 5 leave it. -/
def readRequest (c : Cmd) (key : Nat) (p : Nat) (img : Bytes) (ver : Nat) : Req :=
  { ctrl := c.ctrl, sq := c.sq, cid := c.cid, op := if bit c.cdw11 9 then 1 else 0, key := key, nsid := c.nsid, len := c.cdw2
    session := if c.cdw10 = 0 then none else some (c.cdw10 % 65536), profile := p, image := img, imageVersion := ver
    toPeer := bit c.cdw11 8, obj := noObject key }

/-- A request admitted: its tag, its session's count and its session generation (R23, R134, R209). -/
def enterRead (r : Req) (slot : Option Nat) (d : Dev) : Nat × Dev :=
  let (tag, d1) := takeTag d
  let d2 := match r.session with
    | some i => modifySess (fun t =>
        { t with tab := mapUpdate t.tab i fun s => { s with inFlight := s.inFlight + 1, lastAdm := d.tm } }) d1
    | none => d1
  let (g, d3) := match slot with
    | some n => bindGen n d2
    | none => (none, d2)
  let r' := { r with sess := slot.bind fun n => g.map fun k => (n, k), sessUse := g.isSome }
  (tag, gaugeCount 0x000 { d3 with reqs := mapSet d3.reqs tag r' })

/-- The session label of a request, or 0. -/
def labelOf (d : Dev) (r : Req) : Nat :=
  match r.session.bind fun i => mapGet d.sess.tab i with
  | some s => s.label
  | none => 0

/-- Class of the units of an object's namespace (R102, R354). -/
def objClass (d : Dev) (key : Nat) : Nat :=
  match nsByTag d (keyTag key) with
  | some (_, n) => n.iu
  | none => 2

/-- The outcome of check 6 for a request here: its status, or its object (R22, R255, R260). -/
def bindObject (tag : Nat) (bad : List Nat) (d : Dev) : Dev :=
  match mapGet d.reqs tag with
  | none => d
  | some r =>
    match classSearch r.key (imgClass r.image) bad d with
    | (none, _, d1) => finishReq tag stAbsent d1
    | (some (h, rec, o), back, d1) =>
      if h.entry.poison then finishReq tag stPoison d1
      else if o.withdrawn then finishReq tag stWithdrawn d1
      else modifyReq tag (fun r => { r with obj := o, recNo := rec, fallback := back }) (if back then gaugeCount 0x00C d1 else d1)

/-- The storage key's generation bound; a slot that holds none gives Key Revoked (R21, R23). -/
def bindStorage (tag : Nat) (d : Dev) : Dev :=
  match mapGet d.reqs tag with
  | none => d
  | some r =>
    if r.obj.stored = 0 then d
    else if !storageLoaded d r.obj.slot then finishReq tag stRevoked d
    else
      let (g, d1) := bindGen r.obj.slot d
      modifyReq tag (fun r => { r with store := g.map (r.obj.slot, ·), storeUse := g.isSome }) d1

/-- Step 3: the object's map entries copied and their bands pinned; a word that reads poisoned ends the request and is rebuilt, and a
chunk that is being rebuilt answers as withdrawn (R355, R358, R366).
`mapBad` names a unit whose map word reads poisoned. -/
def readMap (tag : Nat) (mapBad : Option Nat) (d : Dev) : Dev :=
  match mapGet d.reqs tag with
  | none => d
  | some r =>
    match nsByTag d (keyTag r.key) with
    | none => finishReq tag stNamespace d
    | some (_, n) =>
      if r.obj.stored = 0 then d
      else
        let d1 := match mapBad with
          | some u => if u < r.obj.units then modifyMedia (fun m =>
              { m with badWords := insNat (mapKey n.idx (r.obj.base + u)) m.badWords }) d else d
          | none => d
        if (List.range r.obj.units).any fun u => d1.media.badWords.contains (mapKey n.idx (r.obj.base + u)) then finishReq tag stPoison d1
        else if (List.range r.obj.units).any fun u => chunkRebuilding d1 n.idx (r.obj.base + u) then finishReq tag stWithdrawn d1
        else
          let es := (List.range r.obj.units).map fun u => entryOf d1 n.idx (r.obj.base + u)
          let pins := entryBands d1 n.iu es
          pinBands pins (modifyReq tag (fun r => { r with entries := es, pins := pins }) d1)

/-- An object held elsewhere as the master's index gives it: class of the profile, then class 0 (R22, R509, R513). -/
def indexFind (d : Dev) (key cls : Nat) : Option (Nat × Nat × Bool) :=
  match mapGet d.cas.index (withClass key cls) with
  | some (m, rec) => some (m, rec, false)
  | none => if cls = 0 then none else (mapGet d.cas.index (withClass key 0)).map fun mr => (mr.1, mr.2, true)

/-- True when a sized read of an image needs payload units: some CALL hands payload bytes (R142). -/
def imgHandsPayload (img : Bytes) : Bool :=
  (List.range (imgCount img)).any fun i => (imgInstr img i).op = 0x10 && (imgInstr img i).a ≠ 0

/-- A Stream Read sent on to the member that holds its object: at-rest units come back, or in deepen mode the finished output (R513, R515). -/
def forwardRead (tag m : Nat) (d : Dev) : Dev :=
  match mapGet d.reqs tag with
  | none => d
  | some r =>
    let whole := d.cas.mode = 2
    let kind := if whole then 5 else 0
    let flags := (if r.op = 1 then 1 else 0) + (if r.op = 0 ∨ imgHandsPayload r.image then 2 else 0) + 256 * imgClass r.image
    let sess := match r.sess with
      | some (n, g) => (n + 32768, g)
      | none => (0, 0)
    let (t, d1) := startForward { member := m, req := some tag, kind := kind, key := r.key, since := 0 } 3
      ([kind, r.nsid, r.len, sess.1, sess.2, r.profile, flags] ++ keyFields r.key) d
    modifyReq tag (fun r => { r with remote := some (m, t) }) d1

/-- Check 6 here, and what admission reads at once. -/
def admitHere (tag : Nat) (bad : List Nat) (mapBad : Option Nat) (d : Dev) : Dev := readMap tag mapBad (bindStorage tag (bindObject tag bad d))

/-- A Stream Read of the master that waits until the index has been rebuilt (R516). -/
def awaitIndex (tag : Nat) (r : Req) (d : Dev) : Dev :=
  modifyCas (fun c =>
    { c with
      nextTag := c.nextTag + 1
      forwards := mapSet c.forwards c.nextTag { member := selfId d, req := some tag, kind := 4, key := r.key, since := d.tm } }) d

/-- Where an admitted Stream Read finds its object: here, at another member, or through the master's index (R508, R509, R513, R515). -/
def locateRead (tag : Nat) (bad : List Nat) (mapBad : Option Nat) (d : Dev) : Dev :=
  match mapGet d.reqs tag with
  | none => d
  | some r =>
    match placedOn d r.key with
    | none => admitHere tag bad mapBad d
    | some (m, up) =>
      if !up then finishReq tag stWithdrawn d
      else if asksIndex d then
        (startForward { member := d.cas.master, req := some tag, kind := 4, key := r.key, since := 0 } 6
          ([0, imgClass r.image, 0] ++ keyFields r.key) d).2
      else if d.cas.mode = 3 then forwardRead tag m d
      else if d.cas.rebuilding then awaitIndex tag r d
      else match indexFind d r.key (imgClass r.image) with
        | none => finishReq tag stAbsent d
        | some (h, _, back) =>
          let d1 := if back then gaugeCount 0x00C (modifyReq tag (fun r => { r with fallback := true }) d) else d
          if h = selfId d then admitHere tag bad mapBad d1
          else if memberUp d1 h then forwardRead tag h d1 else finishReq tag stWithdrawn d1

/-- A Stream Read admitted by the checks of R22 in order; `fault` says that a page of its buffer has no translation (R94). -/
def streamRead (c : Cmd) (bad : List Nat) (mapBad : Option Nat) (fault : Bool) (d : Dev) : Dev :=
  let k := cmdKey c
  let size := bit c.cdw11 9
  if !(zeroBits c.cdw11 7 6 && zeroBits c.cdw11 31 10 && (size || lengthOk c.cdw2) && keyClean k && decide (keyKind k < 6)) then done c stField d
  else nsCmd c 2 (fun n d =>
    let go (d : Dev) : Dev :=
      let p := c.cdw11 % 64
      let img := profileImage d p
      if !handleOk d c img then done c stSession d
      else match img with
        | none => done c stProfile d
        | some img =>
          if unitMissing d img then done c stUnit d
          else if sessionKeyMissing d c img then done c stRevoked d
          else
            let slot := if imgScheme img = 0 then none else schemeSlot d c img
            let (tag, d1) := enterRead (readRequest c (withTag k n.tag) p img (mapGetD d.profiles p {}).version) slot d
            let d2 := locateRead tag bad mapBad d1
            if fault && !size && (mapGet d2.reqs tag).isSome then pageFault tag c.ctrl d2 else d2
    if size ∨ c.xfer = .dataFault then go d else withData c go d) d

/-- STREAM_READ: opcode 82h with SIZE clear (R22, R140). -/
def execStreamRead (c : Cmd) (bad : List Nat) (mapBad : Option Nat) (fault : Bool) (s : State) : Host.Outcome State Fault Refusal :=
  run (deliveryCmd (withSize false c) true true (streamRead (withSize false c) bad mapBad fault)) s

/-- STREAM_READ_SIZE: opcode 82h with SIZE set (R142). -/
def execStreamReadSize (c : Cmd) (bad : List Nat) (mapBad : Option Nat) (s : State) : Host.Outcome State Fault Refusal :=
  run (deliveryCmd (withSize true c) true true (streamRead (withSize true c) bad mapBad false)) s

/-! ## Flash reads (R29, R142, R143, R373, R513) -/

/-- True for a request that only sends stored units to another member (R513). -/
def servesRaw (r : Req) : Bool := r.op < 2 && r.ctrl = 0 && r.image.isEmpty

/-- True when a request reads a flash unit: all of them, or for SIZE the first of an uncompressed object, with all of them where a call hands
payload (R142). -/
def unitNeeded (r : Req) (u : Nat) : Bool :=
  decide (u < r.obj.units) && (r.op = 0 || (!r.obj.compressed && (u = 0 || imgHandsPayload r.image)))

/-- The 4 KiB data units that a flash unit of an object holds. -/
def dataOfUnit (cls : Nat) (o : ObjRec) (u : Nat) : List Nat :=
  ((List.range (unitBytes cls / 4096)).map fun j => u * (unitBytes cls / 4096) + j).filter fun x => decide (x < unitCount o.stored)

/-- The data flits of a decoded unit sent to the receiving member, and the completion once the last needed unit is out (R513). -/
def serveUnit (tag cls u : Nat) (bs : Bytes) (d : Dev) : Dev :=
  match mapGet d.reqs tag with
  | none => d
  | some r =>
    match r.remote with
    | none => d
    | some (m, t) =>
      let d1 := (dataOfUnit cls r.obj u).foldl (fun d x =>
        sendFlit 4 m (t :: x :: (slice bs (4096 * (x % (unitBytes cls / 4096))) (unitLen r.obj x)).map (·.toNat)) d) d
      if (List.range r.obj.units).all (fun v => !unitNeeded r v || (mapGet r.cipher v).isSome) then finishReq tag stOk d1 else d1

/-- A unit of a request is uncorrectable: its object is withdrawn; a request whose object has been replaced or evicted ends alone (R29,
R32). -/
def loseUnit (tag cause : Nat) (r : Req) (d : Dev) : Dev :=
  if r.recNo = recGone then finishReq tag stWithdrawn d else withdrawObject r.recNo cause (labelOf d r) d

/-- UNIT_DECODE: flash unit `u` of a request comes from its sequencer, or from the write buffer that still holds it (R359, R373). -/
def unitDecode (tag u : Nat) (dec : Decode) (d : Dev) : Dev :=
  match mapGet d.reqs tag with
  | none => d
  | some r =>
    if 2 ≤ r.op ∨ r.step ≠ .path ∨ !unitNeeded r u ∨ (mapGet r.cipher u).isSome ∨ (r.ctrl ≠ 0 ∧ r.remote.isSome) then d
    else
      let cls := objClass d r.key
      match (r.entries[u]?).join with
      | none => loseUnit tag 0 r d
      | some v =>
        let held := d.media.buffer.contains (unitKey cls v)
        if v = uncorrectable then loseUnit tag 0 r d
        else if !held && dec = .fail then background (loseUnit tag 0 r (flashRead cls v dec d))
        else
          let d1 := if held then d else flashRead cls v dec d
          let bs := unitData d cls v
          let d2 := modifyReq tag (fun r =>
            { r with cipher := mapSet r.cipher u bs, readRetry := r.readRetry || (!held && dec ≠ .hard) }) d1
          background (if servesRaw r then serveUnit tag cls u bs d2 else d2)

/-- UNIT_DECODE (R373). -/
def execUnitDecode (tag u : Nat) (dec : Decode) (s : State) : Host.Outcome State Fault Refusal := run (unitDecode tag u dec) s

/-! ## Decryption (R24, R187, R189 to R191, R213, R214) -/

/-- ESTUARY_ASSIGN: a request takes its unit at its first data, and a descriptor once the queue has room (R24, R187). -/
def estuaryAssign (tag : Nat) (d : Dev) : Dev :=
  match mapGet d.reqs tag with
  | none => d
  | some r =>
    if servesRaw r || (r.cipher.isEmpty && r.putUnits.isEmpty && !(r.op < 2 && r.obj.compressed && r.op = 1)) then d
    else if r.op = 2 then encryptArrived tag (assignUnit tag d) else assignUnit tag d

/-- ESTUARY_ASSIGN (R187). -/
def execEstuaryAssign (tag : Nat) (s : State) : Host.Outcome State Fault Refusal := run (estuaryAssign tag) s

/-- Ciphertext of data unit `u`, once it is in staging: out of its flash unit, or as another member sent it. -/
def cipherUnit (d : Dev) (r : Req) (u : Nat) : Option Bytes :=
  if r.ctrl ≠ 0 ∧ r.remote.isSome then mapGet r.cipher u
  else
    let k := unitBytes (objClass d r.key) / 4096
    (mapGet r.cipher (u / k)).map fun b => slice b (4096 * (u % k)) (unitLen r.obj u)

/-- True once every data unit of a request's object has been decrypted. -/
def allPlain (r : Req) : Bool := decide (0 < r.obj.stored) && (List.range (unitCount r.obj.stored)).all fun u => (mapGet r.plain u).isSome

/-- The last decrypt compare of a Stream Read has passed: its storage key is no longer in use, and with the scheme None its descriptor goes
(R187, R190, R209). -/
def endDecrypt (tag : Nat) (d : Dev) : Dev :=
  match mapGet d.reqs tag with
  | none => d
  | some r =>
    if !(r.op = 0 && allPlain r && r.storeUse) then d
    else
      let d1 := modifyReq tag (fun r => { r with storeUse := false }) d
      let d2 := match r.store with
        | some (n, g) => releaseGen n g d1
        | none => d1
      if imgScheme r.image = 0 then leaveEstuary tag d2 else d2

/-- A data unit decrypted into staging; the first one of a compressed object chooses the Riffle instance (R189, R191, R237). -/
def decryptUnit (tag u : Nat) (ct : Bytes) (d : Dev) : Dev :=
  match mapGet d.reqs tag with
  | none => d
  | some r =>
    match r.store.bind fun p => slotGen d p.1 p.2 with
    | none => d
    | some g =>
      let pt := xtsDec g.key (objTweak r.obj.key u) ct
      let d1 := modifyReq tag (fun r => { r with plain := mapSet r.plain u pt }) d
      endDecrypt tag (if r.obj.compressed && r.op = 0 && r.riffle.isNone then joinRiffle tag r.obj.stored d1 else d1)

/-- XTS_DECRYPT_UNIT: one data unit passes the decrypt pipeline; `same` says whether the shadow compare matched (R189, R213). -/
def xtsDecrypt (tag u : Nat) (same : Bool) (d : Dev) : Dev :=
  match mapGet d.reqs tag with
  | none => d
  | some r =>
    if 2 ≤ r.op ∨ r.step ≠ .path ∨ servesRaw r ∨ !holdsUnit d tag r ∨ (mapGet r.plain u).isSome ∨ unitCount r.obj.stored ≤ u then d
    else match cipherUnit d r u with
      | none => d
      | some ct => if same then decryptUnit tag u ct d else readCompareFail tag 0 (256 * u) r d

/-- XTS_DECRYPT_UNIT (R189). -/
def execXtsDecryptUnit (tag u : Nat) (same : Bool) (s : State) : Host.Outcome State Fault Refusal := run (xtsDecrypt tag u same) s

/-! ## Braid (R25, R161, R166, R167, R177 to R179, R183 to R185) -/

/-- The plaintext of an object as far as it is in staging, zeros elsewhere. -/
def stagedData (r : Req) : Bytes :=
  padTo r.obj.stored ((List.range (unitCount r.obj.stored)).map fun u => padTo 4096 (mapGetD r.plain u [])).flatten

/-- KID or CONST_IV where a request has bound no content key: bytes that the spec does not give (R166; log entry 1). -/
def unboundBytes (tag off : Nat) : Bytes := (List.range 16).map fun i => Config.unboundByte tag (off + i)

/-- What Braid's passes see of a request. -/
def brCtx (d : Dev) (tag : Nat) (r : Req) (asm : Bool) : BrCtx :=
  let k := sessKey d r
  { img := r.image, asm := asm, data := (r.inflated.getD (stagedData r)), decoded := if r.obj.compressed then r.obj.decoded else r.obj.stored
    key := r.obj.key
    kid := (match k with
      | some g => if imgScheme r.image = 4 then unboundBytes tag 0 else g.kid
      | none => unboundBytes tag 0)
    constIv := (match k with
      | some g => if imgScheme r.image = 4 then unboundBytes tag 16 else g.iv
      | none => unboundBytes tag 16)
    sampleIv := sampleIv r, lens := r.lenCalls, outs := r.asmCalls }

/-- An Assembly Error (R185). -/
def failAssembly (tag cause sample : Nat) (d : Dev) : Dev :=
  finishReq tag stAssembly (gaugeCount (0x01F + cause) d) (dw0 := cause + 65536 * sample)

/-- Program Fault of a request without an invocation: no active image carries the name (R179, R344). -/
def failNoProgram (tag : Nat) (d : Dev) : Dev :=
  let d1 := bump 0x700006 (gaugeCount 0x02C d)
  let ctrl := match mapGet d.reqs tag with
    | some r => r.ctrl
    | none => 0
  finishReq tag stProgram (logError 0x04 2 1 0x02C (leBytes 24 0 ++ leBytes 4 tag) d1 (origin := ctrlOrigin ctrl) (iface := ifaceOf d ctrl)) (dw0 := programDword 0 0 1) (record := false)

/-- The program that an assisted profile names bound at the start of the length pass (R179, R332). -/
def bindProgram (tag : Nat) (d : Dev) : Dev :=
  match mapGet d.reqs tag with
  | none => d
  | some r =>
    if !imgAssisted r.image || r.prog.isSome then d
    else match activeSlot d (imgProgram r.image) with
      | none => failNoProgram tag d
      | some (n, v) => modifyReq tag (fun r => { r with prog := some (n, v.version) }) (bindVersion n v.version d)

/-- Requests that hold an assembly context (R184). -/
def contextsBusy (d : Dev) : Nat := (d.reqs.filter fun kr => kr.2.inBraid).length

/-- True when the data units that hold bytes `at_` to `at_ + n` of an object are decrypted. -/
def handed (r : Req) (at_ n : Nat) : Bool :=
  n = 0 || (List.range (ceilDiv (at_ + n) 4096 - at_ / 4096)).all fun i => (mapGet r.plain (at_ / 4096 + i)).isSome

/-- A CALL queues an invocation once the bytes that it hands are decrypted (R167, R179, R336); an absent entry fails it (R344). -/
def callProgram (tag kind : Nat) (k : BrCall) (d : Dev) : Dev :=
  match mapGet d.reqs tag with
  | none => d
  | some r =>
    match r.prog with
    | none => d
    | some (n, v) =>
      if !handed r k.at_ k.len then d
      else
        let data := stagedData r
        let i : Invocation :=
          { kind := kind, owner := (tag, 0, 0), slot := n, version := v, entry := k.entry, count := k.sample
            table := data.take (if imgTrack r.image then min data.length 16384 else tableLen data)
            payload := slice data k.at_ k.len, params := (k.marks.map fun m => leBytes 4 m).flatten }
        let entries := match versionOf d n v with
          | some x => progEntries x.image
          | none => 0
        if entries ≤ k.entry then failCall i 8 0 0 d
        else modifyRt (fun t => { t with calls := t.calls ++ [i] }) (modifyReq tag (fun r => { r with calling := true }) d)

/-- Record number of a deepen master's request whose finished output another member has sent; `rangesDone` then holds its dword 1. -/
def recWhole : Nat := 65537

/-- Dword 1 of a successful Stream Read (R143). -/
def readDword1 (r : Req) : Nat :=
  if r.recNo = recWhole then r.rangesDone
  else (if r.unit = some 1 then 1 else 0) + (if r.retried then 2 else 0) + (if r.fallback then 4 else 0) + (if r.obj.compressed then 8 else 0) +
    (if r.readRetry then 16 else 0)

/-- The length pass has passed (R25, R142). -/
def endLength (tag n : Nat) (d : Dev) : Dev :=
  match mapGet d.reqs tag with
  | none => d
  | some r =>
    let out := n + brOverhead (imgScheme r.image) n
    if r.op = 1 then finishReq tag stOk d (dw0 := out) (dw1 := readDword1 r)
    else if r.len < out then finishReq tag stSmall d (dw0 := out)
    else modifyReq tag (fun r => { r with asmLen := some n, passAt := none }) d

/-- One pass of Braid from its first instruction, with the results that the program's calls have given so far (R167). -/
def braidPass (tag : Nat) (asm : Bool) (d : Dev) : Dev :=
  match mapGet d.reqs tag with
  | none => d
  | some r =>
    let d0 := if r.passAt.isNone then modifyReq tag (fun r => { r with passAt := some d.tm }) d else d
    match brPass (brCtx d tag r asm) with
    | .error (.cause c s) => failAssembly tag c s d0
    | .error (.call k) => callProgram tag (if asm then 1 else 0) k d0
    | .ok res =>
      if !asm then endLength tag res.len d0
      else
        let rs := res.ranges.map fun x => { off := x.1, len := x.2.len, prot := x.2.prot, restart := x.2.restart, sample := x.2.sample : BraidRange }
        modifyReq tag (fun r =>
          { r with
            asm := some res.out, ranges := rs, inBraid := false
            output := if imgScheme r.image = 0 then res.out else []
            step := if imgScheme r.image = 0 then .dma else .path }) d0

/-- True when the length pass may begin: an uncompressed object's first flash unit is decrypted (R142, R167). -/
def tableReady (d : Dev) (r : Req) : Bool :=
  decide (0 < r.obj.stored) && (r.obj.compressed || (dataOfUnit (objClass d r.key) r.obj 0).all fun u => (mapGet r.plain u).isSome)

/-- BRAID_LENGTH_PASS: the kind, the program's binding and the table, then the pass; `poison` says that a word of the template or of staging
reads poisoned (R183, R185). -/
def braidLength (tag : Nat) (poison : Bool) (d : Dev) : Dev :=
  match mapGet d.reqs tag with
  | none => d
  | some r =>
    if 2 ≤ r.op ∨ r.step ≠ .path ∨ servesRaw r ∨ r.asmLen.isSome ∨ r.calling ∨ !tableReady d r ∨ (!r.inBraid ∧ 32 ≤ contextsBusy d) then d
    else if poison then finishReq tag stPoison d
    else if !bit (imgKinds r.image) (keyKind r.obj.key) then failAssembly tag 1 0xFFFF d
    else
      let d1 := bindProgram tag (modifyReq tag (fun r => { r with inBraid := true }) d)
      match mapGet d1.reqs tag with
      | none => d1
      | some r1 =>
        match objectRefused r1.image (stagedData r1) r1.obj.stored with
        | some (c, s) => failAssembly tag c s d1
        | none => braidPass tag false d1

/-- BRAID_LENGTH_PASS (R167). -/
def execBraidLengthPass (tag now : Nat) (poison : Bool) (s : State) : Host.Outcome State Fault Refusal :=
  run (fun d => braidLength tag poison (advanceTo now d)) s

/-- BRAID_ASSEMBLY_PASS: the bytes and the range list, once the object is in staging (R167, R177). -/
def braidAssembly (tag : Nat) (poison : Bool) (d : Dev) : Dev :=
  match mapGet d.reqs tag with
  | none => d
  | some r =>
    if r.op ≠ 0 ∨ r.step ≠ .path ∨ r.asmLen.isNone ∨ r.asm.isSome ∨ r.calling ∨ !(if r.obj.compressed then r.inflated.isSome else allPlain r) then d
    else if poison then finishReq tag stPoison d
    else braidPass tag true d

/-- BRAID_ASSEMBLY_PASS (R167). -/
def execBraidAssemblyPass (tag now : Nat) (poison : Bool) (s : State) : Host.Outcome State Fault Refusal :=
  run (fun d => braidAssembly tag poison (advanceTo now d)) s

/-! ## Riffle (R230, R231, R237) -/

/-- RIFFLE_DELIVERY_DECODE: the data units decrypted so far, in object order; the whole stream must give the recorded length (R237). -/
def riffleDeliver (tag : Nat) (poison : Bool) (d : Dev) : Dev :=
  match mapGet d.reqs tag with
  | none => d
  | some r =>
    if r.op ≠ 0 ∨ r.step ≠ .path ∨ !r.obj.compressed ∨ r.riffle.isNone ∨ r.inflated.isSome then d
    else if poison then finishReq tag stPoison d
    else
      let bs := (putPrefix r.plain (unitCount r.obj.stored) 0).take r.obj.stored
      let res := riffleDecode bs false (some r.obj.decoded)
      if res.code = 0 then
        (if bs.length = r.obj.stored then
          let unit := objKey (0x6810 + r.riffle.getD 0)
          leaveRiffle tag (addNum (unit 5) res.out.length (addNum (unit 4) bs.length (modifyReq tag (fun r => { r with inflated := some res.out }) d)))
        else d)
      else if res.code = 4 ∧ bs.length < r.obj.stored ∧ bs.length ≤ res.offset then d
      else failRiffle tag r res d

/-- RIFFLE_DELIVERY_DECODE (R237). -/
def execRiffleDeliveryDecode (tag : Nat) (poison : Bool) (s : State) : Host.Outcome State Fault Refusal := run (riffleDeliver tag poison) s

/-! ## Encryption (R167, R189, R193 to R196, R213, R214) -/

/-- The encrypt half starts: with GCM a counter is drawn (R196). -/
def startEncrypt (tag : Nat) (d : Dev) : Dev :=
  match mapGet d.reqs tag with
  | none => d
  | some r =>
    if imgScheme r.image = 4 ∧ r.gcm.isNone then
      match r.sess with
      | some (n, g) =>
        let (k, d1) := drawGcm n g d
        modifyReq tag (fun r => { r with gcm := some k }) d1
      | none => d
    else d

/-- The last encrypt compare has passed: the session key and the descriptor are released, and the DMA starts (R26, R187, R209). -/
def endEncrypt (tag : Nat) (d : Dev) : Dev :=
  match mapGet d.reqs tag with
  | none => d
  | some r =>
    if r.rangesDone < r.ranges.length then d
    else
      let d1 := leaveEstuary tag (modifyReq tag (fun r => { r with sessUse := false, step := .dma }) d)
      match r.sess with
      | some (n, g) => if r.sessUse then releaseGen n g d1 else d1
      | none => d1

/-- Range `i` of a request, which must be the next one, passes the encrypt pipeline (R189). -/
def encryptNext (tag i : Nat) (same : Bool) (d : Dev) : Dev :=
  match mapGet d.reqs tag with
  | none => d
  | some r =>
    match r.asm, r.ranges[i]? with
    | some a, some b =>
      if r.op ≠ 0 ∨ r.step ≠ .path ∨ i ≠ r.rangesDone ∨ imgScheme r.image = 0 ∨ !holdsUnit d tag r then d
      else
        let d1 := startEncrypt tag d
        match mapGet d1.reqs tag with
        | none => d1
        | some r1 =>
          if b.prot && !same then readCompareFail tag 1 (b.off / 16) r1 d1
          else endEncrypt tag (modifyReq tag (fun r =>
            { r with output := r.output ++ encryptRange d1 r1 i b (slice a b.off b.len), rangesDone := i + 1 }) d1)
    | _, _ => d

/-- ESTUARY_ENCRYPT_RANGE (R189). -/
def execEstuaryEncryptRange (tag i : Nat) (same : Bool) (s : State) : Host.Outcome State Fault Refusal := run (encryptNext tag i same) s

/-! ## Output (R26, R82, R83, R94, R143, R515) -/

/-- The finished output of a request that a deepen master forwarded, as data flits to it (R515). -/
def sendOutput (m t : Nat) (bs : Bytes) (d : Dev) : Dev :=
  ((dataUnits bs).zipIdx).foldl (fun d x => sendFlit 4 m (t :: x.2 :: x.1.map (·.toNat)) d) d

/-- A Stream Read completed with Success (R143). -/
def endRead (tag : Nat) (d : Dev) : Dev :=
  match mapGet d.reqs tag with
  | none => d
  | some r => finishReq tag stOk d (dw0 := r.output.length) (dw1 := readDword1 r) (bytes := r.output.length)

/-- OUTPUT_DMA_DONE: the output has been written, or a write or a translation failed (`ok` false); a peer BAR is then read back (R26, R83). -/
def outputDone (tag : Nat) (ok : Bool) (d : Dev) : Dev :=
  match mapGet d.reqs tag with
  | none => d
  | some r =>
    if r.op ≠ 0 ∨ r.step ≠ .dma ∨ r.pageTag.isSome then d
    else if r.ctrl = 0 then
      (match r.remote with
        | some (m, t) => endRead tag (sendOutput m t r.output d)
        | none => d)
    else if !ok then finishReq tag stTransfer d
    else
      let d1 := emit (.data r.ctrl r.cid r.output) d
      if r.toPeer then emit (.peerRead r.ctrl r.cid) (modifyReq tag (fun r => { r with step := .peer }) d1) else endRead tag d1

/-- OUTPUT_DMA_DONE (R26). -/
def execOutputDmaDone (tag now : Nat) (ok : Bool) (s : State) : Host.Outcome State Fault Refusal :=
  run (fun d => outputDone tag ok (advanceTo now d)) s

/-- PEER_FLUSH_READ_COMPLETE: the read-back has come, or failed or timed out (R83). -/
def execPeerFlushReadComplete (tag : Nat) (ok : Bool) (s : State) : Host.Outcome State Fault Refusal :=
  run (fun d => match mapGet d.reqs tag with
    | none => d
    | some r => if r.step ≠ .peer then d else if ok then endRead tag d else finishReq tag stTransfer d) s

end Sys2Proof.Machine
end

