-- ==== Sys2Proof/Machine/MediaRows.lean ====
section
/-! DEFINITION. Machine/MediaRows.lean: what the flash and media management do on their own: programs, erases, retirement, the journal,
rebuilding, Format NVM and Sanitize (R359 to R377). -/
namespace Sys2Proof.Machine

/-! ## Retirement (R374, R375) -/

/-- Detail of a media record (R526 class 0x06): band, block, channel, CE, LUN and plane. -/
def mediaDetail (d : Dev) (band block ch row plane : Nat) : Bytes :=
  leBytes 16 0 ++ leBytes 4 band ++ leBytes 4 block ++ leBytes 1 ch ++ leBytes 1 (row / max 1 d.media.geo.luns) ++
    leBytes 1 (row % max 1 d.media.geo.luns) ++ leBytes 1 plane

/-- True for a block that is retired by itself, with its plane or with its LUN. -/
def blockRetired (d : Dev) (row block ch plane : Nat) : Bool :=
  d.media.lunsRetired.contains (lunKey ch row) || d.media.planesRetired.contains (lunKey ch row * 4 + plane) ||
    (blockWear d row block).retired.contains (ch * 4 + plane)

/-- Blocks of a plane that are still in service. -/
def planeLeft (d : Dev) (row ch plane : Nat) : Nat :=
  ((List.range d.media.geo.blocks).filter fun b => !blockRetired d row b ch plane).length

/-- The band that a physical band carries, if any. -/
def bandAt (d : Dev) (row block : Nat) : Option (Nat × Band) :=
  d.media.store.bands.find? fun kb => kb.2.row = row && kb.2.block = block && kb.2.state ≠ .free

/-- An open band closed, so that nothing more is written to it. -/
def closeBand (k : Nat) (d : Dev) : Dev :=
  match mapGet d.media.store.bands k with
  | some b => if b.state = .open then journal (.band k { b with state := .closed, closedAt := d.media.seq + 1 }) d else d
  | none => d

/-- Valid units of a band that satisfy a test copied elsewhere and remapped by a GC_COMMIT, the band kept (R374). -/
def relocate (k : Nat) (p : Nat → Bool) (d : Dev) : Dev :=
  match mapGet d.media.store.bands k with
  | none => d
  | some b =>
    let us := (validUnits d k b).filter fun u => p u.2.2 && !d.media.buffer.contains (unitKey b.cls u.2.2)
    if us.isEmpty then d
    else
      let (cs, d1) := us.foldl (fun acc u => copyUnit b.cls u acc) ([], d)
      journal (.gcCommit k cs) (addNum 0x382006 (cs.filter (·.dst.isSome)).length d1)

/-- True when an address of a band lies on a channel and, where one is given, a plane. -/
def onPart (d : Dev) (cls ch : Nat) (plane : Option Nat) (v : Nat) : Bool :=
  channelOf d cls v = ch && (match plane with
    | some p => planeOf d cls v = p
    | none => true)

/-- Units of a lost LUN in a band: cache objects are withdrawn, block and Key Value units become UNCORRECTABLE (R374). -/
def loseBandUnits (k : Nat) (b : Band) (ch : Nat) (d : Dev) : Dev :=
  ((validUnits d k b).filter fun u => onPart d b.cls ch none u.2.2).foldl (fun d u =>
    match nsByIdx d u.1 with
    | none => d
    | some (_, n) =>
      if n.kind = 2 then
        (match (nsObjs d n.tag).find? fun ko => decide (ko.2.base ≤ u.2.1 ∧ u.2.1 < ko.2.base + ko.2.units) with
          | some (rec, _) => withdrawObject rec 1 0 d
          | none => d)
      else countLost 1 (journal (.map u.1 u.2.1 [some uncorrectable]) d)) d

/-- A LUN retired: nothing on it is read again (R374). -/
def retireLun (ch row : Nat) (d : Dev) : Dev :=
  if d.media.lunsRetired.contains (lunKey ch row) then d
  else
    let left := ((List.range d.media.geo.planes).map fun p => planeLeft d row ch p).sum
    let d1 := modifyMedia (fun m => { m with lunsRetired := insNat (lunKey ch row) m.lunsRetired }) (journal (.retire row 0 (512 + ch)) d)
    let d2 := logError 0x06 2 5 0 (mediaDetail d 0 0 ch row 0) (addNum 0x383003 (left * blockBytes d) d1)
    let bands := d2.media.store.bands.filter fun kb => kb.2.row = row && kb.2.state ≠ .free
    absorbLoss (bands.foldl (fun d kb => loseBandUnits kb.1 kb.2 ch d) d2)

/-- A plane retired: its valid units are relocated; the second plane of a LUN retires the LUN (R374). -/
def retirePlane (ch row plane : Nat) (d : Dev) : Dev :=
  if d.media.planesRetired.contains (lunKey ch row * 4 + plane) then d
  else
    let d1 := modifyMedia (fun m => { m with planesRetired := insNat (lunKey ch row * 4 + plane) m.planesRetired })
      (journal (.retire row 0 (256 + ch * 4 + plane)) (addNum 0x383003 (planeLeft d row ch plane * blockBytes d) d))
    let d2 := logError 0x06 2 4 0 (mediaDetail d 0 0 ch row plane) d1
    let bands := d2.media.store.bands.filter fun kb => kb.2.row = row && kb.2.state ≠ .free && kb.2.state ≠ .source
    let d3 := absorbLoss (bands.foldl (fun d kb => relocate kb.1 (onPart d kb.2.cls ch (some plane)) (closeBand kb.1 d)) d2)
    if 2 ≤ ((List.range d3.media.geo.planes).filter fun p => d3.media.planesRetired.contains (lunKey ch row * 4 + p)).length then
      retireLun ch row d3
    else d3

/-- Nanoseconds of 24 hours. -/
def dayNs : Nat := 86400000000000

/-- A block retired: its valid units are relocated; the 16th of a plane within 24 hours retires the plane (R374). -/
def retireBlock (row block ch plane : Nat) (d : Dev) : Dev :=
  if blockRetired d row block ch plane then d
  else
    let pk := lunKey ch row * 4 + plane
    let d1 := modifyWear row block (fun w => { w with retired := w.retired ++ [ch * 4 + plane] })
      (journal (.retire row block (ch * 4 + plane)) (addNum 0x383003 (blockBytes d) (gaugeCount (0x109 + 16 * ch) d)))
    let times := (d1.tm :: mapGetD d1.media.planeFails pk []).filter fun t => decide (d1.tm < t + dayNs)
    let d2 := modifyMedia (fun m => { m with planeFails := mapSet m.planeFails pk times }) d1
    let d3 := logError 0x06 2 3 (0x109 + 16 * ch) (mediaDetail d ((bandAt d row block).map (·.1) |>.getD 0) block ch row plane) d2
    let d4 := match bandAt d3 row block with
      | some (k, b) => if b.state = .source then d3 else relocate k (onPart d3 b.cls ch (some plane)) (closeBand k d3)
      | none => d3
    let d5 := absorbLoss d4
    if 16 ≤ times.length then retirePlane ch row plane d5 else d5

/-! ## Programs (R359, R368, R369, R374) -/

/-- Data bytes of a page. -/
def pageBytes : Nat := 16384

/-- True when two buffered units are programmed by one page. -/
def samePage (a b : Nat) : Bool :=
  a = b || (a / 2 ^ 48 = 0 && b / 2 ^ 48 = 0 && decide (a % 2 ^ 48 / (pageBytes / 4096) = b % 2 ^ 48 / (pageBytes / 4096)))

/-- A unit marked programmed. -/
def markProgrammed (u : Nat) (d : Dev) : Dev :=
  modifyMedia (fun m => { m with units := mapUpdate m.units u fun x => { x with programmed := true } }) d

/-- A unit whose program failed, programmed again at another address from the write buffer; its entry follows (R359, R374). -/
def reprogram (u : Nat) (d : Dev) : Dev :=
  match mapGet d.media.units u with
  | none => d
  | some x =>
    let cls := u / 2 ^ 48
    let d1 := modifyMedia (fun m => { m with units := mapErase m.units u, buffer := m.buffer.filter (· ≠ u) }) d
    let (v, d2) := placeUnit x.ns cls x.lu x.data false d1
    let d3 := if entryOf d2 x.ns x.lu = some (u % 2 ^ 48) then journal (.map x.ns x.lu [v]) d2 else d2
    { d3 with reqs := mapValues d3.reqs fun _ q =>
        if (q.op = 2 || q.obj.units ≠ 0) && objClass d3 q.key = cls then
          { q with entries := q.entries.map fun e => if e = some (u % 2 ^ 48) then v else e }
        else q }

/-- The page of a buffered unit ends its program (R359, R374). -/
def endBufferPage (u : Nat) (r : PageEnd) (d : Dev) : Dev :=
  let cls := u / 2 ^ 48
  let v := u % 2 ^ 48
  let page := d.media.buffer.filter (samePage u)
  let ch := channelOf d cls v
  match mapGet d.media.store.bands (bandOfVua d cls v) with
  | none => d
  | some b =>
    match r with
    | .pass =>
      modifyMedia (fun m => { m with buffer := m.buffer.filter fun x => !page.contains x, silent := mapErase m.silent (lunKey ch b.row) })
        (page.foldl (fun d x => markProgrammed x d) (gaugeCount (0x104 + 16 * ch) d))
    | _ =>
      let d1 := closeBand (bandOfVua d cls v) (gaugeCount (0x105 + 16 * ch) (gaugeCount (0x104 + 16 * ch) d))
      retireBlock b.row b.block ch (planeOf d cls v) (page.foldl (fun d x => reprogram x d) d1)

/-- A reclamation's copies given up as orphans and made again from the source (R369). -/
def restartJob (k : Nat) (d : Dev) : Dev :=
  match d.media.jobs.find? fun j => j.source = k, mapGet d.media.store.bands k with
  | some j, some b =>
    let (cs, d1) := (validUnits d k b).foldl (fun acc u => copyUnit b.cls u acc) ([], d)
    queueCommit k (addNum 0x382006 (cs.filter (·.dst.isSome)).length
      (modifyMedia (fun m => { m with jobs := m.jobs.map fun x => if x.source = j.source then { x with step := .copy, made := cs } else x }) d1))
  | _, _ => d

/-- The page of a copy ends its program or its read-back (R368 steps 1 and 2, R369). -/
def endCopyPage (k i : Nat) (r : PageEnd) (d : Dev) : Dev :=
  match d.media.jobs.find? fun j => j.source = k && j.step = .copy with
  | none => d
  | some j =>
    match (j.made[i]?).bind (·.dst) with
    | none => d
    | some v =>
      let ch := channelOf d j.cls v
      match mapGet d.media.store.bands (bandOfVua d j.cls v) with
      | none => d
      | some b =>
        let d1 := gaugeCount (0x104 + 16 * ch) d
        match r with
        | .pass => queueCommit k (markProgrammed (unitKey j.cls v) d1)
        | .programFail =>
          restartJob k (retireBlock b.row b.block ch (planeOf d j.cls v) (closeBand (bandOfVua d j.cls v) (gaugeCount (0x105 + 16 * ch) d1)))
        | .verifyFail =>
          let d2 := modifyWear b.row b.block (fun w => { w with verifyFails := w.verifyFails + 1 }) (gaugeCount (0x108 + 16 * ch) d1)
          let d3 := closeBand (bandOfVua d j.cls v) d2
          restartJob k (if 3 ≤ (blockWear d3 b.row b.block).verifyFails then retireBlock b.row b.block ch (planeOf d j.cls v) d3 else d3)

/-- A band set on its way to an erase: what is valid in it is relocated first (R368, R377). -/
def eraseBand (k : Nat) (d : Dev) : Dev :=
  if d.media.jobs.any (·.source = k) then d else startJob k 4 (closeBand k d)

/-- Bands that waiting commands want erased, as far as their reclamation may start. -/
def startErases (d : Dev) : Dev := ((d.media.waits.map (·.bands)).flatten).foldl (fun d k => eraseBand k d) d

/-- PAGE_PROGRAM_DONE (R359, R368). -/
def pageProgramDone (p : PageOf) (r : PageEnd) (d : Dev) : Dev :=
  match p with
  | .buffer k =>
    match d.media.buffer[k]? with
    | some u => background (startErases (endBufferPage u r d))
    | none => d
  | .copy band i => background (endCopyPage band i r d)

/-- PAGE_PROGRAM_DONE (R359). -/
def execPageProgramDone (p : PageOf) (r : PageEnd) (now : Nat) (s : State) : Host.Outcome State Fault Refusal :=
  run (fun d => pageProgramDone p r (advanceTo now d)) s

/-! ## Format NVM and Sanitize: their waiting (R377) -/

/-- Waiting commands whose erases have passed and whose records are committed completed (R377). -/
def endWaits (d : Dev) : Dev :=
  let ready (w : MediaWait) : Bool := w.bands.isEmpty && d.media.journal.all fun r => decide (w.seq < r.1)
  (d.media.waits.filter ready).foldl (fun d w => finish { ctrl := w.ctrl, sq := 0, cid := w.cid, cdw0 := w.opc, nsid := w.nsid } d)
    (modifyMedia (fun m =>
      { m with
        waits := m.waits.filter fun w => !ready w
        sanitized := m.sanitized + (m.waits.filter fun w => ready w && w.opc = 0x84).length }) d)

/-! ## Erases (R368 step 5, R369, R370) -/

/-- The largest value of an erase counter (R370). -/
def eraseMax : Nat := 0xFFFFF

/-- BAND_ERASE_DONE: the source band of a drained reclamation is erased; `failed` names the blocks whose erase reports failure, as channel *
4 + plane (R368, R369, R370). -/
def bandEraseDone (k : Nat) (failed : List Nat) (d : Dev) : Dev :=
  match d.media.jobs.find? fun j => j.source = k && j.step = .erase, mapGet d.media.store.bands k with
  | some j, some b =>
    let d1 := modifyWear b.row b.block (fun w => { w with erases := min eraseMax (w.erases + 1), reads := 0 }) d
    let d2 := (List.range 16).foldl (fun d ch => gaugeAdd (0x106 + 16 * ch) d.media.geo.planes d) d1
    let mine (u : Nat) : Bool := u / 2 ^ 48 = b.cls && bandOfVua d b.cls (u % 2 ^ 48) = k
    let d3 := modifyMedia (fun m =>
      { m with
        units := m.units.filter fun u => !mine u.1
        bad := m.bad.filter fun u => !mine u
        jobs := m.jobs.filter fun x => x.source ≠ k
        waits := m.waits.map fun w => { w with bands := w.bands.filter (· ≠ k) } }) d2
    let d4 := journal (.band k { b with state := .free, next := 0, pins := 0 }) d3
    let d5 := failed.foldl (fun d p => retireBlock b.row b.block (p / 4 % 16) (p % 4) (gaugeCount (0x107 + 16 * (p / 4 % 16)) d)) d4
    let d6 := if j.cause = 1 then addNum 0x381005 (j.made.length * unitBytes b.cls) d5 else if j.cause = 4 then d5 else bump 0x382005 d5
    background (endWaits d6)
  | _, _ => d

/-- BAND_ERASE_DONE (R368). -/
def execBandEraseDone (band : Nat) (failed : List Nat) (now : Nat) (s : State) : Host.Outcome State Fault Refusal :=
  run (fun d => bandEraseDone band failed (advanceTo now d)) s

/-! ## The other events -/

/-- LUN_ANSWER_TIMEOUT: a LUN has not answered within 10 ms; the third time in a row retires it (R374). -/
def lunTimeout (ch row : Nat) (d : Dev) : Dev :=
  if rowCount d ≤ row ∨ d.media.lunsRetired.contains (lunKey ch row) then d
  else
    let k := mapGetD d.media.silent (lunKey ch row) 0 + 1
    let d1 := gaugeCount (0x10A + 16 * ch) (modifyMedia (fun m => { m with silent := mapSet m.silent (lunKey ch row) k }) d)
    if 3 ≤ k then background (retireLun ch row d1) else d1

/-- LUN_ANSWER_TIMEOUT (R374). -/
def execLunAnswerTimeout (ch : Fin 16) (row now : Nat) (s : State) : Host.Outcome State Fault Refusal :=
  run (fun d => lunTimeout ch.val row (advanceTo now d)) s

/-- JOURNAL_COMMIT: the oldest `n` records stand on two dies (R363). -/
def execJournalCommit (now n : Nat) (s : State) : Host.Outcome State Fault Refusal :=
  run (fun d => background (endWaits (drainJobs (commitJournal n (advanceTo now d))))) s

/-- FOLD_IDLE_TIMER: 100 ms without host writes start folding (R361). -/
def execFoldIdleTimer (now : Nat) (s : State) : Host.Outcome State Fault Refusal :=
  run (fun d =>
    let d1 := advanceTo now d
    if d1.media.hostWriteAt + 100000000 ≤ d1.tm ∧ d1.media.ready then background (modifyMedia (fun m => { m with folding := true }) d1) else d1) s

/-- MAP_WORD_REBUILT: a word rebuilt from the checkpoint and the journal, which give the entry it held (R355). -/
def execMapWordRebuilt (ns lu now : Nat) (s : State) : Host.Outcome State Fault Refusal :=
  run (fun d => modifyMedia (fun m => { m with badWords := m.badWords.filter (· ≠ mapKey ns lu) }) (advanceTo now d)) s

/-- The newest unit of a logical unit by its out-of-band record (R366). -/
def newestUnit (d : Dev) (ns lu : Nat) : Option Nat :=
  let l := (d.media.units.filter fun u => u.2.ns = ns && u.2.lu = lu && u.2.programmed).map fun u => (u.2.seq, u.1 % 2 ^ 48)
  match l with
  | [] => none
  | x :: xs => some (xs.foldl (fun a b => if a.1 < b.1 then b else a) x).2

/-- A map chunk rebuilt from the out-of-band records: for each logical unit the highest write sequence wins (R366). -/
def rebuildChunk (ns chunk : Nat) (d : Dev) : Dev :=
  let lus := ((d.media.units.filter fun u => u.2.ns = ns && u.2.lu / 16384 = chunk).map fun u => u.2.lu).eraseDups
  let d1 := modifyMedia (fun m => { m with rebuilding := m.rebuilding.filter (· ≠ mapKey ns chunk) }) d
  lus.foldl (fun d lu => journal (.map ns lu [newestUnit d ns lu]) d) d1

/-- Both copies of an item are unreadable (R366). -/
def loseItem (i : MetaItem) (d : Dev) : Dev :=
  let d1 := setCritical 4 (logError 0x06 2 7 0 [] d)
  let degrade (d : Dev) : Dev := modifyMedia (fun m => { m with state := max m.state 1 }) d
  let chunk (d : Dev) (c : Nat × Nat) : Dev := modifyMedia (fun m => { m with rebuilding := insNat (mapKey c.1 c.2) m.rebuilding }) d
  match i with
  | .mapChunk ns c => chunk d1 (ns, c)
  | .journalPage cs => cs.foldl chunk (degrade d1)
  | .firmware slot =>
    degrade (if slot = 1 then { d1 with fw := { d1.fw with mirror := d1.fw.mirror.set 0 [] } }
      else if slot = 2 then { d1 with fw := { d1.fw with mirror := d1.fw.mirror.set 1 [] } } else d1)
  | .profile p => { d1 with profiles := mapErase d1.profiles p }
  | .program slot => modifyProg slot (fun s => { s with state := 0, current := none, owner := 0, changedAt := d1.tm }) d1
  | .other => d1

/-- One copy of an item rewritten to another die and journaled; the rebuild of a chunk that had lost both ends with it (R365, R366). -/
def remirror (i : MetaItem) (d : Dev) : Dev :=
  match i with
  | .mapChunk ns c =>
    if d.media.rebuilding.contains (mapKey ns c) then journal (.checkpoint ns c) (rebuildChunk ns c d)
    else journal (.checkpoint ns c) (logError 0x06 1 6 0 [] d)
  | .journalPage cs =>
    (cs.filter fun c => d.media.rebuilding.contains (mapKey c.1 c.2)).foldl (fun d c => rebuildChunk c.1 c.2 d) (logError 0x06 1 6 0 [] d)
  | _ => logError 0x06 1 6 0 [] d

/-- METADATA_REMIRROR: a lost copy is rewritten, or `both` copies turn out unreadable (R365, R366). -/
def execMetadataRemirror (i : MetaItem) (both : Bool) (now : Nat) (s : State) : Host.Outcome State Fault Refusal :=
  run (fun d => if both then loseItem i (advanceTo now d) else remirror i (advanceTo now d)) s

/-! ## Format NVM and Sanitize (R97, R192, R377) -/

/-- Every object, value and entry of a namespace gone; a block or Key Value namespace gets a fresh key (R192, R377). -/
def emptyNamespace (n : Namespace) (d : Dev) : Dev :=
  if n.kind = 2 then
    let d1 := (nsObjs d n.tag).foldl (fun d ko => evictObject ko.2.key ko.1 ko.2 d) d
    modifyMedia (fun m => { m with titles := m.titles.filter fun t => t.1 / 2 ^ 32 ≠ n.tag }) d1
  else
    let used := (d.media.store.map.filter fun e => e.1 / 2 ^ 32 = n.idx).map fun e => (e.1 % 2 ^ 32, [none])
    freshNsKey n.idx (journal (.kv n.idx [] used) d)

/-- Bands that hold data of a namespace. -/
def bandsOf (d : Dev) (idx : Nat) : List Nat :=
  ((d.media.units.filter fun u => u.2.ns = idx).map fun u => bandOfVua d (u.1 / 2 ^ 48) (u.1 % 2 ^ 48)).eraseDups

/-- Buffered units that a command discards, with their place in the bands. -/
def dropBuffered (p : FlashUnit → Bool) (d : Dev) : Dev :=
  modifyMedia (fun m => { m with buffer := m.buffer.filter fun k => match mapGet m.units k with
    | some u => !p u
    | none => false }) d

/-- The wait of a Format NVM or Sanitize (R377). -/
def waitErase (c : Cmd) (bands : List Nat) (d : Dev) : Dev :=
  let w : MediaWait := { ctrl := c.ctrl, cid := c.cid, opc := c.opc, nsid := c.nsid, bands := bands, seq := d.media.seq }
  endWaits (drainJobs (startErases (modifyMedia (fun m => { m with waits := m.waits ++ [w] }) d)))

/-- LBA formats of a namespace (R103): a block namespace has two, every other kind one. -/
def formatOk (n : Namespace) (lbaf : Nat) : Bool := lbaf = 0 || (n.kind = 0 && lbaf = 1)

/-- A namespace in another LBA format, of the same size in bytes. -/
def reformat (lbaf : Nat) (n : Namespace) : Namespace :=
  if n.kind ≠ 0 then n
  else
    let n' := { n with fmt := lbaf }
    { n' with nsze := nsBytes n / lbaBytes n', ncap := n.ncap * lbaBytes n / lbaBytes n' }

/-- FORMAT_NVM: opcode 80h with its LBA format and its secure erase setting (R97, R377). -/
def execFormatNvm (c : Cmd) (lbaf ses : Nat) (s : State) : Host.Outcome State Fault Refusal :=
  let c := withOp 0x80 c
  run (pfCmd c (fun d =>
    match mapGet d.media.nss c.nsid with
    | none => done c stNamespace d
    | some n =>
      if 2 ≤ ses then done c stField d
      else if !formatOk n lbaf then done c stFormat d
      else
        let bands := if ses = 1 then bandsOf d n.idx else []
        let d1 := dropBuffered (fun u => u.ns = n.idx) (emptyNamespace n d)
        let d2 := modifyMedia (fun m => { m with nss := mapUpdate m.nss c.nsid (reformat lbaf) }) d1
        background (waitErase c bands d2))) s

/-- SANITIZE: opcode 84h; action 2 is Block Erase (R97, R377). -/
def execSanitize (c : Cmd) (action : Nat) (s : State) : Host.Outcome State Fault Refusal :=
  let c := withOp 0x84 c
  run (pfCmd c (fun d =>
    if action ≠ 2 then done c stField d
    else
      let d1 := dropBuffered (fun _ => true) (d.media.nss.foldl (fun d kn => emptyNamespace kn.2 d) d)
      let bands := (d1.media.store.bands.filter fun kb => kb.2.state ≠ .free).map Prod.fst
      waitErase c bands d1)) s

end Sys2Proof.Machine
end

