-- ==== Sys2Proof/Machine/Dredge.lean ====
section
/-! DEFINITION. Machine/Dredge.lean: the scrubber: software and periodic passes over the Pool, DRAM and flash (R420 to R424). -/
namespace Sys2Proof.Machine

/-- The integrity unit changed. -/
def modifyInteg (f : Integrity → Integrity) (d : Dev) : Dev := { d with integ := f d.integ }

/-- True when a range is one that a pass may cover: inside its target, aligned, not empty (R420). -/
def passRangeOk (d : Dev) (target cls start length : Nat) : Bool :=
  let aligned := decide (start % 64 = 0 ∧ length % 64 = 0 ∧ 0 < length)
  if target = 0 then aligned && decide (start + length ≤ poolSize d.variant)
  else if target = 1 then aligned && decide (start + length ≤ dramCapacity d.dram.cfg)
  else target = 2 && decide (0 < length ∧ start + length ≤ reachBands d cls)

/-- A pass started: its record is made anew, state running (R423). -/
def startPass (target cls start length origin : Nat) (d : Dev) : Dev :=
  modifyInteg (fun g =>
    { g with dredge := { target := target, state := 1, origin := origin, cls := cls, start := start, length := length, startedAt := d.tm } }) d

/-- A due periodic pass started over its whole target; codes 2 to 4 are flash of class 0 to 2 (R424). -/
def startPeriodic (code : Nat) (d : Dev) : Dev :=
  if code = 0 then startPass 0 0 0 (poolSize d.variant) 1 d
  else if code = 1 then startPass 1 0 0 (dramCapacity d.dram.cfg) 1 d
  else startPass 2 (code - 2) 0 (reachBands d (code - 2)) 1 d

/-- The longest waiting periodic pass started where no pass runs (R424). -/
def startDuePass (d : Dev) : Dev :=
  match d.integ.periodicDue with
  | [] => d
  | c :: cs => if d.integ.dredge.state = 1 then d else startPeriodic c (modifyInteg (fun g => { g with periodicDue := cs }) d)

/-- The pass ended with a state; the record's state is written last (R423). -/
def endPassWith (st : Nat) (d : Dev) : Dev :=
  startDuePass (modifyInteg (fun g => { g with dredge := { g.dredge with state := st, endedAt := d.tm } }) d)

/-- A software start from object 0xA030 where no pass runs (R420). -/
def softwarePass (d : Dev) : Dev :=
  let target := objNum d 0xA03001
  let cls := objNum d 0xA03004
  if d.integ.dredge.state ≠ 1 ∧ passRangeOk d target cls (objNum d 0xA03002) (objNum d 0xA03003) then
    startPass target cls (objNum d 0xA03002) (objNum d 0xA03003) 0 d
  else d

/-- A running pass stopped (R420). -/
def stopPass (d : Dev) : Dev := if d.integ.dredge.state = 1 then endPassWith 3 d else d

/-- Word key of the first word of a memory pass. -/
def passWord (p : DredgePass) : Nat := (if p.target = 0 then poolKey p.start else dramKey p.start) / 4

/-- The reads of a memory pass: `ecc` gives, by word of the range, what is not clean; stored poison is met too (R421). -/
def memoryPass (ecc : List (Nat × Ecc)) (d : Dev) : Dev :=
  let p := d.integ.dredge
  let w0 := passWord p
  let n := p.length / 4
  let mine := ecc.filter fun e => decide (e.1 < n)
  let stored := d.poisoned.filter fun w => decide (w0 ≤ w ∧ w < w0 + n)
  let d1 := stored.foldl (fun d w => (readWord (4 * w) .clean d).2) d
  let fresh := mine.filter fun e => !(d.poisoned.contains (w0 + e.1))
  let d2 := fresh.foldl (fun d e => (readWord (4 * (w0 + e.1)) e.2 d).2) d1
  modifyInteg (fun g =>
    { g with dredge := { g.dredge with
        progress := p.length
        corrected := (fresh.filter fun e => e.2 = .corrected).length
        uncorrectable := (fresh.filter fun e => e.2 = .uncorrectable).length
        poisonedOrWeak := stored.length
        faults := objNum d2 0xA00006 - objNum d 0xA00006 } }) d2

/-- One unit read by a flash pass with its outcome; a cache object's unit that fails every step withdraws the object (R422, R373).  The
number is the objects withdrawn so far. -/
def passUnit (cls : Nat) (reads : List (Nat × Decode)) (weak : List (Nat × Nat)) (u : Nat × Nat × Nat) (acc : Nat × Dev) : Nat × Dev :=
  let dec := (reads.lookup u.2.2).getD .hard
  let beyond := (weak.lookup u.2.2).getD 0
  let d1 := flashRead cls u.2.2 dec acc.2
  let d2 := if beyond = 0 then d1 else gaugeAdd (0x10D + 16 * channelOf d1 cls u.2.2) beyond d1
  let d3 := if beyond ≠ 0 ∨ dec ≠ .hard then scheduleRefresh (bandOfVua d2 cls u.2.2) d2 else d2
  if dec = .fail then
    match nsByIdx d3 u.1 with
    | some (_, n) =>
      if n.kind = 2 then
        (match (nsObjs d3 n.tag).find? fun ko => decide (ko.2.base ≤ u.2.1 ∧ u.2.1 < ko.2.base + ko.2.units) with
          | some (rec, _) => (acc.1 + 1, withdrawObject rec 1 0 d3)
          | none => (acc.1, d3))
      else (acc.1, d3)
    | none => (acc.1, d3)
  else (acc.1, d3)

/-- The reads of a flash pass: every valid unit of every band of its range; `reads` gives by address what is not a hard decision at default
levels, `weak` the codewords above the threshold, `corrected` the codewords with corrected bits (R422). -/
def flashPass (corrected : Nat) (reads : List (Nat × Decode)) (weak : List (Nat × Nat)) (d : Dev) : Dev :=
  let p := d.integ.dredge
  let mine := d.media.store.bands.filter fun kb => kb.2.cls = p.cls && decide (p.start ≤ kb.2.num ∧ kb.2.num < p.start + p.length)
  let units := (mine.map fun kb => validUnits d kb.1 kb.2).flatten
  let (gone, d1) := units.foldl (fun acc u => passUnit p.cls reads weak u acc) (0, d)
  let isWeak (u : Nat × Nat × Nat) : Bool := decide ((weak.lookup u.2.2).getD 0 ≠ 0) || decide ((reads.lookup u.2.2).getD .hard ≠ .hard)
  modifyInteg (fun g =>
    { g with dredge := { g.dredge with
        progress := p.length
        corrected := corrected
        uncorrectable := (units.filter fun u => (reads.lookup u.2.2) = some .fail).length
        poisonedOrWeak := ((units.filter isWeak).map fun u => bandOfVua d p.cls u.2.2).eraseDups.length
        faults := gone } }) d1

/-- DREDGE_PASS_DONE: the pass that runs reaches the end of its range (R421 to R424). -/
def execDredgePassDone (now : Nat) (ecc : List (Nat × Ecc)) (corrected : Nat) (reads : List (Nat × Decode)) (weak : List (Nat × Nat)) (s : State) : Host.Outcome State Fault Refusal :=
  run (fun d =>
    let d0 := advanceTo now d
    if d0.integ.dredge.state ≠ 1 || d0.integ.dredge.suspended then d0
    else endPassWith 2 (if d0.integ.dredge.target = 2 then flashPass corrected reads weak d0 else memoryPass ecc d0)) s

/-- PERIODIC_DREDGE: the interval of a target's periodic pass elapses; the pass starts, or waits behind the one that runs (R424). -/
def execPeriodicDredge (now : Nat) (target : Fin 3) (s : State) : Host.Outcome State Fault Refusal :=
  run (fun d =>
    let d0 := advanceTo now d
    let hours := objNum d0 (0xA03201 + target.val)
    if d0.power.phase ≠ .ready ∨ hours = 0 ∨ d0.tm < d0.integ.periodicAt[target] + hours * 3600000000000 then d0
    else
      let codes := if target = 2 then [2, 3, 4] else [target.val]
      startDuePass (modifyInteg (fun g =>
        { g with
          periodicAt := g.periodicAt.set target d0.tm
          periodicDue := g.periodicDue ++ codes.filter fun c => !g.periodicDue.contains c }) d0)) s

end Sys2Proof.Machine
end

