-- ==== Sys2Proof/Machine/Weir.lean ====
section
/-! DEFINITION. Machine/Weir.lean: the control engine: samples, set-points, the law's steps, overruns and failsafe, freeze and swap, and
the alarm limits (R447 to R458, R550). -/
namespace Sys2Proof.Machine

/-! ## Q16.16 arithmetic (R447) -/

/-- A value saturated at 0x7FFF_FFFF and 0x8000_0000 (R447). -/
def satQ (x : Int) : Int := max (-2147483648) (min 2147483647 x)

/-- An exact quotient by a positive divisor; where it is inexact, either neighbour (log entry 43). -/
def roundQ (num den : Int) : Int := if num % den = 0 then num / den else if Config.weirRound num then num / den + 1 else num / den

/-- Product of two Q16.16 numbers (R447). -/
def mulQ (a b : Int) : Int := satQ (roundQ (a * b) 65536)

/-- The word of a Q16.16 number. -/
def wordQ (x : Int) : Word := BitVec.ofInt 32 x

/-- A number object read as Q16.16. -/
def objQ (d : Dev) (k : Nat) : Int := (BitVec.ofNat 32 (objNum d k)).toInt

/-! ## The law's objects (R449, R455) -/

/-- Steps, coefficients and integrator limits: what freeze stages (R455). -/
def isLawObj (k : Nat) : Bool :=
  decide (0x312001 ≤ k ∧ k ≤ 0x312010) || decide (0x312201 ≤ k ∧ k ≤ 0x312208) || decide (0x313001 ≤ k ∧ k ≤ 0x313040)

/-- A law object as a dictionary read sees it: the staged value while frozen (R455). -/
def lawNum (d : Dev) (k : Nat) : Nat :=
  match d.weir.staged with
  | some m => mapGetD m k (objNum d k)
  | none => objNum d k

/-- A step word that R449 allows. -/
def stepValid (w : Nat) : Bool :=
  let op := bits w 31 28
  let dst := bits w 27 22
  let b := bits w 15 10
  bits w 9 0 = 0 && (if op = 0 then true
    else if op ≤ 6 then decide (0x30 ≤ dst ∧ dst ≤ 0x37)
    else if op = 7 then decide (0x3C ≤ dst)
    else op = 8 && decide (dst + b ≤ 17))

/-! ## Outputs (R448, R457) -/

/-- True while the island of an output takes what Weir writes: present and not power-gated (R448, R457). -/
def outputLive (d : Dev) (o : Fin 17) : Bool :=
  (List.range 42).any fun i => islandOutput i = some o && decide (islandState d i < 2)

/-- The token limit that a value gives: within object 0x3140's range, and at most 16 in Trim (R430, R448). -/
def clampTokens (d : Dev) (v : Int) : Nat :=
  let lo := objNum d 0x314002
  let t := (max (Int.ofNat lo) (min (Int.ofNat (objNum d 0x314003)) v)).toNat
  if d.power.state = 1 then min 16 t else t

/-- The divisor that a value gives: 1 to 16, and at least the Trim floor in Trim (R430, R448). -/
def clampDivisor (d : Dev) (v : Int) : Nat :=
  let t := (max 1 (min 16 v)).toNat
  if d.power.state = 1 then max (objNum d 0x305006) t else t

/-- One output written at a Tidemark; the power-fail sequence overrides it (R448, R457). -/
def writeOutput (o : Nat) (v : Int) (at_ : Nat) (d : Dev) : Dev :=
  if d.power.phase = .flushing then d
  else if o = 0 then setNum 0x314004 (at_ % 2 ^ 64) (modifyWeir (fun w => { w with tokens := clampTokens d v }) d)
  else
    let i : Fin 17 := ⟨(o - 1) % 17, by omega⟩
    if outputLive d i then modifyWeir (fun w => { w with div := w.div.set i (clampDivisor d v) }) d else d

/-- Every output at its failsafe value (R448, R451). -/
def failsafeOutputs (d : Dev) : Dev :=
  if d.power.phase = .flushing then d
  else modifyWeir (fun w => { w with tokens := objNum d 0x314002, div := Vector.replicate 17 16 }) d

/-! ## Set-points (R452) -/

/-- Value of a measured register, 0x00 to 0x1F (R447). -/
def measured (d : Dev) (r : Nat) : Word := if r < 28 then (d.weir.x.toList).getD r 0 else 0

/-- Target of a set-point; S0 is at most 11 W in PS1 (R452). -/
def targetOf (d : Dev) (n : Fin 4) : Word :=
  let t := objQ d ((0x3110 + n.val) * 256 + 1)
  wordQ (if n.val = 0 ∧ requestPs1 d then min t (11 * 65536) else t)

/-- Sample period in µs; at least 10 in Slumber (R450). -/
def samplePeriod (d : Dev) : Nat :=
  let p := objNum d 0x310002
  if d.power.state = 3 then max 10 p else p

/-- One set-point before step 0 of a sample (R452). -/
def updateSetpoint (n : Fin 4) (d : Dev) : Dev :=
  let t := targetOf d n
  let slope := objQ d ((0x3110 + n.val) * 256 + 2)
  let changed := decide (d.weir.lastTarget[n] ≠ some t)
  let s0 := if changed then (measured d (objNum d ((0x3110 + n.val) * 256 + 3))).toInt else d.weir.s[n].toInt
  let ramping := changed || d.weir.ramping.getLsbD n.val
  let delta := roundQ (slope * samplePeriod d) 1000
  let s1 := if s0 ≤ t.toInt then satQ (s0 + delta) else satQ (s0 - delta)
  let reached := decide (slope = 0) || (if s0 ≤ t.toInt then decide (t.toInt ≤ s1) else decide (s1 ≤ t.toInt))
  let value := if !ramping then s0 else if reached then t.toInt else s1
  let flag : BitVec 4 := 1#4 <<< n.val
  modifyWeir (fun w =>
    { w with
      s := w.s.set n (wordQ value)
      ramping := if ramping && !reached then w.ramping ||| flag else w.ramping &&& ~~~flag
      lastTarget := w.lastTarget.set n (some t) }) d

/-! ## Steps (R449) -/

/-- Value of an operand register (R447). -/
def weirReg (d : Dev) (w : List Int) (r : Nat) : Int :=
  if r < 0x20 then (measured d r).toInt
  else if r < 0x30 then objQ d (0x312001 + (r - 0x20))
  else if r < 0x38 then w.getD (r - 0x30) 0
  else if r < 0x3C then ((d.weir.s.toList).getD (r - 0x38) 0).toInt
  else ((d.weir.i.toList).getD (r - 0x3C) 0).toInt

/-- INT: an increment added to an integrator, clamped to its limits, with its saturation flag (R453). -/
def integrate (k : Fin 4) (inc : Int) (d : Dev) : Dev :=
  let lo := objQ d (0x312201 + k.val)
  let hi := objQ d (0x312205 + k.val)
  let v := satQ (d.weir.i[k].toInt + inc)
  let acts := decide (v < lo ∨ hi < v)
  let r := if v < lo then lo else if hi < v then hi else v
  let flag : BitVec 4 := 1#4 <<< k.val
  modifyWeir (fun w =>
    { w with
      i := w.i.set k (wordQ r)
      sat := if acts then w.sat ||| flag else if lo < r ∧ r < hi then w.sat &&& ~~~flag else w.sat }) d

/-- OUT: outputs from `o` on, `n` of them (R449). -/
def writeOutputs (o : Nat) (v : Int) (at_ : Nat) : Nat → Dev → Dev
  | 0, d => d
  | n + 1, d => writeOutputs (o + 1) v at_ n (writeOutput o v at_ d)

/-- Steps from step `j` on with the working registers; the number of steps run (R449, R450).  In failsafe OUT is discarded and INT leaves
its integrator (R451). -/
def runLaw (safe : Bool) (s0 stepNs j : Nat) : Nat → List Int → Dev → Nat × Dev
  | 0, _, d => (j, d)
  | fuel + 1, w, d =>
    let word := objNum d (0x313001 + j)
    let op := bits word 31 28
    let dst := bits word 27 22
    let a := weirReg d w (bits word 21 16)
    let b := weirReg d w (bits word 15 10)
    let put (v : Int) : Nat × Dev := runLaw safe s0 stepNs (j + 1) fuel (w.set (dst - 0x30) v) d
    if op = 0 then (j + 1, d)
    else if op = 1 then put a
    else if op = 2 then put (satQ (a + b))
    else if op = 3 then put (satQ (a - b))
    else if op = 4 then put (mulQ a b)
    else if op = 5 then put (max a b)
    else if op = 6 then put (min a b)
    else if op = 7 then
      runLaw safe s0 stepNs (j + 1) fuel w (if safe then d else integrate ⟨(dst - 0x3C) % 4, by omega⟩ (mulQ a b) d)
    else
      let n := bits word 15 10 + 1
      runLaw safe s0 stepNs (j + 1) fuel w
        (if safe then d else writeOutputs dst ((a + 32768) / 65536) (s0 + 600 + j * stepNs / 100) n d)

/-! ## Swap (R455) -/

/-- The staged set becomes the active one and goes to the PRA; the Object Writes that waited complete (R455, R477). -/
def swapLaw (d : Dev) : Dev :=
  match d.weir.staged with
  | none => d
  | some m =>
    let d1 := m.foldl (fun d kv => devPersist kv.1 kv.2 d) d
    let d2 := bump 0x31000A (setNum 0x310003 0 (modifyWeir (fun w => { w with staged := none, swapDue := false, acks := [] }) d1))
    d.weir.acks.foldl (fun d a => finish { ctrl := a.1, sq := 0, cid := a.2, cdw0 := 0xC1 } d) d2

/-- The staged set discarded and freeze cleared (R455). -/
def discardStaged (d : Dev) : Dev :=
  let d1 := setNum 0x310003 0 (modifyWeir (fun w => { w with staged := none, swapDue := false, acks := [] }) d)
  d.weir.acks.foldl (fun d a => finish { ctrl := a.1, sq := 0, cid := a.2, cdw0 := 0xC1 } d) d1

/-- Freeze: the active steps, coefficients and limits copied into a staged set; writes then go to it.  The copy needs no entry for what has
not been written, which reads the active value (R455). -/
def freezeLaw (d : Dev) : Dev :=
  if d.weir.staged.isSome then d else setNum 0x310003 1 (modifyWeir (fun w => { w with staged := some [] }) d)

/-- Unfreeze: the swap is requested for the next sample that runs; nothing where Weir is not frozen (R455). -/
def unfreezeLaw (d : Dev) : Dev := if d.weir.staged.isSome then modifyWeir (fun w => { w with swapDue := true }) d else d

/-- The law enabled: integrators 0, flags clear, every target counts as changed (R452, R453). -/
def enableLaw (d : Dev) : Dev :=
  modifyWeir (fun w => { w with i := Vector.replicate 4 0, sat := 0, lastTarget := Vector.replicate 4 none }) d

/-- The law disabled: outputs at their failsafe values, the staged set discarded (R448, R455). -/
def disableLaw (d : Dev) : Dev := withIslands failsafeOutputs (discardStaged d)

/-- True while the law runs: enabled, and the firmware has reached service (R453, R538 step 11). -/
def lawOn (d : Dev) : Bool := objNum d 0x310001 = 1 && (d.power.phase = .ready || d.power.phase = .flushing)

/-! ## Alarms and drift (R391, R456) -/

/-- Number of the hottest sensor. -/
def hottest (x : List Word) : Nat := (x.take 24).foldl (fun (acc : Nat × Nat × Int) v =>
    if acc.2.2 < v.toInt then (acc.1 + 1, acc.1, v.toInt) else (acc.1 + 1, acc.2.1, acc.2.2)) (0, 0, -2147483649) |>.2.1

/-- One alarm crossing: event, source, record and wake request (R456, R526). -/
def weirAlarm (k : Nat) (v : Word) (d : Dev) : Dev :=
  let det := leBytes 1 0 ++ leBytes 1 (if k = 0 then hottest d.weir.x.toList else 0) ++ leBytes 2 0 ++ leBytes 4 v.toNat
  latchWake 0x80 (raiseEvent (logError 0x07 3 (6 + k) 0x0F1 det (gaugeCount 0x0F1 d)))

/-- Every sample compares Tj and the two currents with their limits; a crossing upwards raises an alarm (R456). -/
def checkAlarms (d : Dev) : Dev :=
  let beyond (k r : Nat) : Bool := decide (objQ d (0x315001 + k) < (measured d r).toInt)
  let now := [beyond 0 27, beyond 1 24, beyond 2 25]
  let was (k : Nat) : Bool := d.weir.above.testBit k
  let mask (p : Nat → Bool) : Nat := (if p 0 then 1 else 0) + (if p 1 then 2 else 0) + (if p 2 then 4 else 0)
  let above := mask fun k => now.getD k false
  let up := mask fun k => now.getD k false && !was k
  let d1 := modifyWeir (fun w => { w with above := above }) d
  let d2 := if up = 0 then d1 else setNum 0x315004 up d1
  let d3 := if up.testBit 0 then weirAlarm 0 (measured d 27) d2 else d2
  let d4 := if up.testBit 1 then weirAlarm 1 (measured d 24) d3 else d3
  if up.testBit 2 then weirAlarm 2 (measured d 25) d4 else d4

/-- The drift of the DRAM PHY sensor marks every sub-channel for retraining above the limit (R391, R456). -/
def reportDrift (phy : Word) (d : Dev) : Dev :=
  let drift := (phy.toInt - d.weir.phyRecorded.toInt).natAbs
  if d.dram.trained ∧ d.power.state < 2 ∧ d.power.exiting = none ∧ objNum d 0x341002 * 65536 < drift then
    (List.finRange 4).foldl (fun d i => modifySub i (fun s => { s with retrainDue := true }) d) d
  else d

/-! ## Samples (R450, R451) -/

/-- A sample dropped because the one before still computes; the fourth in a row enters failsafe (R451). -/
def overrun (d : Dev) : Dev :=
  let d1 := bump 0x310006 (bump 0x310005 (gaugeCount 0x0EF (modifyWeir (fun w => { w with clean := 0 }) d)))
  if objNum d1 0x310006 = 4 ∧ !d1.weir.failsafe then
    raiseEvent (logError 0x07 2 5 0x0F0 [] (bump 0x310007 (gaugeCount 0x0F0
      (withIslands failsafeOutputs (modifyWeir (fun w => { w with failsafe := true, clean := 0 }) d1)))))
  else d1

/-- The X registers latched: sensors, currents from their gains, the power estimate, and Tj as the hottest sensor (R447). -/
def latchInputs (temps : Vector Word 24) (volts0 volts1 power : Word) (d : Dev) : Dev :=
  let x := temps.toList ++ [wordQ (mulQ volts0.toInt (objQ d 0x310201)), wordQ (mulQ volts1.toInt (objQ d 0x310202)), power]
  let tj := temps.toList.foldl (fun m t => max m t.toInt) temps[0].toInt
  let all := x ++ [wordQ tj]
  modifyWeir (fun w => { w with x := Vector.ofFn fun i => all.getD i.val 0 }) d

/-- A sample that runs (R450 to R453, R455). -/
def sampleRuns (temps : Vector Word 24) (volts0 volts1 power phy : Word) (delayNs : Nat) (d : Dev) : Dev :=
  let s0 := d.tm
  let d1 := bump 0x310009 (setNum 0x310006 0 (latchInputs temps volts0 volts1 power d))
  let d2 := if d1.weir.swapDue then swapLaw d1 else d1
  let d3 := reportDrift phy (checkAlarms d2)
  let stepNs := if d.power.state = 3 then 8333 else 2000
  let d4 := if lawOn d3 then
      let dS := (List.finRange 4).foldl (fun d n => updateSetpoint n d) d3
      let (n, dL) := runLaw dS.weir.failsafe s0 stepNs 0 64 (List.replicate 8 0) dS
      setNum 0x310008 (580 + n * stepNs / 100 + delayNs) dL
    else setNum 0x310008 (580 + delayNs) d3
  if d4.weir.failsafe then
    let k := d4.weir.clean + 1
    modifyWeir (fun w =>
      if 16 ≤ k then { w with failsafe := false, clean := 0, lastTarget := Vector.replicate 4 none } else { w with clean := k }) d4
  else d4

/-- What the sensors read at a sample instant, and whether the previous sample still computes (R450, R451).  `delayNs` is what accesses and a
recalibration add to the computation. -/
def weirSample (temps : Vector Word 24) (volts0 volts1 power phy : Word) (late : Bool) (delayNs : Nat) (d : Dev) : Dev :=
  if d.power.phase = .inReset ∨ d.power.phase = .off then d
  else if late then overrun d
  else withIslands (sampleRuns temps volts0 volts1 power phy delayNs) d

end Sys2Proof.Machine
end

