-- ==== Sys2Proof/Machine/Objects.lean ====
section
/-! DEFINITION. Machine/Objects.lean: what each object of the dictionary reads as (R485 to R500 and the object tables of the unit chapters),
and the pins that objects drive (R491, R492). -/
namespace Sys2Proof.Machine

/-! ## Figures over the device -/

/-- How many elements satisfy a test. -/
def countOf {α : Type} (l : List α) (p : α → Bool) : Nat := (l.filter p).length

/-- PRA objects of a variant: 1,284, 772 and 324 (R489). -/
def praCount (v : Variant) : Nat := byVariant v 1284 772 324

/-- True for an object kept in the PRA, which R477 counts; images in Meta and the Springhead record are not (R486, R489). -/
def isPra (r : ObjRow) : Bool := r.per && !(decide (0x5100 ≤ r.ilo ∧ r.ilo < 0x5140) || decide (0x7100 ≤ r.ilo ∧ r.ilo < 0x7120))

/-- Persisted writes of an object over its life (R477). -/
def wearOf (d : Dev) (k : Nat) : Nat := mapGetD d.wear k 0

/-- 0x2000.04 of a selected object (R484). -/
def wearState (d : Dev) (k : Nat) : Nat :=
  match rowOf (k / 256) (k % 256) with
  | none => 0xFF
  | some r => if !isPra r then 0xFF else if 4000000 ≤ wearOf d k then 2 else if 3600000 ≤ wearOf d k then 1 else 0

/-- 0x1100.09: the path of an owner (R484). -/
def ownerCode : Option Path → Nat
  | none => 0
  | some (.inband _) => 3
  | some (.mctp _) => 2
  | some _ => 1

/-- Physical bands. -/
def physBands (d : Dev) : Nat := rowCount d * d.media.geo.blocks

/-- Erases of every band that has been erased. -/
def eraseCounts (d : Dev) : List Nat := d.media.wear.map fun kw => kw.2.erases

/-- Units held in a class, valid and stale. -/
def unitsHeld (d : Dev) (cls : Nat) : Nat := countOf d.media.units fun ku => ku.1 / 2 ^ 48 = cls

/-- True while a transaction holds a staged value for an object. -/
def isStaged (d : Dev) (k : Nat) : Bool := d.txn.staged.any fun kv => kv.1 = k

/-- Requests bound to a version of a profile. -/
def profileBound (d : Dev) (p v : Nat) : Nat :=
  countOf d.reqs fun kr => kr.2.op < 2 && !kr.2.image.isEmpty && kr.2.profile = p && kr.2.imageVersion = v

/-- Versions of a profile that requests still use after a change (R182). -/
def retiringVersions (d : Dev) (p v : Nat) : List Nat :=
  ((d.reqs.filter fun kr => kr.2.op < 2 && !kr.2.image.isEmpty && kr.2.profile = p && kr.2.imageVersion ≠ v).map fun kr => kr.2.imageVersion).eraseDups

/-- Template store frames that are free and not reserved: 128 less the defined, retiring and staged ones (R180, R182). -/
def framesFree (d : Dev) : Nat :=
  128 - ((List.range 64).foldl (fun a p =>
    let x : Profile := mapGetD d.profiles p {}
    a + (if x.image.isEmpty then 0 else 1) + (retiringVersions d p x.version).length +
      (if isStaged d ((0x5100 + p) * 256 + 2) then 1 else 0)) 0)

/-- Profile state 0x51pp.01 (R183). -/
def profileState (d : Dev) (p : Nat) : Nat :=
  let x : Profile := mapGetD d.profiles p {}
  if isStaged d ((0x5100 + p) * 256 + 2) || isStaged d ((0x5100 + p) * 256 + 3) then 3
  else if x.image.isEmpty then 0
  else if d.variant = .vl7e ∧ imgScheme x.image ≠ 0 then 2
  else 1

/-- Free slots that sessions or title bindings name (R202). -/
def heldSlots (d : Dev) : Nat :=
  let named := (d.sess.tab.map fun ks => ks.2.content.toList ++ ks.2.transport.toList).flatten ++ d.media.titles.map fun kt => kt.2.slot
  countOf named.eraseDups fun n => quarantined d n || slotReserved d n

/-- KCV of KEK 1; 0 when it is not loaded (R222). -/
def kekKcv (d : Dev) : Nat :=
  match d.keys.kek1 with
  | some k => kcvOf k
  | none => 0

/-- Members joined, this one included, as a bitmap (R494). -/
def joinedMask (d : Dev) : Nat :=
  ((joinedOthers d ++ if d.cas.state = 2 ∨ d.cas.state = 3 then [selfId d] else []).eraseDups.filter (· < 8)).foldl (fun a m => a + 2 ^ m) 0

/-- Member limit of a variant code (R1, R8). -/
def variantMembers (v : Nat) : Nat := if v = 0 then 8 else if v = 1 then 4 else 1

/-- Member limit in force: the lowest of the joined members whose PCIe link is up; standalone the variant's own (R7, R494). -/
def memberLimit (d : Dev) : Nat :=
  let own := objNum d 0x100805
  if d.cas.state = 2 ∨ d.cas.state = 3 then
    ((d.cas.members.filter fun km => km.1 ≠ selfId d && km.2.linkUp && (km.2.state = 2 || km.2.state = 3)).map fun km =>
      variantMembers km.2.variant).foldl min (if linkUp d 0 || linkUp d 1 then own else 8)
  else own

/-- Link word of a port (R89). -/
def linkWord (p : Port) : Nat := if p.speed = 0 then 0 else p.speed + 16 * p.width

/-- The record that a log's selector names (R498, R499). -/
def selectedRec (l : EventLog) : Option LogRec :=
  if l.selector = 0 then l.recs.head? else l.recs.find? fun r => r.seq = l.selector

/-- True for a continuation whose parent the ring has overwritten (R527). -/
def orphanRec (l : EventLog) (r : LogRec) : Bool :=
  r.cls = 0xFF && !(l.recs.any fun p => p.cls ≠ 0xFF && decide (1 ≤ (r.seq + 2 ^ 32 - p.seq) % 2 ^ 32 ∧ (r.seq + 2 ^ 32 - p.seq) % 2 ^ 32 ≤ p.conts))

/-- The 64 bytes of a record (R525). -/
def recBytes (r : LogRec) : Bytes :=
  leBytes 4 r.seq ++ leBytes 1 r.cls ++ leBytes 1 r.sev ++ leBytes 2 r.code ++ leBytes 8 r.first ++ leBytes 8 r.last ++ leBytes 2 r.repeats ++
    leBytes 2 r.origin ++ leBytes 1 r.iface ++ leBytes 1 r.conts ++ leBytes 2 r.gauge ++ padTo 32 r.detail

/-- The summary of the current or last pass (R423). -/
def passSummary (p : DredgePass) : Bytes :=
  leBytes 1 p.target ++ leBytes 1 p.state ++ leBytes 1 p.origin ++ leBytes 1 p.cls ++ leBytes 4 0 ++ leBytes 8 p.start ++ leBytes 8 p.length ++
    leBytes 8 p.progress ++ leBytes 8 p.startedAt ++ leBytes 8 p.endedAt ++ leBytes 4 p.corrected ++ leBytes 4 p.uncorrectable ++
    leBytes 4 p.poisonedOrWeak ++ leBytes 2 p.faults ++ leBytes 2 0

/-- The real-time bound for the configuration in use, rounded up (R401). -/
def rtBoundNs (cfg : Nat × Nat × Nat × Nat) : Nat :=
  if cfg.2.2.2 = 6400 then (if cfg.2.1 = 32 then 163 else 148) else Config.rtBound cfg.2.1 cfg.2.2.2 % 65536

/-- A lane's word (R404). -/
def laneWord (l : DramLane) : Nat := l.readEye + 256 * l.readDelay + 65536 * l.writeEye + 2 ^ 24 * l.writeDelay

/-! ## GPIO and LED_n (R491, R492) -/

/-- True once the boot has applied the pin objects (R492). -/
def pinsLive (d : Dev) : Bool := d.power.phase ≠ .inReset && d.power.phase ≠ .boot && d.power.phase ≠ .recovery && d.power.phase ≠ .off

/-- What each GPIO drives: none for an input (R492). -/
def gpioDrive (d : Dev) (i : Nat) : Option Bool := if pinsLive d && bit (objNum d 0x205001) i then some (bit (objNum d 0x205002) i) else none

/-- Levels at the pins (R491). -/
def gpioPins (d : Dev) : Nat :=
  (List.range 8).foldl (fun a i => a + 2 ^ i * (match gpioDrive d i with
    | some b => b.toNat
    | none => (bit (Config.gpioLevel d.tm) i).toNat)) 0

/-- LED_n: blinking (locate), on, off, or high impedance before the boot applies it (R491, R492, R547). -/
inductive Led where
  | highZ | off | on | blink
  deriving DecidableEq, Repr

/-- LED_n as the objects drive it (R491, R547). -/
def ledState (d : Dev) : Led :=
  let m := objNum d 0x204001
  if !pinsLive d then .highZ
  else if objNum d 0x204002 = 1 then .blink
  else if d.power.phase = .dramFailed then (if m = 0 then .off else .on)
  else if m = 3 then .on
  else if m = 1 then (if linkUp d 0 || linkUp d 1 then .on else .off)
  else if m = 2 then (if d.media.state ≠ 0 ∨ d.keys.locked ∨ d.keys.estuary.toList.any (fun u => u.state = 1) then .on else .off)
  else .off

/-! ## Numbers -/

/-- Numbers of the identity, transaction and PRA objects. -/
def numIdentity (d : Dev) (k : Nat) : Option Nat :=
  match k with
  | 0x100006 => some (Config.factoryNum k)
  | 0x100007 => some (Config.factoryNum k)
  | 0x10000A => some d.fw.running
  | 0x110002 => some d.txn.state
  | 0x110003 => some d.txn.id
  | 0x110005 => some d.txn.staged.length
  | 0x110009 => some (ownerCode d.txn.owner)
  | 0x200001 => some (praCount d.variant)
  | 0x200003 => some (wearOf d (objNum d 0x200002))
  | 0x200004 => some (wearState d (objNum d 0x200002))
  | 0x200005 => some (countOf d.wear fun kw => decide (3600000 ≤ kw.2))
  | 0x200006 => some (countOf d.wear fun kw => decide (4000000 ≤ kw.2))
  | 0x205003 => some (gpioPins d)
  | 0x301001 => some (d.tm % 2 ^ 64)
  | 0x305001 => some d.power.state
  | 0x305002 => some (requestState d)
  | _ => none

/-- Numbers of the Weir and DRAM objects (R404, R458). -/
def numWeir (d : Dev) (k : Nat) : Option Nat :=
  let i := k / 256
  let s := k % 256
  if i = 0x3020 then some (islandWord d s)
  else if k = 0x310004 then some (if objNum d 0x310001 = 0 then 0 else if d.weir.failsafe then 2 else 1)
  else if i = 0x3101 then some ((d.weir.x.toList).getD (s - 1) 0).toNat
  else if 0x3110 ≤ i ∧ i ≤ 0x3113 ∧ s = 4 then some ((d.weir.s.toList).getD (i - 0x3110) 0).toNat
  else if 0x3110 ≤ i ∧ i ≤ 0x3113 ∧ s = 5 then some (d.weir.ramping.getLsbD (i - 0x3110)).toNat
  else if i = 0x3121 then some (if s = 5 then d.weir.sat.toNat else ((d.weir.i.toList).getD (s - 1) 0).toNat)
  else if isLawObj k then some (lawNum d k)
  else if k = 0x314001 then some d.weir.tokens
  else if k = 0x340005 then some (dramCapacity (objNum d 0x340001, objNum d 0x340002, objNum d 0x340003, 0) / 2 ^ 30)
  else if 0x3411 ≤ i ∧ i ≤ 0x3414 then
    some (match (d.dram.sub.toList)[i - 0x3411]? with
      | some x => laneWord ((x.lanes.toList).getD (s - 1) {})
      | none => 0)
  else if k = 0x343004 then some (rtBoundNs d.dram.cfg)
  else none

/-- Numbers of the media objects (R382). -/
def numMedia (d : Dev) (k : Nat) : Option Nat :=
  let g := d.media.geo
  match k with
  | 0x380002 => some g.ce
  | 0x380003 => some g.luns
  | 0x380004 => some g.planes
  | 0x380005 => some g.pages
  | 0x380006 => some g.blocks
  | 0x380007 => some g.cell
  | 0x380008 => some (rawCapacity d)
  | 0x380009 => some (16 * rowCount d - d.media.lunsRetired.length)
  | 0x38000A => some (d.media.wear.foldl (fun a kw => a + kw.2.retired.length) 0)
  | 0x38000B => some d.media.planesRetired.length
  | 0x38000C => some d.media.lunsRetired.length
  | 0x381004 => some (backwaterUsed d)
  | 0x382007 => some ((eraseCounts d).foldl (· + ·) 0 / max 1 (physBands d))
  | 0x382008 => some ((eraseCounts d).foldl max 0)
  | 0x38200A => some (countOf (eraseCounts d) (fun n => decide (2 ^ 20 - 1 ≤ n)) * 16 * g.planes)
  | 0x383004 => some d.media.state
  | 0x386001 => some (unitsHeld d 0)
  | 0x386002 => some (unitsHeld d 1)
  | 0x386003 => some (unitsHeld d 2)
  | 0x386004 => some (reachBands d 0 * bandUnits d 0)
  | 0x386005 => some (reachBands d 1 * bandUnits d 1)
  | 0x386006 => some (reachBands d 2 * bandUnits d 2)
  | 0x386007 => some (usableCapacity d)
  | 0x386008 => some d.media.metaBytes
  | _ => none

/-- The controller of a device VF number. -/
def vfByNumber (d : Dev) (dvf : Nat) : Option (Nat × Ctrl) := d.host.ctrls.find? fun kc => kc.2.vf ≠ 0 && kc.2.dvf = dvf

/-- Numbers of a VF's pool object (R112). -/
def numPool (d : Dev) (dvf s : Nat) : Option Nat :=
  let on (f : Nat → Ctrl → Nat) : Nat := match vfByNumber d dvf with
    | some (id, c) => f id c
    | none => 0
  if s = 5 then some (on fun id _ => poolUse d .sessions id)
  else if s = 6 then some (on fun id _ => poolUse d .keySlots id)
  else if s = 7 then some (on fun id _ => poolUse d .entries id)
  else if s = 8 then some (on fun _ c => c.poolState)
  else if s = 9 then some (on fun _ c => c.vq - 1)
  else if s = 0x0A then some (on fun _ c => c.vi)
  else none

/-- Numbers of the host, session and profile objects (R89, R112, R183, R493). -/
def numHost (d : Dev) (k : Nat) : Option Nat :=
  let i := k / 256
  let s := k % 256
  if 0x4100 ≤ i ∧ i ≤ 0x41FE then numPool d (i - 0x4100 + 1) s
  else if 0x5100 ≤ i ∧ i ≤ 0x513F then
    let p := i - 0x5100
    let x : Profile := mapGetD d.profiles p {}
    if s = 1 then some (profileState d p)
    else if s = 4 then some (x.version % 2 ^ 32)
    else if s = 5 then some (if x.image.isEmpty then 0 else profileBound d p x.version)
    else if s = 6 then
      some (((retiringVersions d p x.version).map (profileBound d p)).foldl (· + ·) 0 + if x.image.isEmpty then profileBound d p x.version else 0)
    else if s = 7 then some (x.changedAt % 2 ^ 64)
    else none
  else match k with
    | 0x400001 => some (1 + objNum d 0x101002)
    | 0x400002 => some (linkWord d.host.ports[0])
    | 0x400003 => some (linkWord d.host.ports[1])
    | 0x402001 => some (poolRemainder d .sessions)
    | 0x402002 => some (poolRemainder d .keySlots)
    | 0x402003 => some (poolRemainder d .entries)
    | 0x402004 => some (pfUse d .sessions)
    | 0x402005 => some (pfUse d .keySlots)
    | 0x402006 => some (pfUse d .entries)
    | 0x500001 => some (countOf d.profiles fun kp => !kp.2.image.isEmpty)
    | 0x500002 => some (framesFree d)
    | 0x500003 => some (countOf d.reqs fun kr => kr.2.inBraid)
    | 0x501001 => some (countOf d.sess.tab fun ks => ks.2.isOpen)
    | _ => none

/-- Numbers of the Estuary and key objects (R221 to R223). -/
def numKeys (d : Dev) (k : Nat) : Option Nat :=
  let n := objNum d 0x583001
  let s := keySlot d n
  match k with
  | 0x580001 => some d.keys.estuary[0].state
  | 0x580002 => some d.keys.estuary[1].state
  | 0x580003 => some d.keys.estuary[0].held.length
  | 0x580004 => some d.keys.estuary[1].held.length
  | 0x581001 => some (countOf d.keys.slots fun ks => ks.2.allocated)
  | 0x581002 => some (countOf d.keys.slots fun ks => ks.2.allocated && ks.2.current.isSome)
  | 0x581003 => some (countOf d.keys.slots fun ks => ks.2.retiring.isSome)
  | 0x581004 => some (kekKcv d)
  | 0x581008 => some (heldSlots d)
  | 0x582001 => some d.keys.locked.toNat
  | 0x583002 => some (slotState d n)
  | 0x583003 => some (if s.allocated then s.type else 0xFF)
  | 0x583004 => some (if s.allocated then s.owner else 0)
  | 0x583005 => some (match s.current with
    | some g => g.gen
    | none => s.lastGen)
  | 0x583006 => some (match s.retiring with
    | some g => g.gen
    | none => 0)
  | 0x583007 => some (match s.current with
    | some g => g.inUse
    | none => 0)
  | 0x583008 => some (match s.retiring with
    | some g => g.inUse
    | none => 0)
  | 0x58300A => some (match s.current with
    | some g => g.kcv
    | none => 0)
  | 0x58300B => some (sessionsNaming d n)
  | 0x58300C => some (bindingsNaming d n)
  | 0x58300D => some (s.changedAt % 2 ^ 64)
  | _ => none

/-- Numbers of the Eddy, Riffle and runtime objects (R243, R262, R347). -/
def numEngines (d : Dev) (k : Nat) : Option Nat :=
  let i := k / 256
  let s := k % 256
  let unit : RiffleUnit := if i = 0x6810 then d.riffle[0] else d.riffle[1]
  if k = 0x600001 then some (countOf d.eddy.entries fun ae => ae.2.valid)
  else if k = 0x600002 then some (indexSize d - partValid d 0)
  else if i = 0x6020 then some (layoutWord d (s - 1))
  else if i = 0x6030 then some (partValid d (s - 1))
  else if k = 0x680002 then some (countOf d.media.store.objs fun ko => ko.2.compressed)
  else if i = 0x6810 ∨ i = 0x6811 then
    (if s = 1 then some (if unit.jobs.isEmpty && unit.delivery.isEmpty then 0 else 1)
     else if s = 2 then some unit.delivery.length
     else if s = 3 then some unit.jobs.length
     else none)
  else if k = 0x700004 then some (countOf d.rt.calls fun c => c.core.isSome)
  else if k = 0x700005 then some (countOf d.rt.calls fun c => c.kind = 2 && c.core.isNone)
  else if 0x7100 ≤ i ∧ i ≤ 0x711F then
    let p := progSlot d (i - 0x7100)
    if s = 1 then some p.state
    else if s = 3 then some (match p.current with
      | some v => v.version
      | none => 0)
    else if s = 4 then some (if p.state = 0 then 0 else p.owner)
    else if s = 5 then some (match p.current with
      | some v => v.bound
      | none => 0)
    else if s = 6 then some (p.retiring.foldl (fun a v => a + v.bound) 0)
    else if s = 7 then some p.faults
    else if s = 8 then some (p.changedAt % 2 ^ 64)
    else none
  else none

/-- Numbers of the cascade, Gauge, integrity, log and start objects (R425, R494, R496, R498, R500). -/
def numSystem (d : Dev) (k : Nat) : Option Nat :=
  let i := k / 256
  let s := k % 256
  let port : CflPort := if i = 0x8010 then d.cas.ports[0] else d.cas.ports[1]
  let log : EventLog := if i = 0xA040 then d.errLog else d.vioLog
  let counter : Option GaugeCounter := (d.gauge.counters.toList)[s - 1]?
  if i = 0x9100 then counter.map fun c => c.source.toNat
  else if i = 0x9200 then counter.map fun c => c.count.toNat
  else if i = 0x9300 then counter.map fun c => c.snap.toNat
  else if i = 0xA011 then some ((getRegion d (s - 1)).level + 65536 * (getRegion d (s - 1)).overflows)
  else if i = 0xA020 then some (spareTotal (s - 1) - (getRegion d (s - 1)).sparesUsed)
  else if i = 0xA040 ∨ i = 0xA050 then
    (if s = 2 then some log.recs.length else if s = 3 then some log.newest else if s = 4 then some log.selector else none)
  else if i = 0x8010 ∨ i = 0x8011 then
    (if s = 1 then some port.state else if s = 2 then some port.lanes else if s = 3 then some port.peer else none)
  else match k with
    | 0x800001 => some d.cas.state
    | 0x800002 => some d.cas.mode
    | 0x800003 => some (selfId d)
    | 0x800004 => some d.cas.master
    | 0x800005 => some (joinedMask d)
    | 0x800006 => some (memberLimit d)
    | 0x800007 => some d.cas.cause
    | 0x900002 => some d.gauge.snapAt
    | 0x900003 => some ((d.gauge.counters.toList).foldr (fun c a => 2 * a + c.overflow.toNat) 0)
    | 0xA02102 => some d.integ.remaps.length
    | _ => none

/-- Objects of keys, sessions and Eddy contents, which read their reset values until mount completes (R545). -/
def hiddenBeforeMount (d : Dev) (i : Nat) : Bool :=
  (d.power.phase = .firmware || d.power.phase = .dramFailed) &&
    [0x5010, 0x5810, 0x5830, 0x6030, 0x6040].contains i

/-- The number an object reads as: computed from its unit, or the number it holds. -/
def objValue (d : Dev) (k : Nat) : Nat :=
  if hiddenBeforeMount d (k / 256) then objDefault d.variant k
  else
    let firsts := [numIdentity d k, numWeir d k, numMedia d k, numHost d k, numKeys d k, numEngines d k, numSystem d k]
    match firsts.findSome? id with
    | some v => v
    | none => objNum d k

/-! ## Octets and texts -/

/-- The octets an object reads as; none where its read has nothing to give (R499). -/
def objOctets (d : Dev) (k : Nat) : Option Bytes :=
  let i := k / 256
  let s := k % 256
  if k = 0x100001 then some (ascii "Omastoz")
  else if k = 0x100002 then some (ascii (byVariant d.variant "VL7-S" "VL7-M" "VL7-E"))
  else if k = 0x100004 ∨ k = 0x100008 ∨ k = 0x202005 then some (Config.factoryOct k)
  else if 0x5100 ≤ i ∧ i ≤ 0x513F then some (mapGetD d.profiles (i - 0x5100) {}).image
  else if k = 0x583009 then
    some (match (keySlot d (objNum d 0x583001)).current with
      | some g => padTo 16 g.kid
      | none => List.replicate 16 0)
  else if i = 0x6010 then some (leBytes 16 (eddyMask d (s - 1)).toNat)
  else if 0x7100 ≤ i ∧ i ≤ 0x711F then
    (if s = 2 then some (match (progSlot d (i - 0x7100)).current with
      | some v => (progName v.image).takeWhile (· ≠ 0)
      | none => [])
     else some [])
  else if i = 0xA031 then some (passSummary d.integ.dredge)
  else if i = 0xA040 ∨ i = 0xA050 then
    let log : EventLog := if i = 0xA040 then d.errLog else d.vioLog
    (match selectedRec log with
      | some r => if orphanRec log r then none else some (recBytes r)
      | none => none)
  else some (objOct d k)

/-- The value of an object as bytes (R10, R460). -/
def objBytes (d : Dev) (r : ObjRow) (k : Nat) : Option Bytes :=
  match r.ty with
  | .octets => objOctets d k
  | .vstring => objOctets d k
  | _ => some (leBytes r.len (objValue d k))

end Sys2Proof.Machine
end

