-- ==== Sys2Proof/Machine/Functions.lean ====
section
/-! DEFINITION. Machine/Functions.lean: what a reset of a controller, a function or a port does (R111, R117 to R119, R199, R212, R483), and
the PCIe ports' links. -/
namespace Sys2Proof.Machine

/-! ## The transaction -/

/-- The transaction rolled back: staged values, partial values and the frames they reserved go (R478, R482). -/
def rollbackTxn (d : Dev) : Dev := { d with txn := { formers := d.txn.formers } }

/-- The transaction of an identity rolled back while it is open (R483). -/
def rollbackOf (p : Path) (d : Dev) : Dev := if d.txn.state = 1 ∧ d.txn.owner = some p then rollbackTxn d else d

/-! ## Commands of a function (R118) -/

/-- A forwarded Evict or Lookup of a function given up (R516). -/
def dropForwardsOf (id : Nat) (d : Dev) : Dev :=
  (d.cas.forwards.filter fun kf => decide (2 ≤ kf.2.kind) && kf.2.cmd.1 = id).foldl (fun d kf =>
    sendFlit 10 kf.2.member [kf.1] { d with cas := { d.cas with forwards := mapErase d.cas.forwards kf.1 } }) d

/-- The waiting and running Execute Program invocations of a function stopped (R118). -/
def dropExecutesOf (id : Nat) (d : Dev) : Dev :=
  (d.rt.calls.filter fun i => i.kind = 2 && i.owner.1 = id).foldl (fun d i => unbindVersion i.slot i.version (dropCall i d)) d

/-- Every command of a function in flight abandoned, with no completion, and its open transaction rolled back; a NOR
write runs to its end (R118, R212, R483, R544). -/
def stopCommands (id : Nat) (d : Dev) : Dev :=
  let d1 := (reqTags d fun r => r.ctrl = id).foldl (fun d t => abandonReq t d) d
  let d2 := dropExecutesOf id (dropForwardsOf id d1)
  let d3 := modifyMedia (fun m => { m with waits := m.waits.filter (·.ctrl ≠ id) }) d2
  let d4 := modifyKeys (fun k => { k with slots := mapValues k.slots fun _ s => { s with held := s.held.filter (·.ctrl ≠ id) } }) d3
  let d5 := { d4 with cas := { d4.cas with relays := d4.cas.relays.filter fun r => r.2.ctrl ≠ id } }
  let d6 := modifyRt (fun r => { r with deletes := r.deletes.filter (·.1 ≠ id) }) (modifyWeir (fun w => { w with acks := w.acks.filter (·.1 ≠ id) }) d5)
  let d7 := { d6 with fw := { d6.fw with
    commit := d6.fw.commit.map fun w => if w.ctrl = id then { w with ctrl := 0 } else w } }
  rollbackOf (.inband id) d7

/-- Sessions that a function has open. -/
def sessionsOf (d : Dev) (id : Nat) : List Nat := (d.sess.tab.filter fun s => s.2.isOpen && s.2.ctrl = id).map Prod.fst

/-- Every session of a function closed (R117). -/
def closeSessionsOf (id : Nat) (d : Dev) : Dev := (sessionsOf d id).foldl (fun d i => closeSession i d) d

/-! ## Resets (R117) -/

/-- A controller with its NVMe state at reset: queues, features, held events and errors go; what belongs to the function stays. -/
def ctrlAtReset (c : Ctrl) : Ctrl :=
  { c with
    enabled := false
    ready := false
    cfs := false
    sqs := []
    cqs := []
    ioCreated := false
    features := []
    aers := []
    masked := []
    held := []
    ps := 0
    lastPs := 0
    miResponse := [] }

/-- A function with its registers at reset; its place, its resources and its logs stay. -/
def functionAtReset (c : Ctrl) : Ctrl :=
  { port := c.port
    vf := c.vf
    dvf := c.dvf
    online := c.online
    poolState := c.poolState
    vq := c.vq
    vi := c.vi
    errorLog := c.errorLog
    withdrawals := c.withdrawals
    withdrawalsTotal := c.withdrawalsTotal
    withdrawalsLost := c.withdrawalsLost
    changedNs := c.changedNs }

/-- CC.EN from 1 to 0: commands abandoned, sessions closed, key slots kept (R117). -/
def resetController (id : Nat) (d : Dev) : Dev :=
  applyRequest (closeSessionsOf id (stopCommands id (modifyCtrl id ctrlAtReset d)))

/-- A function reset: commands abandoned, sessions closed, key slots erased and freed (R117, R199). -/
def resetFunction (id : Nat) (d : Dev) : Dev :=
  let d1 := dropSlotsOf id (closeSessionsOf id (stopCommands id (modifyCtrl id functionAtReset d)))
  modifyRt (fun r => { r with sets := r.sets.filter (·.ctrl ≠ id) }) d1

/-- Index of a port. -/
def portIdx (p : Nat) : Fin 2 := if p % 2 = 0 then 0 else 1

/-- A port changed. -/
def modifyPort (p : Fin 2) (f : Port → Port) (d : Dev) : Dev :=
  { d with host := { d.host with ports := d.host.ports.set p (f d.host.ports[p]) } }

/-- VFs of a port by controller ID. -/
def vfsOf (d : Dev) (p : Fin 2) : List (Nat × Ctrl) := d.host.ctrls.filter fun kc => kc.2.port = p.val && kc.2.vf ≠ 0

/-- A VF that ceases to exist: reset, its VQ and VI back with the port, its reservation released (R110, R111, R117). -/
def removeVf (p : Fin 2) (id : Nat) (d : Dev) : Dev :=
  match getCtrl d id with
  | none => d
  | some c =>
    let d1 := resetFunction id d
    let held := c.poolState = 1
    { d1 with host :=
      { d1.host with
        ctrls := mapErase d1.host.ctrls id
        flexVq := if held then d1.host.flexVq.set p (d1.host.flexVq[p] + c.vq) else d1.host.flexVq
        flexVi := if held then d1.host.flexVi.set p (d1.host.flexVi[p] + c.vi) else d1.host.flexVi } }

/-- VF Enable cleared: every VF of the port is reset and its reservation released (R111, R117). -/
def clearVfEnable (p : Fin 2) (d : Dev) : Dev :=
  modifyPort p (fun q => { q with vfEnable := false }) ((vfsOf d p).foldl (fun d kc => removeVf p kc.1 d) d)

/-- Controller ID of a port's PF (R91). -/
def pfOf (p : Fin 2) : Nat := p.val + 1

/-- FLR of a PF: the PF and every VF of its port (R117). -/
def resetPf (p : Fin 2) (d : Dev) : Dev :=
  applyRequest (resetFunction (pfOf p) (modifyPort p (fun q => { q with numVfs := 0 }) (clearVfEnable p d)))

/-- Link of a port gone down; a change from up to down counts once, and a master left with no link announces its loss (R89, R507, R530). -/
def dropLink (p : Fin 2) (d : Dev) : Dev :=
  if d.host.ports[p].speed = 0 then d
  else
    let d1 := gaugeCount 0x069 (bump (0x400004 + p.val) (modifyPort p (fun q => { q with speed := 0, width := 0, l1 := false }) d))
    if d1.cas.state = 3 && !linkUp d1 0 && !linkUp d1 1 then { d1 with cas := { d1.cas with losing := true } } else d1

/-- Every function of a port reset, with its invalidations (R117). -/
def resetPort (p : Fin 2) (d : Dev) : Dev :=
  modifyPort p (fun q => { q with invalidations := [] }) (resetPf p d)

/-- True while the Host island runs: a reset that comes while it is gated takes effect once it runs (R445). -/
def hostRuns (d : Dev) : Bool := islandState d 3 = 0

/-- What PCIe traffic on a port does first: its link leaves L1, and the part wakes (R437). -/
def pcieActivity (p : Fin 2) (d : Dev) : Dev :=
  latchWake 1 (modifyPort p (fun q => { q with l1 := false }) d)

end Sys2Proof.Machine
end

