-- ==== Sys2Proof/Machine/Reset.lean ====
section
/-! DEFINITION. Machine/Reset.lean: what the two whole-device resets keep and what they clear (R57, R199, R261, R329, R365, R413, R461,
R523). -/
namespace Sys2Proof.Machine

/-- True when an object's value survives every reset: it is persistent (R461, R486), or it is the raw capacity lost to flash that stays
retired or the sequence of the last committed journal record, which flash holds (R363, R374). -/
def keptNum (k : Nat) : Bool :=
  k = 0x383003 || k = 0x385001 || (match rowOf (k / 256) (k % 256) with
    | some r => r.per
    | none => false)

/-- Objects that count since power-on reset, which only that reset clears (R75, R446, R461, R500). -/
def sincePowerOn (k : Nat) : Bool := [0x301004, 0x305302, 0x305306, 0xF00002, 0xF00005].contains k

/-- A program slot as the metadata gives it back: its state and its current version, with nothing bound (R329). -/
def slotAtStart (s : ProgSlot) : ProgSlot :=
  { s with
    current := s.current.map fun v => { v with bound := 0 }
    retiring := []
    faults := 0
    changedAt := 0 }

/-- A profile as the metadata gives it back (R181, R461). -/
def profileAtStart (p : Profile) : Profile := { image := p.image }

/-- Media management as flash and PRA keep it: what was programmed, the committed store, wear and
retirement, and the reservations that persist through power loss (R106, R365, R370, R374, R379). -/
def mediaAtStart (m : Media) : Media :=
  { metaBytes := m.metaBytes
    nss := mapValues m.nss fun _ n => if n.rsv.ptpl then n else { n with rsv := {} }
    titles := m.titles
    durable := m.durable
    seq := m.seq
    units := m.units.filter fun u => u.2.programmed
    wear := m.wear
    sanitized := m.sanitized
    lunsRetired := m.lunsRetired
    planesRetired := m.planesRetired
    planeFails := m.planeFails
    bad := m.bad
    shutdown := m.shutdown }

/-- A NOR slot whose write is cut off is left invalid (R542, R544). -/
def norAtStart (f : Firmware) : Vector Bytes 2 :=
  match f.commit with
  | some c => if c.slot = 0 then f.nor.set 0 [] else f.nor.set 1 []
  | none => f.nor

/-- The whole device reset as after SYS_RST_n, with the cause of the next start: what is not in the PRA, Springhead's private record, NOR or
flash returns to its reset value; Tidemark coasts from its present value (R57, R443, R500). -/
def deviceReset (cause : Nat) (d : Dev) : Dev :=
  { ({} : Dev) with
    tm := d.tm
    freeCount := d.freeCount
    out := d.out
    num := d.num.filter fun kv => keptNum kv.1 || sincePowerOn kv.1
    oct := d.oct.filter fun kv => keptNum kv.1
    wear := d.wear
    variant := d.variant
    fuses := d.fuses
    gauge := { counters := d.gauge.counters.map fun c => { source := c.source } }
    mem := d.mem.filter fun c => decide (romBase ≤ c.1 ∧ c.1 < dramBase)
    integ :=
      { regions := d.integ.regions.map fun g => { sparesUsed := g.sparesUsed }
        remaps := d.integ.remaps
        leakAt := d.tm }
    eddy := { masks := d.eddy.masks, layout := d.eddy.layout }
    keys := { kek1 := d.keys.kek1, nsKeys := d.keys.nsKeys, mgmt := d.keys.mgmt }
    power :=
      { coasting := some (d.power.coasting.getD d.tm)
        nextCause := cause }
    fw := { nor := norAtStart d.fw, mirror := d.fw.mirror, active := d.fw.active, floor := d.fw.floor }
    media := mediaAtStart d.media
    profiles := mapValues d.profiles fun _ p => profileAtStart p
    rt :=
      { slots := mapValues d.rt.slots fun _ s => slotAtStart s
        aux := d.rt.aux } }

/-- The power-on reset: Headwater, the RTC and Tidemark too (R57, R73). -/
def powerOnReset (d : Dev) : Dev :=
  let d1 := deviceReset 0 d
  { d1 with
    tm := 0
    num := d1.num.filter fun kv => !sincePowerOn kv.1
    integ := { d1.integ with leakAt := 0 }
    power := { d1.power with coasting := none } }

end Sys2Proof.Machine
end

