-- ==== Sys2Proof/Machine/Power.lean ====
section
/-! DEFINITION. Machine/Power.lean: resets of the part, the power-fail sequence and Off (R48, R56, R57, R60 to R64, R378, R431), the ways
into and out of Doze and Slumber, and Tidemark's coasting (R426 to R446). -/
namespace Sys2Proof.Machine

/-! ## The write buffer flushed (R62, R378, R434) -/

/-- True when a map entry points at a unit, so that its journal record exists (R378). -/
def recorded (d : Dev) (k : Nat) (u : FlashUnit) : Bool :=
  mapGet d.media.store.map (mapKey u.ns u.lu) = some (k % 2 ^ 48) && d.media.nss.any fun kn => kn.2.idx = u.ns && nsClass kn.2 = k / 2 ^ 48

/-- Every page of the write buffer programmed, oldest first. -/
def flushBuffer (d : Dev) : Dev :=
  d.media.buffer.foldl (fun d u => if d.media.buffer.contains u then endBufferPage u .pass d else d) d

/-- Units in the write buffer whose journal record does not exist discarded (R378). -/
def discardUnrecorded (d : Dev) : Dev :=
  let lost := d.media.buffer.filter fun k => match mapGet d.media.units k with
    | some u => !recorded d k u
    | none => true
  modifyMedia (fun m =>
    { m with
      buffer := m.buffer.filter fun k => !lost.contains k
      units := m.units.filter fun ku => !lost.contains ku.1 }) d

/-- Copies of reclamations that have not reached their commit given up (R378). -/
def abandonCopies (d : Dev) : Dev := modifyMedia (fun m => { m with jobs := m.jobs.filter (·.step ≠ .copy) }) d

/-- What media management does within the steps of R62 (R378). -/
def flushMedia (d : Dev) : Dev := commitAll (flushBuffer (discardUnrecorded (abandonCopies d)))

/-! ## The power-fail sequence (R62 to R64) -/

/-- Step 1: fetching and DMA stop on every queue, and no command in flight completes (R62, R63). -/
def stopHost (d : Dev) : Dev :=
  let d1 := { d with
    host := { d.host with ctrls := mapValues d.host.ctrls fun _ c => { c with sqs := [], cqs := [], aers := [] } }
    cas := { d.cas with forwards := [], relays := [], waiting := [] }
    rt := { d.rt with deletes := [] } }
  let d2 := (d1.reqs.map Prod.fst).foldl (fun d t => abandonReq t d) d1
  let d3 := d2.rt.calls.foldl (fun d i => dropCall i d) d2
  modifyMedia (fun m => { m with waits := [] }) { d3 with fw := { d3.fw with nor := norAtStart d3.fw, commit := none } }

/-- A pass ended by the power failure (R423). -/
def endPass (d : Dev) : Dev :=
  if d.integ.dredge.state = 1 then
    { d with integ := { d.integ with dredge := { d.integ.dredge with state := 4, endedAt := d.tm } } }
  else d

/-- Steps 1 and 2: Headwater latches the power fail, stops the host side, and overrides Weir with 64 programming LUNs (R62). -/
def latchPowerFail (by_ : Nat) (d : Dev) : Dev :=
  endPass (modifyWeir (fun w => { w with tokens := 64 }) (modifyPower (fun p =>
    { p with
      phase := .flushing
      state := 0
      autoFrom := none
      sleepRequest := none
      slumberEntry := false
      sleepHeld := false
      exiting := none
      latches := 0
      offDue := false
      offBy := by_ }) (stopHost d)))

/-- True while a power-fail trigger starts the sequence: the part is out of reset, not in Off, and no sequence runs (R48, R64, R431). -/
def canFail (d : Dev) : Bool := d.power.phase ≠ .inReset && d.power.phase ≠ .off && d.power.phase ≠ .flushing

/-- The sequence started by a cause: 1 PLP_n, 2 brown-out, 3 thermal trip, 4 object 0x3050.03 (R62, R431, R526 class 0x07). -/
def startFlush (by_ : Nat) (detail : Bytes) (d : Dev) : Dev :=
  withIslands (fun d => logError 0x07 3 by_ (if by_ = 1 then 0x0E9 else if by_ = 2 then 0x0EA else if by_ = 3 then 0x0EB else 0) detail
    (latchPowerFail by_ d)) d

/-- True when a pulse of `low` ns is accepted: from `hi` ns on it is, below `lo` it is not, between it may be (R57, R60; log entry 1). -/
def pulseTaken (lo hi low : Nat) (d : Dev) : Bool × Dev :=
  if hi ≤ low then (true, d) else if low < lo then (false, d) else drawBit d

/-- PLP_ASSERT: PLP_n low for `low` ns (R60, R62, R64); a warning during the sequence does not
restart it, and in Off it is only counted. -/
def execPlpAssert (now low : Nat) (s : State) : Host.Outcome State Fault Refusal :=
  run (fun d =>
    let (taken, d1) := pulseTaken 1000 2000 low (advanceTo now d)
    if !taken ∨ d1.power.phase = .inReset then d1
    else
      let d2 := gaugeCount 0x0E9 d1
      if canFail d2 then startFlush 1 [] d2
      else if d2.power.phase = .flushing then logError 0x07 3 1 0x0E9 [] d2
      else d2) s

/-- RAIL_BROWNOUT: a rail other than the always-on rails, in the row order of R44, below its threshold for 2 µs or more (R48). -/
def execRailBrownout (rail now : Nat) (s : State) : Host.Outcome State Fault Refusal :=
  run (fun d =>
    let d1 := advanceTo now d
    if d1.power.phase = .inReset ∨ d1.power.phase = .off then d1
    else
      let d2 := gaugeCount 0x0EA (gaugeCount 0x0E9 d1)
      if canFail d2 then startFlush 2 (leBytes 1 rail) d2 else logError 0x07 3 2 0x0EA (leBytes 1 rail) d2) s

/-- THERMAL_TRIP: a sensor reaches 120 °C; THERMTRIP_n is asserted in any state but Off (R56, R445). -/
def execThermalTrip (sensor : Fin 24) (tj now : Nat) (s : State) : Host.Outcome State Fault Refusal :=
  run (fun d =>
    let d1 := advanceTo now d
    if d1.power.phase = .off then d1
    else
      let d2 := emit .thermtrip (modifyPower (fun p => { p with thermtrip := true })
        (devPersist 0x304006 (sat 65535 (objNum d1 0x304006 + 1)) (gaugeCount 0x0EB d1)))
      if canFail d2 then startFlush 3 ([0] ++ leBytes 1 sensor.val ++ [0, 0] ++ leBytes 4 tj) d2 else d2) s

/-- The part in Off: links down, keys erased, no core runs, and Tidemark coasts (R199, R426, R443). -/
def enterOff (d : Dev) : Dev :=
  { d with
    power := { d.power with phase := .off, coasting := some (d.power.coasting.getD d.tm) }
    host := { d.host with ports := d.host.ports.map fun p => { p with speed := 0, width := 0, training := false, l1 := false } }
    keys := { kek1 := d.keys.kek1, nsKeys := d.keys.nsKeys, mgmt := d.keys.mgmt }
    cores := Vector.ofFn FxCore.atReset }

/-- Steps 3 to 7: the flush, the journal commit and the clean-shutdown record, as far as the rails allow (R48, R62, R378). -/
def endFlush (complete : Bool) (d : Dev) : Dev :=
  let d1 := if complete then
      let d2 := if d.media.ready then flushMedia d else d
      modifyMedia (fun m => { m with shutdown := if d.power.offBy = 4 then 1 else 2 }) d2
    else d
  withIslands enterOff d1

/-- POWER_FAIL_FLUSH_DONE: step 7 is reached; `complete` is false when the rails gave out first.  A SYS_RST_n that was held back acts now
(R62, R64). -/
def execPowerFailFlushDone (now : Nat) (complete : Bool) (s : State) : Host.Outcome State Fault Refusal :=
  run (fun d =>
    let d1 := advanceTo now d
    if d1.power.phase ≠ .flushing then d1
    else
      let d2 := endFlush complete d1
      if d2.power.resetDeferred then deviceReset 1 d2 else d2) s

/-- POWER_RETURN: PLP_n has been high for 10 ms with every rail good, or after an Off by object another rail has fallen and come back; the
part starts as after SYS_RST_n (R64, R431). -/
def execPowerReturn (now : Nat) (s : State) : Host.Outcome State Fault Refusal :=
  run (fun d =>
    let d1 := advanceTo now d
    if d1.power.phase = .off then deviceReset 4 d1 else d1) s

/-- Off by object: the steps of R62 from the acknowledgement of the write on, which wake a part in Doze or Slumber (R431, R445). -/
def offByObject (d : Dev) : Dev :=
  if d.power.offDue then
    let d1 := modifyPower (fun p => { p with offDue := false }) d
    if canFail d1 then startFlush 4 [] d1 else d1
  else d

/-! ## Resets of the part (R57) -/

/-- POWER_ON_RESET: VDD_AON or VDDIO_AON below 92 % (R57). -/
def execPowerOnReset (s : State) : Host.Outcome State Fault Refusal := run powerOnReset s

/-- SYS_RST_ASSERT: SYS_RST_n low for `low` ns; it is held back while the power-fail sequence runs (R57, R64). -/
def execSysRstAssert (now low : Nat) (s : State) : Host.Outcome State Fault Refusal :=
  run (fun d =>
    let (taken, d1) := pulseTaken 1000 10000 low (advanceTo now d)
    if !taken then d1
    else if d1.power.phase = .flushing then modifyPower (fun p => { p with resetDeferred := true }) d1
    else deviceReset 1 d1) s

/-! ## Wake (R437, R438) -/

/-- True when a wake pattern matches a frame (R438). -/
def patternMatches (pat frame : Bytes) : Bool :=
  pat.length = 34 &&
    (let off := leField pat 0 2
     decide (off + 16 ≤ frame.length) &&
       (List.range 16).all fun i =>
         ((frame.getD (off + i) 0 ^^^ pat.getD (2 + i) 0) &&& pat.getD (18 + i) 0) = 0)

/-- True for an IPv6 UDP frame to the AOP port (R438). -/
def aopFrame (d : Dev) (frame : Bytes) : Bool :=
  decide (58 ≤ frame.length) && beNat (slice frame 12 2) = 0x86DD && frame.getD 20 0 = 17 &&
    beNat (slice frame 56 2) = objNum d 0x202001

/-- True for a wake frame; `toSelf` says that its destination is the part's link-local address (R438). -/
def wakeFrame (d : Dev) (frame : Bytes) (toSelf : Bool) : Bool :=
  (objNum d 0x305201 = 1 && toSelf && aopFrame d frame) ||
    [0x305202, 0x305203, 0x305204, 0x305205].any fun k => patternMatches (objOct d k) frame

/-- GPIO inputs that are enabled and stand at their wake level, of the inputs whose levels have held for 1 µs (R437). -/
def gpioWake (d : Dev) (held levels : Nat) : Bool :=
  (objNum d 0x305108 &&& held &&& (0xFF ^^^ levels ^^^ objNum d 0x305109)) % 256 ≠ 0

/-- WAKE_LATCH: wake sources at one instant (R437).  `ports` has a bit for each port with PCIe activity, `other` the bits of sources 1, 3
and 7; `held` and `levels` are the GPIO inputs, `frame` a received Fieldbus frame. -/
def execWakeLatch (now ports other held levels : Nat) (frame : Bytes) (toSelf : Bool) (s : State) : Host.Outcome State Fault Refusal :=
  run (fun d =>
    let d1 := (List.finRange 2).foldl (fun d p => if bit ports p.val then modifyPort p (fun q => { q with l1 := false }) d else d)
      (advanceTo now d)
    let fb := d1.power.state = 2 && wakeFrame d1 frame toSelf
    let d2 := if fb then gaugeCount 0x07F d1 else d1
    latchWake ((if ports % 4 ≠ 0 then 1 else 0) ||| (other &&& 0x8A) ||| (if fb then 4 else 0) |||
      (if gpioWake d2 held levels then 0x20 else 0)) d2) s

/-- RTC_ALARM: Tidemark reaches 0x3051.07 (R437). -/
def execRtcAlarm (now : Nat) (s : State) : Host.Outcome State Fault Refusal :=
  run (fun d =>
    let d1 := advanceTo now d
    let t := objNum d1 0x305107
    if t ≠ 0 ∧ t ≤ d1.tm then latchWake 0x10 d1 else d1) s

/-! ## Doze (R429, R433, R435) -/

/-- True when a controller has a command outstanding, of the kinds given. -/
def commandsOut (d : Dev) (aers : Bool) : Bool :=
  d.host.ctrls.any fun kc => kc.2.sqs.any fun kq => kq.2.inflight.any fun cid => aers || kq.1 ≠ 0 || !kc.2.aers.contains cid

/-- True while background work or a program runs (R429). -/
def backgroundRuns (d : Dev) : Bool := !d.media.jobs.isEmpty || d.media.folding || d.integ.dredge.state = 1 || !d.rt.calls.isEmpty

/-- The conditions under which Doze is entered without a request (R429). -/
def autoDozeDue (d : Dev) : Bool :=
  objNum d 0x305005 = 1 && !commandsOut d true && !backgroundRuns d && d.host.ports.all fun p => p.speed = 0 || p.l1

/-- AUTO_DOZE: the idle time of 0x3050.04 has passed: a deeper request is entered again, or Doze is asked for on its own (R429, R436). -/
def execAutoDoze (now : Nat) (s : State) : Host.Outcome State Fault Refusal :=
  run (fun d =>
    let d1 := advanceTo now d
    let r := requestState d1
    if d1.power.phase ≠ .ready ∨ 2 ≤ d1.power.state ∨ d1.power.sleepRequest.isSome then d1
    else if 2 ≤ r then
      (if commandsOut d1 false ∨ !d1.reqs.isEmpty then d1 else modifyPower (fun p => { p with sleepRequest := some r, autoFrom := none }) d1)
    else if autoDozeDue d1 then modifyPower (fun p => { p with sleepRequest := some 2, autoFrom := some p.state }) d1
    else d1) s

/-- A running pass suspended or resumed (R423). -/
def suspendPass (b : Bool) (d : Dev) : Dev :=
  { d with integ := { d.integ with dredge := { d.integ.dredge with suspended := b && d.integ.dredge.state = 1 } } }

/-- An entry aborted at its commit point: counted, undone, and replayed as a wake (R435). -/
def abortEntry (cause : Nat) (d : Dev) : Dev :=
  recordWake cause (bump 0x305104 (gaugeCount 0x0EE (suspendPass false (leaveSelfRefresh (modifyPower (fun p =>
    { p with
      sleepRequest := none
      autoFrom := none
      latches := 0
      slumberEntry := false }) d)))))

/-- Every link that is up in L1 (R426). -/
def linksToL1 (d : Dev) : Dev :=
  { d with host := { d.host with ports := d.host.ports.map fun p => { p with l1 := decide (p.speed ≠ 0) } } }

/-- DOZE_ENTRY: quiesce, self-refresh, the commit point with the wake bits latched by then, and the clock gates (R433, R435). -/
def execDozeEntry (now wake : Nat) (s : State) : Host.Outcome State Fault Refusal :=
  run (fun d =>
    let d1 := advanceTo now d
    if d1.power.phase ≠ .ready ∨ d1.power.sleepRequest ≠ some 2 ∨ 2 ≤ d1.power.state then d1
    else
      let c := wakeAllowed d1 false wake
      let d2 := enterSelfRefresh (suspendPass true d1)
      if c ≠ 0 then abortEntry c d2
      else
        withIslands (fun d => modifyPower (fun p => { p with state := 2, sleepRequest := none, latches := 0 }) (linksToL1 d))
          (bump 0x305105 (gaugeCount 0x0EC d2))) s

/-! ## Slumber (R434 to R436, R440 to R442) -/

/-- SLUMBER_ENTRY: steps 1 to 4: background work pauses, the write buffers and the journal go to flash, and the ranks enter self-refresh;
from Doze the clocks are ungated first (R434). -/
def execSlumberEntry (now : Nat) (s : State) : Host.Outcome State Fault Refusal :=
  run (fun d =>
    let d1 := advanceTo now d
    if d1.power.phase ≠ .ready ∨ d1.power.sleepRequest ≠ some 3 ∨ d1.power.slumberEntry ∨ d1.power.state = 3 then d1
    else
      let d2 := if d1.power.state = 2 then
          withIslands (fun d => leaveSelfRefresh (modifyPower (fun p => { p with state := awakeState d, autoFrom := none }) d)) d1
        else d1
      let d3 := modifyPower (fun p => { p with slumberEntry := true, latches := 0 }) (suspendPass true d2)
      enterSelfRefresh (commitAll (flushBuffer d3))) s

/-- SLUMBER_COMMIT_POINT: at the RTC edge the latches are checked once; then Tidemark's count stops and the islands lose power, and a wake
that came after the check starts the exit at once (R434 to R436).  `late` holds the wake bits of after the commit point. -/
def execSlumberCommitPoint (now late : Nat) (s : State) : Host.Outcome State Fault Refusal :=
  run (fun d =>
    let d1 := advanceTo now d
    if !d1.power.slumberEntry then d1
    else if d1.power.latches ≠ 0 then abortEntry d1.power.latches d1
    else
      let d2 := withIslands (fun d => modifyPower (fun p =>
        { p with
          state := 3
          sleepRequest := none
          slumberEntry := false
          autoFrom := none
          coasting := some d.tm
          xtalLocked := false }) (linksToL1 d)) (bump 0x305106 (gaugeCount 0x0ED d1))
      latchWake late d2) s

/-- A port reset that came while the Host island was gated takes effect (R445). -/
def lateResets (d : Dev) : Dev := (List.finRange 2).foldl (fun d p => if d.host.ports[p].perst then resetPort p d else d) d

/-- ISLAND_STAGE_RELEASE: the next stage of an exit from Slumber runs, its divisors at 16; DRAM leaves self-refresh with the first (R441,
R442). -/
def execIslandStageRelease (now : Nat) (s : State) : Host.Outcome State Fault Refusal :=
  run (fun d =>
    let d1 := advanceTo now d
    match d1.power.exiting with
    | none => d1
    | some k =>
      if 8 ≤ k then d1
      else
        let d2 := withIslands (fun d => stageDivisors (k + 1) (modifyPower (fun p => { p with exiting := some (k + 1) }) d)) d1
        if k = 0 then leaveSelfRefresh d2 else if k = 1 then lateResets d2 else d2) s

/-- XTAL25_LOCK: the PLLs on XTAL25 lock, and the Supervisor island leaves the RC (R440). -/
def execXtal25Lock (now : Nat) (s : State) : Host.Outcome State Fault Refusal :=
  run (fun d =>
    let d1 := advanceTo now d
    if d1.power.exiting.isSome ∨ d1.power.state ≠ 3 then modifyPower (fun p => { p with xtalLocked := true }) d1 else d1) s

/-- Tidemark at the hand-over after `n` RTC ticks (R443). -/
def coasted (te n : Nat) : Nat := te + (n * 1000000000 + 16384) / 32768

/-- Uncertainty of a coast (R444). -/
def coastError (ns ppm : Nat) : Nat := 30518 + ceilDiv (ns * ppm) 1000000

/-- The 25 MHz count resumes after `n` ticks, and the coast is recorded (R443, R444). -/
def handOver (n : Nat) (d : Dev) : Dev :=
  match d.power.coasting with
  | none => d
  | some te =>
    let t := coasted te n
    let u := coastError (t - te) (objNum d 0x305305)
    setNum 0x305301 1 (setNum 0x305303 n (setNum 0x305304 u (addNum 0x305302 u (bump 0x305306
      (modifyPower (fun p => { p with coasting := none }) { d with tm := max d.tm t })))))

/-- The exit from Slumber ends: Run or Trim, with paused work and any sleep request that was held taken up (R436, R442). -/
def endExit (d : Dev) : Dev :=
  let us := (d.tm - d.power.exitAt) / 1000
  let d1 := withIslands (fun d => modifyPower (fun p =>
    { p with
      state := awakeState d
      exiting := none
      latches := 0 }) (suspendPass false d)) d
  let d2 := setNum 0x30510A us d1
  if d2.power.sleepHeld then applyRequest (modifyPower (fun p => { p with sleepHeld := false }) d2) else d2

/-- TIDEMARK_HANDOVER: at an RTC edge `n` ticks after the one that stopped the count; in an exit from Slumber the part is awake with it
(R442 to R444).  The count resumes only once XTAL25 is stable. -/
def execTidemarkHandover (n : Nat) (s : State) : Host.Outcome State Fault Refusal :=
  run (fun d =>
    if d.power.coasting.isNone ∨ !d.power.xtalLocked ∨ d.power.phase = .off ∨ d.power.phase = .inReset then d
    else match d.power.exiting with
      | some k => if k = 8 then background (endExit (handOver n d)) else d
      | none => handOver n d) s

/-! ## Controllers and links (R98, R427 to R429) -/

/-- Entry of a controller's APST table for a power state: the state to go to and its idle time in ms. -/
def apstEntry (table ps : Nat) : Nat × Nat := (bits table (64 * ps + 7) (64 * ps + 3), bits table (64 * ps + 31) (64 * ps + 8))

/-- A controller put into a power state; the last operational one is kept (R428). -/
def setPs (id ps : Nat) (d : Dev) : Dev :=
  applyRequest (modifyCtrl id (fun c => { c with ps := ps, lastPs := if ps ≤ 2 then ps else c.lastPs }) d)

/-- AUTONOMOUS_POWER_STATE_TRANSITION: a controller's idle timer expires, and it moves to the state its table names (R98, R427). -/
def execAutonomousPowerStateTransition (ctrl now : Nat) (s : State) : Host.Outcome State Fault Refusal :=
  run (fun d =>
    let d1 := advanceTo now d
    match getCtrl d1 ctrl with
    | none => d1
    | some c =>
      let (to_, idle) := apstEntry (mapGetD c.features 0x1000C 0) c.ps
      if c.enabled && bit (mapGetD c.features 0x0C 0) 0 && decide (idle ≠ 0 ∧ c.ps < to_ ∧ to_ ≤ 4) then setPs ctrl to_ d1 else d1) s

/-- LINK_L1_ENTRY: a port whose link is up enters L1 (R429). -/
def execLinkL1Entry (port : Fin 2) (now : Nat) (s : State) : Host.Outcome State Fault Refusal :=
  run (fun d => modifyPort port (fun q => { q with l1 := decide (q.speed ≠ 0) }) (advanceTo now d)) s

end Sys2Proof.Machine
end

