-- ==== Sys2Proof/Machine/Dictionary.lean ====
section
/-! DEFINITION. Machine/Dictionary.lean: an operation on the object dictionary: the checks of R474 in their order, persistence (R476, R477),
and what each object's value sets off once it is in force. -/
namespace Sys2Proof.Machine

/-! ## Abort codes (R475) -/

def abAbsent : Nat := 0xA001
def abSub : Nat := 0xA002
def abAccess : Nat := 0xA003
def abType : Nat := 0xA004
def abRange : Nat := 0xA005
def abUnit : Nat := 0xA006
def abBusy : Nat := 0xA007
def abNone : Nat := 0xA008
def abWorn : Nat := 0xA009
def abPersist : Nat := 0xA00A
def abMalformed : Nat := 0xA00B
def abState : Nat := 0xA00C
def abTimeout : Nat := 0xA00D
def abAuth : Nat := 0xA00E
def abReplay : Nat := 0xA00F

/-- How an operation ended. -/
inductive OpEnd where
  /-- Done. -/
  | ok
  /-- Aborted with a code of R475. -/
  | abort (code : Nat)
  /-- Accepted, and acknowledged only when Weir has swapped its law (R455). -/
  | later
  deriving DecidableEq, Repr

/-- An operation as a path carries it (R464, R468). -/
structure ObjOp where
  /-- Who performs it. -/
  who : Path
  /-- True for a write. -/
  write : Bool
  /-- Index. -/
  idx : Nat
  /-- Subindex. -/
  sub : Nat
  /-- Type code; 0 = any, for a read. -/
  ty : Nat := 0
  /-- Offset. -/
  off : Nat := 0
  /-- Bytes wanted by a read; 0 = the whole value. -/
  len : Nat := 0
  /-- LAST of a write. -/
  last : Bool := true
  /-- Data of a write. -/
  data : Bytes := []

/-- Object key of an operation. -/
def ObjOp.key (op : ObjOp) : Nat := objKey op.idx op.sub

/-! ## Roles (R462, R463) -/

/-- What a path may do. -/
inductive Role where
  /-- Reads of 0x1000 to 0x10FF. -/
  | unauth
  /-- Nothing. -/
  | none
  /-- Reads. -/
  | monitor
  /-- Everything. -/
  | admin
  /-- A VF: reads of 0x1008 and of its own pool object. -/
  | vf (pool : Nat)
  deriving DecidableEq, Repr

/-- Role 0, 1 or 2 of an object. -/
def roleOfNum (n : Nat) : Role := if n = 1 then .monitor else if n = 2 then .admin else .none

/-- The role of a path (R462). -/
def roleOf (d : Dev) : Path → Role
  | .inband id => match getCtrl d id with
    | some c => if c.vf = 0 then .admin else .vf (0x4100 + c.dvf - 1)
    | none => .none
  | .aop key _ => roleOfNum (objNum d (0x201101 + key))
  | .aopUnauth => .unauth
  | .mctp _ => roleOfNum (objNum d 0x202007)

/-- True for an in-band path. -/
def isInband : Path → Bool
  | .inband _ => true
  | _ => false

/-- Check 4: the abort code of an operation that the role does not allow (R462, R463). -/
def roleRefuses (d : Dev) (op : ObjOp) : Option Nat :=
  match roleOf d op.who with
  | .unauth => if !op.write && decide (0x1000 ≤ op.idx ∧ op.idx ≤ 0x10FF) then none else some abAuth
  | .none => some abAccess
  | .monitor => if op.write then some abAccess else none
  | .vf pool => if !op.write && (op.idx = 0x1008 || op.idx = pool) then none else some abAccess
  | .admin => if op.write && op.idx = 0x2010 && !isInband op.who then some abAccess else none

/-! ## Indices, subindices, types (R459 to R461, R485 to R488) -/

/-- True for an index of the directory on this variant (R485, R487). -/
def indexExists (d : Dev) (i : Nat) : Bool :=
  objTable.any (fun r => decide (r.ilo ≤ i ∧ i ≤ r.ihi)) && !decide (0x4100 ≤ i ∧ i ≤ 0x41FE ∧ objNum d 0x100804 < i - 0x4100 + 1)

/-- The highest subindex of an index, which subindex 0 reads as (R459). -/
def highestSub (i : Nat) : Nat := objTable.foldl (fun a r => if r.ilo ≤ i ∧ i ≤ r.ihi then max a r.shi else a) 0

/-- The row of subindex 0 (R459). -/
def subZeroRow (i : Nat) : ObjRow := ⟨i, i, 0, 0, .u8, .ro, false, 0, 0, 255, 1⟩

/-- The row of any subindex, subindex 0 included. -/
def anyRow (i s : Nat) : Option ObjRow := if s = 0 then some (subZeroRow i) else rowOf i s

/-- Check 2: the object's unit is absent, or the write names an absent one (R221, R488). -/
def unitRefuses (d : Dev) (op : ObjOp) : Bool :=
  (d.variant = .vl7e && (decide (0x6800 ≤ op.idx ∧ op.idx ≤ 0x6811) || decide (0x8000 ≤ op.idx ∧ op.idx ≤ 0x8020))) ||
    (op.write && op.key = 0x580009 && op.data = [1] && d.keys.estuary[1].state = 2)

/-- Type codes (R460). -/
def ObjType.code : ObjType → Nat
  | .bool => 1
  | .u8 => 2
  | .u16 => 3
  | .u32 => 4
  | .u64 => 5
  | .i32 => 6
  | .i64 => 7
  | .q16 => 8
  | .octets => 9
  | .vstring => 10
  | .bcd32 => 11

/-- True for the types of varying length. -/
def ObjType.isLong : ObjType → Bool
  | .octets => true
  | .vstring => true
  | _ => false

/-- Check 5: the access class, and the owner of partitions 0 and 1 (R262, R461). -/
def accessRefuses (r : ObjRow) (op : ObjOp) : Bool :=
  if op.write then
    r.acc = .ro || ((op.key = 0x602001 || op.key = 0x602002) && op.data.length = 4 && bits (leNat op.data) 23 16 ≠ 0xFE)
  else r.acc = .wo

/-- Lengths that an object's whole value may have, within its greatest one (R262, R330, R446, R467, R347). -/
def wholeLengthOk (i s n : Nat) : Bool :=
  if i = 0x2010 then n = 44 || n = 4
  else if i = 0x3052 then n = 34 || n = 0
  else if i = 0x6010 then n = 16
  else if i = 0x7001 ∧ s = 2 then n = 97
  else if 0x7100 ≤ i ∧ i ≤ 0x711F then decide (1 ≤ n)
  else true

/-- Check 6: type code, length and offset (R460, R464, R468, R469). -/
def formRefuses (r : ObjRow) (op : ObjOp) : Bool :=
  if op.write then
    op.ty ≠ r.ty.code ||
      if r.ty.isLong then
        decide (r.len < op.off + op.data.length) || (op.last && !wholeLengthOk op.idx op.sub (op.off + op.data.length)) ||
          decide ((if isInband op.who then 16384 else 1024) < op.data.length)
      else !(op.off = 0 && op.data.length = r.len && op.last)
  else
    (op.ty ≠ 0 && op.ty ≠ r.ty.code) || (!r.ty.isLong && !(op.off = 0 && (op.len = 0 || op.len = r.len)))

/-- Checks 1 to 6 of R474: the first that fails, or the row of the object. -/
def firstChecks (d : Dev) (op : ObjOp) : Except Nat ObjRow :=
  if !indexExists d op.idx then .error abAbsent
  else if unitRefuses d op then .error abUnit
  else match anyRow op.idx op.sub with
    | none => .error abSub
    | some r =>
      match roleRefuses d op with
      | some c => .error c
      | none =>
        if accessRefuses r op then .error abAccess
        else if formRefuses r op then .error abType
        else .ok r

/-! ## The transaction's view (R478 to R482) -/

/-- An operation on the owner's path restarts the idle timer (R482). -/
def touchTxn (who : Path) (d : Dev) : Dev :=
  if d.txn.state = 1 ∧ d.txn.owner = some who then { d with txn := { d.txn with activeAt := d.tm } } else d

/-- True when a path owns the open transaction. -/
def ownsTxn (d : Dev) (who : Path) : Bool := d.txn.state ≠ 0 && decide (d.txn.owner = some who)

/-- The staged value of an object. -/
def stagedOf (d : Dev) (k : Nat) : Option Bytes := d.txn.staged.lookup k

/-- True for the profile image, whose reads never show a staged value (R181). -/
def isProfileImage (k : Nat) : Bool := decide (0x5100 ≤ k / 256 ∧ k / 256 ≤ 0x513F) && k % 256 = 2

/-- True for the program action object. -/
def isProgAction (k : Nat) : Bool := decide (0x7100 ≤ k / 256 ∧ k / 256 ≤ 0x711F) && k % 256 = 0x0A

/-- True for the program chunk object. -/
def isProgChunk (k : Nat) : Bool := decide (0x7100 ≤ k / 256 ∧ k / 256 ≤ 0x711F) && k % 256 = 0x0B

/-- The value a path reads: staged for the owner, else in force; an action shows its code alone (R479). -/
def valueFor (d : Dev) (who : Path) (r : ObjRow) (k : Nat) : Option Bytes :=
  match (if ownsTxn d who && !isProfileImage k then stagedOf d k else none) with
  | some v => some (if isProgAction k then v.take 1 else v)
  | none => if k % 256 = 0 then some (leBytes 1 (highestSub (k / 256))) else objBytes d r k

/-- Objects that answer NOT_IN_STATE until mount completes: media management and what is held in the metadata (R545). -/
def beforeMount (d : Dev) (i : Nat) : Bool :=
  (d.power.phase = .firmware || d.power.phase = .dramFailed) &&
    (decide (0x3800 ≤ i ∧ i ≤ 0x3860) || decide (0x5100 ≤ i ∧ i ≤ 0x513F) || decide (0x7100 ≤ i ∧ i ≤ 0x711F))

/-! ## Reads -/

/-- What a read answers. -/
structure ReadAnswer where
  /-- 0, or the abort code. -/
  code : Nat := 0
  /-- The bytes. -/
  data : Bytes := []
  /-- Total length of the value. -/
  total : Nat := 0
  /-- Type code. -/
  ty : Nat := 0

/-- A read of at most `room` bytes (R464, R468, R469, R474, R499). -/
def objectRead (op : ObjOp) (room : Nat) (d : Dev) : ReadAnswer × Dev :=
  let d0 := touchTxn op.who d
  match firstChecks d0 op with
  | .error c => ({ code := c }, d0)
  | .ok r =>
    if beforeMount d0 op.idx then ({ code := abState }, d0)
    else match valueFor d0 op.who r op.key with
      | none => ({ code := abRange }, d0)
      | some v =>
        if v.length < op.off then ({ code := abRange }, d0)
        else
          let rest := v.drop op.off
          ({ data := (if op.len = 0 then rest else rest.take op.len).take room, total := v.length, ty := r.ty.code }, d0)

/-! ## Checks 7 and 8 -/

/-- True for a segment: a piece of a longer value (R469). -/
def isSegment (r : ObjRow) (op : ObjOp) : Bool := r.ty.isLong && (op.off ≠ 0 || !op.last)

/-- Check 7 of a write (R478, R479, R482): the abort code, with the former owner's one TXN_TIMEOUT spent. -/
def txnRefuses (r : ObjRow) (op : ObjOp) (d : Dev) : Option Nat × Dev :=
  if d.txn.formers.contains op.who then (some abTimeout, { d with txn := { d.txn with formers := d.txn.formers.filter (· ≠ op.who) } })
  else if op.key = 0x110001 then
    let v := leNat op.data
    if v = 1 then (if d.txn.state = 0 then none else some abBusy, d)
    else if v = 2 ∨ v = 3 then (if d.txn.state = 0 then some abNone else if d.txn.owner = some op.who then none else some abBusy, d)
    else (none, d)
  else if op.idx = 0x1100 then (none, d)
  else if d.txn.state = 0 then (if r.acc = .rwt || isSegment r op then some abNone else none, d)
  else if d.txn.owner = some op.who then (if d.txn.state = 2 then some abBusy else none, d)
  else (if r.acc = .rwt || isSegment r op || isStaged d op.key || (mapGet d.txn.partials op.key).isSome then some abBusy else none, d)

/-- Check 8: a worn object (R477). -/
def isWorn (d : Dev) (r : ObjRow) (k : Nat) : Bool := isPra r && decide (4000000 ≤ wearOf d k)

/-! ## Check 9: ranges -/

/-- A value's own range by its row and the rules of its object, other objects aside. -/
def ownRangeOk (d : Dev) (r : ObjRow) (k : Nat) (bs : Bytes) : Bool :=
  let v := leNat bs
  let i := k / 256
  let s := k % 256
  if r.ty = .vstring then bs.all fun b => decide (0x20 ≤ b.toNat ∧ b.toNat ≤ 0x7E)
  else if i = 0x3052 ∧ r.ty = .octets then bs.isEmpty || decide (leField bs 0 2 ≤ 112)
  else if i = 0x2010 then
    let role := leField bs 0 1
    leField bs 1 3 = 0 && (if bs.length = 4 then role = 0
      else (role = 1 || role = 2) && (match d.keys.kek1 with
        | some kek => (keyUnwrap kek (bs.drop 4)).isSome
        | none => true))
  else if r.ty = .octets then true
  else decide (r.lo ≤ v ∧ v ≤ r.hi) &&
    (if k = 0x202002 then decide (v ≤ 31) || v = 0xFF
     else if k = 0x305003 then v = 4
     else if k = 0x305101 then decide (v ≤ 0xFF)
     else if k = 0x305301 then v = 0
     else if k = 0x340001 then v = 4 || v = 8
     else if k = 0x340002 then v = 16 || v = 32
     else if k = 0x340003 then v = 1 || v = 2
     else if k = 0x340004 then v = 4800 || v = 5600 || v = 6400
     else if i = 0x3130 then stepValid v
     else if i = 0x6020 then
       bits v 31 24 = 0 && bits v 15 15 = 0 && bits v 7 6 = 0 && !decide (32 ≤ bits v 23 16 ∧ bits v 23 16 ≤ 0xFD) &&
         decide (bits v 5 0 + bits v 14 8 ≤ 64)
     else if k = 0x604001 then decide (v < 2 ^ 48)
     else if k = 0x700001 then decide (v ≤ byVariant d.variant 32 16 16)
     else if k = 0x401001 then decide (v ≤ objNum d 0x100804)
     else if i = 0x9200 then decide (v < 2 ^ 48)
     else if decide (0x5100 ≤ i ∧ i ≤ 0x513F) && s = 3 then v = 1
     else if isProgAction k then decide (1 ≤ v ∧ v ≤ 4)
     else true)

/-- Sum of a limit over the enabled, reserved VFs (R114). -/
def limitSum (d : Dev) (val : Nat → Nat) (sub : Nat) : Nat := (reservedVfs d).foldl (fun a kc => a + val (poolObj kc.2.dvf + sub)) 0

/-- Total that the limits of a subindex may not pass (R109, R114); weights have none. -/
def limitTotal (d : Dev) (sub : Nat) : Option Nat :=
  if sub = 1 then some (poolTotal d .sessions) else if sub = 2 then some (poolTotal d .keySlots) else if sub = 3 then some (poolTotal d .entries) else none

/-- The range rules that relate an object to others, on given values (R114, R382, R404, R457): true where they hold. -/
def relationOk (d : Dev) (val : Nat → Nat) (k : Nat) : Bool :=
  let i := k / 256
  if 0x4100 ≤ i ∧ i ≤ 0x41FE then
    let enabled := (reservedVfs d).any fun kc => poolObj kc.2.dvf = i * 256
    match limitTotal d (k % 256) with
    | some t => !enabled || decide (limitSum d val (k % 256) ≤ t)
    | none => true
  else if k = 0x381002 ∨ k = 0x381003 then decide (val 0x381003 < val 0x381002)
  else if k = 0x382001 ∨ k = 0x382002 then decide (val 0x382002 < val 0x382001)
  else if k = 0x343001 ∨ k = 0x343002 then decide (val 0x343002 + 8 ≤ val 0x343001)
  else if k = 0x314002 ∨ k = 0x314003 then decide (val 0x314002 ≤ val 0x314003)
  else true

/-- The numbers in force, with one object's value replaced. -/
def withValue (d : Dev) (k v : Nat) (x : Nat) : Nat := if x = k then v else objNum d x

/-- True when a start of a pass names a range that it may cover (R420). -/
def passStartOk (d : Dev) : Bool := passRangeOk d (objNum d 0xA03001) (objNum d 0xA03004) (objNum d 0xA03002) (objNum d 0xA03003)

/-! ## Check 10: states -/

/-- True when the device's state refuses the write (R113, R215, R223, R382, R420, R467, R494, R509, R545, R547). -/
def stateRefuses (d : Dev) (k : Nat) (bs : Bytes) : Bool :=
  let i := k / 256
  let v := leNat bs
  if d.power.phase = .dramFailed ∧ i ≠ 0x3400 then true
  else if beforeMount d i then true
  else if decide (0x4100 ≤ i ∧ i ≤ 0x41FE) && d.variant ≠ .vl7s then (vfByNumber d (i - 0x4100 + 1)).isSome
  else if k = 0x381001 then decide (usableFor d v < logicalSum d)
  else if isProfileImage k then framesFree d = 0 && !isStaged d k
  else if isProgAction k then decide (2 ≤ v) && (progSlot d (i - 0x7100)).state = 0
  else if k = 0x800101 then d.media.nss.any fun kn => kn.2.cascade
  else if k = 0xA03006 then v = 1 && d.integ.dredge.state = 1
  else if (i = 0x8010 ∨ i = 0x8011) ∧ k % 256 = 7 then (if i = 0x8010 then d.cas.ports[0].state else d.cas.ports[1].state) ≠ 3
  else if i = 0x2010 then bs.length = 44 && d.keys.kek1.isNone
  else false

/-! ## What a value sets off (R80 and the objects' own rules) -/

/-- One Gauge counter changed. -/
def modifyCounter (n : Nat) (f : GaugeCounter → GaugeCounter) (d : Dev) : Dev :=
  if h : n < 64 then { d with gauge := { d.gauge with counters := d.gauge.counters.set n (f d.gauge.counters[n]) } } else d

/-- A management key recorded, unwrapped where KEK 1 is loaded, or erased (R467, R473, R483). -/
def writeMgmtKey (n : Nat) (bs : Bytes) (d : Dev) : Dev :=
  if h : n < 4 then
    let wrapped : Option Bytes := if bs.length = 44 then some (bs.drop 4) else none
    let clear : Option Bytes := match wrapped, d.keys.kek1 with
      | some w, some kek => keyUnwrap kek w
      | _, _ => none
    let d1 := modifyKeys (fun k => { k with mgmt := k.mgmt.set n wrapped }) d
    let d2 := { d1 with aop := { d1.aop with keys := d1.aop.keys.set n clear, replay := d1.aop.replay.set n {} } }
    let d3 := devPersist (0x201101 + n) (if bs.length = 44 then leField bs 0 1 else 0) d2
    let owned := d3.txn.state = 1 && (match d3.txn.owner with
      | some (.aop key _) => key = n
      | _ => false)
    if owned then gaugeCount 0x07E (rollbackTxn d3) else d3
  else d

/-- The partition 1 search of object 0x6040 (R256, R262). -/
def labelSearch (v : Nat) (d : Dev) : Dev :=
  let (hit, d1) := eddySearch 1 0 (BitVec.ofNat 128 v) [] (setNum 0x604001 v d)
  match hit with
  | some h => setNum 0x604002 (bits h.entry.data.toNat 31 0) (setNum 0x604003 (if h.multi then 2 else 1) d1)
  | none => setNum 0x604002 0 (setNum 0x604003 0 d1)

/-- A snapshot of every counter at one instant (R497). -/
def gaugeSnapshot (d : Dev) : Dev :=
  { d with gauge := { counters := d.gauge.counters.map fun c => { c with snap := c.count }, snapAt := d.tm % 2 ^ 64 } }

/-- Every counter and overflow flag set to 0 (R496). -/
def gaugeResetAll (d : Dev) : Dev :=
  { d with gauge := { d.gauge with counters := d.gauge.counters.map fun c => { c with count := 0, overflow := false } } }

/-- A counter's source written; a change sets the counter to 0 and clears its flag (R497). -/
def gaugeSource (n v : Nat) (d : Dev) : Dev :=
  modifyCounter n (fun c => if c.source = BitVec.ofNat 9 v then c else { c with source := BitVec.ofNat 9 v, count := 0, overflow := false }) d

/-- A counter written (R496). -/
def gaugeWrite (n v : Nat) (d : Dev) : Dev := modifyCounter n (fun c => { c with count := BitVec.ofNat 48 v, overflow := false }) d

/-- An isolated port back in training (R494, R495). -/
def retrainPort (p : Fin 2) (d : Dev) : Dev :=
  let q := d.cas.ports[p]
  if q.state = 3 then { d with cas := { d.cas with ports := d.cas.ports.set p { q with state := 1, fails := 0, txSeq := 0, rxSeq := 0 } } } else d

/-- The law switched; a change enables or disables it (R448, R453). -/
def switchLaw (v : Nat) (d : Dev) : Dev :=
  let was := objNum d 0x310001
  let d1 := setNum 0x310001 v d
  if was = v then d1 else if v = 1 then enableLaw d1 else disableLaw d1

/-- A unit asked back into service: an offline one starts its known-answer test (R215, R221). -/
def returnUnit (v : Nat) (d : Dev) : Dev :=
  let u := unitIdx v
  if d.keys.estuary[u].state = 1 then modifyEstuary u (fun e => { e with testing := true }) d else d

/-- A profile image defined as a new version, or the profile undefined; undefining an undefined one is no change (R181). -/
def defineProfile (p : Nat) (img : Bytes) (d : Dev) : Dev :=
  let x : Profile := mapGetD d.profiles p {}
  if img.isEmpty && x.image.isEmpty then d
  else { d with profiles := mapSet d.profiles p { image := img, version := x.version + 1, changedAt := d.tm } }

/-- A program action at commit (R330 to R332); a load carries its image after the code. -/
def programAction (slot ctrl : Nat) (bs : Bytes) (d : Dev) : Dev :=
  let v := leField bs 0 1
  if v = 1 then loadProgram slot ctrl (bs.drop 1) d
  else if (progSlot d slot).state = 0 then d
  else if v = 2 then activateProgram slot true d
  else if v = 3 then activateProgram slot false d
  else unloadProgram slot d

/-- Controller that owns what a path loads into a program slot: the PF itself in-band, else the PF of port 0. -/
def ownerCtrl : Option Path → Nat
  | some (.inband id) => id
  | _ => 1

/-- An object's value put in force, with what its rule says follows. -/
def putInForce (who : Option Path) (r : ObjRow) (k : Nat) (bs : Bytes) (d : Dev) : Dev :=
  let v := leNat bs
  let i := k / 256
  let s := k % 256
  if k = 0x305003 then modifyPower (fun p => { p with offDue := true }) d
  else if k = 0x305007 then applyRequest (setNum k v d)
  else if k = 0x305101 then setNum k (v ||| 0x42) d
  else if k = 0x310001 then switchLaw v d
  else if k = 0x310003 then (if v = 1 then freezeLaw d else unfreezeLaw d)
  else if isLawObj k && d.weir.staged.isSome then modifyWeir (fun w => { w with staged := w.staged.map fun m => mapSet m k v }) d
  else if i = 0x2010 then writeMgmtKey (s - 1) bs d
  else if k = 0x580009 then returnUnit v d
  else if i = 0x6010 then
    { d with eddy := { d.eddy with masks := Vector.ofFn fun j => if j.val + 5 = s then BitVec.ofNat 128 v else d.eddy.masks[j] } }
  else if i = 0x6020 then
    { d with eddy := { d.eddy with layout := Vector.ofFn fun j => if j.val + 1 = s then BitVec.ofNat 32 v else d.eddy.layout[j] } }
  else if k = 0x604001 then labelSearch v d
  else if k = 0x900001 then (if v = 1 then gaugeSnapshot d else gaugeResetAll d)
  else if i = 0x9100 then gaugeSource (s - 1) v d
  else if i = 0x9200 then gaugeWrite (s - 1) v d
  else if k = 0xA01002 then applyCapacity v (setNum k v d)
  else if k = 0xA03006 then (if v = 1 then softwarePass d else stopPass d)
  else if k = 0xA04004 then { d with errLog := { d.errLog with selector := v } }
  else if k = 0xA05004 then { d with vioLog := { d.vioLog with selector := v } }
  else if i = 0x8010 ∧ s = 7 then retrainPort 0 d
  else if i = 0x8011 ∧ s = 7 then retrainPort 1 d
  else if isProfileImage k then defineProfile (i - 0x5100) bs d
  else if 0x5100 ≤ i ∧ i ≤ 0x513F then defineProfile (i - 0x5100) [] d
  else if isProgAction k then programAction (i - 0x7100) (ownerCtrl who) bs d
  else if isProgChunk k then d
  else if r.ty.isLong then setOct k bs d
  else setNum k v d

/-! ## Direct writes (R476) -/

/-- True when a write goes to Weir's staged set, which the swap persists (R455). -/
def toStagedLaw (d : Dev) (k : Nat) : Bool := isLawObj k && d.weir.staged.isSome

/-- A third attempt that fails: the object keeps its value (R476). -/
def persistFailed (k : Nat) (d : Dev) : Dev :=
  logError 0x0A 1 3 0x0FE (leBytes 4 k ++ leBytes 4 (wearOf d k)) (gaugeCount 0x0FE (bump 0x200007 d))

/-- A write outside a transaction: persisted, then in force; a 0 to freeze waits for the swap (R455, R476). -/
def directWrite (who : Path) (r : ObjRow) (k : Nat) (bs : Bytes) (noPersist : List Nat) (d : Dev) : OpEnd × Dev :=
  if r.acc = .rwp && isPra r && !toStagedLaw d k then
    (if noPersist.contains k then (.abort abPersist, persistFailed k d) else (.ok, putInForce (some who) r k bs (countPersist k d)))
  else if k = 0x310003 ∧ leNat bs = 0 ∧ d.weir.staged.isSome then (.later, putInForce (some who) r k bs d)
  else (.ok, putInForce (some who) r k bs d)

/-! ## Staging (R479) -/

/-- Bytes of large values that the transaction holds (R479); a load's image stands with its chunks. -/
def largeBytes (d : Dev) : Nat :=
  (d.txn.staged.filter fun kv => isProfileImage kv.1 || isProgChunk kv.1).foldl (fun a kv => a + kv.2.length) 0 +
    d.txn.partials.foldl (fun a kv => a + kv.2.length) 0

/-- What is held for a staged value: chunks append, a load takes the image staged so far (R330). -/
def stagedForm (d : Dev) (k : Nat) (bs : Bytes) : Bytes :=
  if isProgChunk k then (stagedOf d k).getD [] ++ bs
  else if isProgAction k && leNat bs = 1 then bs ++ (stagedOf d (k + 1)).getD []
  else bs

/-- A value staged: it replaces an earlier one in its place, or comes last (R479). -/
def stageValue (k : Nat) (bs : Bytes) (d : Dev) : Dev :=
  let v := stagedForm d k bs
  { d with txn := { d.txn with
      staged := if isStaged d k then d.txn.staged.map (fun kv => if kv.1 = k then (k, v) else kv) else d.txn.staged ++ [(k, v)] } }

/-- True when staging would pass 1,024 objects or 16 MiB (R479). -/
def stagingFull (d : Dev) (k : Nat) (bs : Bytes) : Bool :=
  (!isStaged d k && decide (1024 ≤ d.txn.staged.length)) ||
    ((isProfileImage k || isProgChunk k) && decide (16 * 2 ^ 20 < largeBytes d - (if isProfileImage k then ((stagedOf d k).getD []).length else 0) + bs.length))

/-- The device as the loads staged so far will leave it: a later load must fit beside them (R330). -/
def withStagedLoads (d : Dev) : Dev :=
  d.txn.staged.foldl (fun d kv =>
    if isProgAction kv.1 && leField kv.2 0 1 = 1 then loadProgram (kv.1 / 256 - 0x7100) (ownerCtrl d.txn.owner) (kv.2.drop 1) d else d) d

/-- The image checks of a staged value: the abort code's record in 0x5001 or 0x7000.07 where one fails (R180, R328). -/
def imageCheck (k : Nat) (bs : Bytes) (d : Dev) : Option Dev :=
  if isProfileImage k then
    (imageRefused bs).map fun f => setNum 0x500101 f.1 (setNum 0x500102 f.2 (setNum 0x500103 (k / 256 - 0x5100) d))
  else if isProgAction k && leNat bs = 1 then
    (progRefused (withStagedLoads d) (k / 256 - 0x7100) (ownerCtrl d.txn.owner) ((stagedOf d (k + 1)).getD [])).map fun c => setNum 0x700007 c d
  else none

/-! ## Segments (R469) -/

/-- The partial value of an object dropped. -/
def dropPartial (k : Nat) (d : Dev) : Dev := { d with txn := { d.txn with partials := mapErase d.txn.partials k } }

/-- A value's segments so far, with this one: none where it is out of order (R469). -/
def joinSegment (d : Dev) (op : ObjOp) : Option Bytes :=
  if op.off = 0 then some op.data
  else match mapGet d.txn.partials op.key with
    | some p => if p.length = op.off then some (p ++ op.data) else none
    | none => none

/-! ## Commit (R480) -/

/-- Value of a number object as a commit would leave it. -/
def commitValue (d : Dev) (k : Nat) : Nat :=
  match stagedOf d k with
  | some v => leNat v
  | none => objNum d k

/-- Layout word of a partition as a commit would leave it. -/
def commitLayout (d : Dev) (p : Nat) : Nat :=
  match stagedOf d (0x602001 + p) with
  | some v => leNat v
  | none => layoutWord d p

/-- Segments of a layout word, as the first and the one past the last. -/
def segRange (w : Nat) : Nat × Nat := (bits w 5 0, bits w 5 0 + bits w 14 8)

/-- True when two partitions would overlap (R249). -/
def overlaps (d : Dev) (p q : Nat) : Bool :=
  let a := segRange (commitLayout d p)
  let b := segRange (commitLayout d q)
  p ≠ q && decide (a.1 < a.2 ∧ b.1 < b.2 ∧ a.1 < b.2 ∧ b.1 < a.2)

/-- The partition of a segment under a layout. -/
def partOfSeg (layout : Nat → Nat) (g : Nat) : Option Nat :=
  (List.range 8).find? fun p => decide ((segRange (layout p)).1 ≤ g ∧ g < (segRange (layout p)).2)

/-- True when a segment that leaves its partition holds a valid entry (R249). -/
def movesFull (d : Dev) (p : Nat) : Bool :=
  (List.range 64).any fun g =>
    partOfSeg (layoutWord d) g ≠ partOfSeg (commitLayout d) g &&
      (partOfSeg (layoutWord d) g = some p || partOfSeg (commitLayout d) g = some p) &&
      d.eddy.entries.any fun ae => ae.1 / 1024 = g && (ae.2.valid || ae.2.rewriting)

/-- The first staged object of a test. -/
def firstStaged (d : Dev) (p : Nat → Bool) : Option Nat := (d.txn.staged.map Prod.fst).find? p

/-- True for a partition layout object. -/
def isLayout (k : Nat) : Bool := decide (0x602001 ≤ k ∧ k ≤ 0x602008)

/-- Step 1 of a commit: the failing object and its code (R480, R483). -/
def commitRefused (d : Dev) : Option (Nat × Nat) :=
  match d.txn.partials with
  | (k, _) :: _ => some (k, abState)
  | [] =>
    let broken (p : Nat → Bool) : Option Nat := firstStaged d fun k => p k && !relationOk d (commitValue d) k
    let checks : List (Option (Nat × Nat)) :=
      [(broken fun k => decide (0x410000 ≤ k ∧ k < 0x41FF00)).map (·, abRange),
       (firstStaged d fun k => isLayout k && (List.range 8).any fun q => overlaps d (k - 0x602001) q).map (·, abRange),
       (firstStaged d fun k => isLayout k && movesFull d (k - 0x602001)).map (·, abState),
       (broken fun _ => true).map (·, abRange),
       (firstStaged d fun k => match rowOf (k / 256) (k % 256) with
          | some r => isWorn d r k
          | none => false).map (·, abWorn),
       if 64000000 ≤ objNum d 0x110006 then some (0x110006, abWorn) else none]
    checks.findSome? id

/-- Step 4 of a commit: the staged writes in staging order, each counted and in force (R455, R477, R480). -/
def applyStaged (d : Dev) : Dev :=
  d.txn.staged.foldl (fun d kv =>
    match rowOf (kv.1 / 256) (kv.1 % 256) with
    | none => d
    | some r =>
      let d1 := if isPra r && !toStagedLaw d kv.1 then countPersist kv.1 d else d
      putInForce d.txn.owner r kv.1 kv.2 d1) d

/-- The commit recorded: its ID in 0x1100.06, whose cells are the 16 record slots in turn (R480). -/
def recordCommit (id : Nat) (d : Dev) : Dev :=
  setNum 0x110006 id { d with wear := mapSet d.wear 0x110006 (wearOf d 0x110006 + 1) }

/-- A commit: its code, or the ID (R480). -/
def commitTxn (d : Dev) : Except Nat Nat × Dev :=
  match commitRefused d with
  | some (k, c) => (.error c, setNum 0x110007 k (setNum 0x110008 c { d with txn := { d.txn with activeAt := d.tm } }))
  | none =>
    let id := d.txn.id
    let d1 := applyStaged { d with txn := { d.txn with state := 2 } }
    (.ok id, gaugeCount 0x0FC (recordCommit id (rollbackTxn d1)))

/-- A write of 0x1100.01: begin, commit or rollback (R478). -/
def txnControl (who : Path) (v : Nat) (d : Dev) : OpEnd × Dev :=
  if v = 1 then
    if d.power.phase ≠ .ready then (.abort abState, d)
    else (.ok, { d with txn := { state := 1, id := objNum d 0x110006 + 1, owner := some who, activeAt := d.tm, formers := d.txn.formers } })
  else if v = 2 then
    (match commitTxn d with
      | (.ok _, d1) => (.ok, d1)
      | (.error c, d1) => (.abort c, d1))
  else if v = 3 then (.ok, rollbackTxn d)
  else (.abort abRange, d)

/-! ## Writes -/

/-- Checks 9 and 10 of a complete value, then its staging or its direct write. -/
def completeWrite (op : ObjOp) (r : ObjRow) (bs : Bytes) (noPersist : List Nat) (d : Dev) : OpEnd × Dev :=
  let k := op.key
  let staging := ownsTxn d op.who && op.idx ≠ 0x1100
  if !ownRangeOk d r k bs || (k = 0xA03006 && leNat bs = 1 && !passStartOk d) then (.abort abRange, d)
  else if !staging && !relationOk d (withValue d k (leNat bs)) k then (.abort abRange, d)
  else if staging && stagingFull d k bs then (.abort abRange, d)
  else match imageCheck k bs d with
    | some d1 => (.abort abRange, d1)
    | none =>
      if stateRefuses d k bs then (.abort abState, d)
      else if staging then (.ok, stageValue k bs d)
      else directWrite op.who r k bs noPersist d

/-- A write under every check of R474; `noPersist` names the objects whose cells fail their third verify (R476). -/
def objectWrite (op : ObjOp) (noPersist : List Nat) (d : Dev) : OpEnd × Dev :=
  let d0 := touchTxn op.who d
  match firstChecks d0 op with
  | .error c => (.abort c, d0)
  | .ok r =>
    match txnRefuses r op d0 with
    | (some c, d1) => (.abort c, d1)
    | (none, d1) =>
      if isWorn d1 r op.key then (.abort abWorn, d1)
      else if op.key = 0x110001 then txnControl op.who (leNat op.data) d1
      else if isSegment r op then
        (match joinSegment d1 op with
          | none => (.abort abRange, dropPartial op.key d1)
          | some v =>
            if op.last then completeWrite op r v noPersist (dropPartial op.key d1)
            else if 16 * 2 ^ 20 < largeBytes (dropPartial op.key d1) + v.length then (.abort abRange, dropPartial op.key d1)
            else (.ok, { d1 with txn := { d1.txn with partials := mapSet d1.txn.partials op.key v } }))
      else completeWrite op r op.data noPersist (dropPartial op.key d1)

end Sys2Proof.Machine
end

