-- ==== Sys2Proof/Machine/Aop.lean ====
section
/-! DEFINITION. Machine/Aop.lean: AOP frames and NVMe-MI Object Requests: their checks, their operations in order, and the responses (R465
to R473). -/
namespace Sys2Proof.Machine

/-- AOP and MCTP state changed. -/
def modifyAop (f : Aop → Aop) (d : Dev) : Dev := { d with aop := f d.aop }

/-! ## Records (R468) -/

/-- One record read from the front of a body, with the rest; none where it is not one that R472 check 7 lets pass. -/
def takeRecord (b : Bytes) : Option (OpRec × Bytes) :=
  let op := leField b 0 1
  let flags := leField b 1 1
  let len := leField b 12 2
  let n := if op = 2 then roundUp len 4 else 0
  if b.length < 16 + n ∨ (op ≠ 1 ∧ op ≠ 2) ∨ 2 ≤ flags ∨ leField b 6 2 ≠ 0 ∨ leField b 14 2 ≠ 0 then none
  else
    some ({ op := op, flags := flags, idx := leField b 2 2, sub := leField b 4 1, ty := leField b 5 1, off := leField b 8 4, len := len,
            data := if op = 2 then slice b 16 len else [] }, b.drop (16 + n))

/-- The records of a body: they number the count and fill it exactly (R472 check 7). -/
def takeRecords : Nat → Bytes → Option (List OpRec)
  | 0, b => if b.isEmpty then some [] else none
  | n + 1, b =>
    match takeRecord b with
    | none => none
    | some (r, rest) => (takeRecords n rest).map (r :: ·)

/-- A response record (R468). -/
def answerRecord (r : OpRec) (ty status total : Nat) (data : Bytes) : Bytes :=
  leBytes 1 r.op ++ leBytes 1 r.flags ++ leBytes 2 r.idx ++ leBytes 1 r.sub ++ leBytes 1 ty ++ leBytes 2 status ++ leBytes 4 r.off ++
    leBytes 2 data.length ++ leBytes 2 total ++ padTo (roundUp data.length 4) data

/-! ## Operations in order (R471) -/

/-- The operation of a record on a path. -/
def recordOp (who : Path) (r : OpRec) : ObjOp :=
  { who := who, write := r.op = 2, idx := r.idx, sub := r.sub, ty := r.ty, off := r.off, len := r.len, last := bit r.flags 0, data := r.data }

/-- True for a path of AOP. -/
def isAop : Path → Bool
  | .aop _ _ => true
  | .aopUnauth => true
  | _ => false

/-- An aborted operation counted; on MCTP a refusal by the role is a violation (R462, R530 row 33). -/
def countAbort (who : Path) (op : ObjOp) (code : Nat) (d : Dev) : Dev :=
  match who with
  | .mctp eid =>
    if code = abAccess && (roleRefuses d op).isSome then
      logViolation 0x23 33 0x07A eid 4 (leBytes 1 eid ++ leBytes 1 4) d
    else d
  | _ => gaugeCount 0x079 d

/-- One operation run; its response record, or none while it waits (R455, R471).  `room` is what the response has room for, `np` the objects whose
cells fail their third verify (R476). -/
def runRecord (np : List Nat) (who : Path) (room : Nat) (r : OpRec) (d : Dev) : Option (Bytes × Nat) × Dev :=
  let op := recordOp who r
  if r.op = 1 then
    let (a, d1) := objectRead op (min 1024 room) d
    if a.code = 0 then (some (answerRecord r a.ty 0 a.total a.data, 0), d1)
    else (some (answerRecord r r.ty a.code 0 [], a.code), countAbort who op a.code d1)
  else
    match objectWrite op np d with
    | (.ok, d1) => (some (answerRecord r r.ty 0 0 [], 0), d1)
    | (.abort c, d1) => (some (answerRecord r r.ty c 0 [], c), countAbort who op c d1)
    | (.later, d1) => (none, d1)

/-- Records from the first on: the response records, and what is left where one waits.  With STOP, nothing runs after an abort (R471). -/
def runRecords (np : List Nat) (who : Path) (stop : Bool) : Bytes → List OpRec → Dev → Bytes × List OpRec × Dev
  | acc, [], d => (acc, [], d)
  | acc, r :: rs, d =>
    let room := (1412 - acc.length - 16 * (rs.length + 1)) / 4 * 4
    match runRecord np who room r d with
    | (none, d1) => (acc, r :: rs, d1)
    | (some (b, c), d1) =>
      if stop && c ≠ 0 then (acc ++ b ++ (rs.map fun x => answerRecord x x.ty 0xFFFF 0 []).flatten, [], d1)
      else runRecords np who stop (acc ++ b) rs d1

/-! ## Responses (R466, R470, R472) -/

/-- A response header (R466). -/
def responseHeader (key flags count epoch counter len status : Nat) : Bytes :=
  leBytes 2 0x5141 ++ leBytes 1 1 ++ leBytes 1 1 ++ leBytes 1 key ++ leBytes 1 flags ++ leBytes 2 count ++ leBytes 4 epoch ++ leBytes 8 counter ++
    leBytes 2 len ++ leBytes 2 status

/-- An unauthenticated response, at most 16 a second (R472). -/
def sendUnauth (peer : Nat × Nat) (flags count status : Nat) (body : Bytes) (d : Dev) : Dev :=
  let sec := d.tm / 1000000000
  let n := if d.aop.unauth.1 = sec then d.aop.unauth.2 else 0
  if 16 ≤ n then gaugeCount 0x078 d
  else
    emit (.aop peer.1 peer.2 (responseHeader 0xFF flags count 0 0 body.length status ++ body))
      (modifyAop (fun a => { a with unauth := (sec, n + 1) }) d)

/-- An authenticated response, tagged with the key of the request (R470). -/
def sendAuth (key : Nat) (peer : Nat × Nat) (flags count counter status : Nat) (body : Bytes) (d : Dev) : Dev :=
  let h := responseHeader key flags count (objNum d 0x202006) counter body.length status ++ body
  match (d.aop.keys.toList).getD key none with
  | some k => emit (.aop peer.1 peer.2 (h ++ (hmacSha256 k h).take 16)) d
  | none => sendUnauth peer flags 0 abAuth [] d

/-- The response of a request whose operations have run (R466, R468). -/
def sendAnswer (j : PathJob) (d : Dev) : Dev :=
  let flags := leField j.header 5 1
  let count := leField j.header 6 2
  match j.who with
  | .aop key _ => sendAuth key j.peer flags count (leField j.header 12 8) 0 j.answer d
  | .aopUnauth => sendUnauth j.peer flags count 0 j.answer d
  | .mctp eid => emit (.mctp eid 0 j.answer) d
  | .inband _ => d

/-- A request's operations run from where they stand; it answers, or waits in its path (R471). -/
def runPath (np : List Nat) (j : PathJob) (d : Dev) : Dev :=
  let stop := isAop j.who && bit (leField j.header 5 1) 0
  match runRecords np j.who stop j.answer j.left d with
  | (acc, [], d1) => sendAnswer { j with answer := acc, left := [] } d1
  | (acc, rs, d1) =>
    let w := some { j with answer := acc, left := rs }
    modifyAop (fun a => if isAop j.who then { a with job := w } else { a with mctpJob := w }) d1

/-- A request whose waiting write is acknowledged: its record is added and the rest runs (R455, R471). -/
def resumeJob (np : List Nat) (j : PathJob) (d : Dev) : Dev :=
  match j.left with
  | [] => sendAnswer j d
  | r :: rs => runPath np { j with answer := j.answer ++ answerRecord r r.ty 0 0 [], left := rs } d

/-! ## The checks of a frame (R466, R472, R473) -/

/-- The part's link-local address: modified EUI-64 of its MAC address (R466). -/
def linkLocal : Nat :=
  let m := padTo 6 (Config.factoryOct 0x202005)
  beNat ([0xFE, 0x80, 0, 0, 0, 0, 0, 0, m.getD 0 0 ^^^ 2, m.getD 1 0, m.getD 2 0, 0xFF, 0xFE, m.getD 3 0, m.getD 4 0, m.getD 5 0])

/-- Check 1 of R472: R466, no fragment, a right checksum; with AOP disabled no frame passes (R484). -/
def frameArrives (d : Dev) (f : AopFrame) : Bool :=
  objNum d 0x202004 = 1 && f.src / 2 ^ 118 = 0x3FA && f.hop = 255 && f.dst = linkLocal && f.dstPort = objNum d 0x202001 &&
    decide (f.payload.length ≤ 1452) && !f.fragment && f.checksumOk

/-- Check 2: a request header (R472). -/
def frameHeaderOk (p : Bytes) : Bool :=
  decide (24 ≤ p.length) && leField p 0 2 = 0x5141 && leField p 2 1 = 1 && leField p 3 1 = 0

/-- Check 3: lengths, frame status, reserved flag bits aside, and the zeros of key ID 0xFF (R472). -/
def frameFormOk (p : Bytes) : Bool :=
  let key := leField p 4 1
  let len := leField p 20 2
  let tag := if key = 0xFF then 0 else 16
  24 + len + tag = p.length && len % 4 = 0 && leField p 22 2 = 0 && (key ≠ 0xFF || (leField p 8 4 = 0 && leField p 12 8 = 0))

/-- The key's next replay state where its counter is accepted (R473). -/
def acceptCounter (w : ReplayWindow) (c : Nat) : Option ReplayWindow :=
  if c = 0 then none
  else if w.h < c then some { h := c, seen := (w.seen <<< (c - w.h)) ||| 1#64 }
  else
    let back := w.h - c
    if back < 64 ∧ w.seen.getLsbD back = false then some { w with seen := w.seen ||| (1#64 <<< back) } else none

/-- A frame dropped or refused: counted and recorded (R472, R526 class 0x22, R530 rows 25 to 32). -/
def refuseFrame (f : AopFrame) (gauge code : Nat) (d : Dev) : Dev :=
  let p := f.payload
  let key := if 24 ≤ p.length then leField p 4 1 else 0
  logViolation 0x22 code gauge (if 24 ≤ p.length then key else 65535) 3
    (beBytes 16 f.src ++ leBytes 2 f.srcPort ++ leBytes 1 key ++ leBytes 1 0 ++ leBytes 8 (leField p 12 8) ++ leBytes 4 (leField p 8 4))
    (bump 0x202009 d)

/-- A frame that has passed the checks before 7: its records, then its operations (R472 checks 7 and 8). -/
def runFrame (np : List Nat) (f : AopFrame) (who : Path) (d : Dev) : Dev :=
  let p := f.payload
  let count := leField p 6 2
  let peer := (f.src, f.srcPort)
  let flags := leField p 5 1
  match (if 1 ≤ count ∧ count ≤ 32 ∧ flags < 2 then takeRecords count (slice p 24 (leField p 20 2)) else none) with
  | none =>
    let d1 := refuseFrame f 0x077 abMalformed d
    (match who with
      | .aop key _ => sendAuth key peer flags 0 (leField p 12 8) abMalformed [] d1
      | _ => sendUnauth peer flags 0 abMalformed [] d1)
  | some rs => runPath np { who := who, header := p.take 24, peer := peer, left := rs, answer := [] } (gaugeCount 0x07D (bump 0x202008 d))

/-- Checks 2 to 8 of a frame (R472). -/
def processFrame (np : List Nat) (f : AopFrame) (d : Dev) : Dev :=
  let p := f.payload
  let key := leField p 4 1
  let flags := leField p 5 1
  let peer := (f.src, f.srcPort)
  if !frameHeaderOk p then refuseFrame f 0x071 0 d
  else if !frameFormOk p then sendUnauth peer flags 0 abMalformed [] (refuseFrame f 0x073 abMalformed d)
  else if key = 0xFF then runFrame np f .aopUnauth d
  else match (if h : key < 4 then d.aop.keys[key] else none) with
    | none => sendUnauth peer flags 0 abAuth [] (refuseFrame f 0x074 abAuth d)
    | some k =>
      let n := p.length - 16
      if (hmacSha256 k (p.take n)).take 16 ≠ p.drop n then sendUnauth peer flags 0 abAuth [] (refuseFrame f 0x075 abAuth d)
      else
        let w := (d.aop.replay.toList).getD key {}
        let counter := leField p 12 8
        match (if leField p 8 4 = objNum d 0x202006 then acceptCounter w counter else none) with
        | none => sendAuth key peer flags 0 counter abReplay (leBytes 8 w.h) (refuseFrame f 0x076 abReplay d)
        | some w1 =>
          runFrame np f (.aop key f.src)
            (modifyAop (fun a => { a with replay := Vector.ofFn fun i => if i.val = key then w1 else a.replay[i] }) d)

/-! ## NVMe-MI Object Requests (R465) -/

/-- Status Invalid Parameter of NVMe-MI. -/
def miInvalid : Nat := 4

/-- An Object Request: its body's length and records, then its operations (R465). -/
def processMctp (np : List Nat) (eid count : Nat) (body : Bytes) (d : Dev) : Dev :=
  if 1412 < body.length then
    emit (.mctp eid miInvalid []) (logViolation 0x23 35 0x07C eid 4 (leBytes 1 eid ++ leBytes 1 4) d)
  else match (if 1 ≤ count ∧ count ≤ 32 then takeRecords count body else none) with
    | none => emit (.mctp eid miInvalid []) d
    | some rs => runPath np { who := .mctp eid, header := [], peer := (0, 0), left := rs, answer := [] } d

/-! ## One message at a time per path (R531) -/

/-- Frames and requests that waited behind a job processed until a job waits again; the first argument bounds the run. -/
def drainPaths (np : List Nat) : Nat → Dev → Dev
  | 0, d => d
  | n + 1, d =>
    if d.power.offDue then d else
    match d.aop.job, d.aop.queue with
    | none, f :: fs => drainPaths np n (processFrame np f (modifyAop (fun a => { a with queue := fs }) d))
    | _, _ =>
      match d.aop.mctpJob, d.aop.mctpQueue with
      | none, (e, c, b) :: ms => drainPaths np n (processMctp np e c b (modifyAop (fun a => { a with mctpQueue := ms }) d))
      | _, _ => d

/-- After an operation has been acknowledged: Off begins where it was asked for (R431); after a swap or a discard of the staged law, what waited
for it goes on (R455, R471). -/
def settlePaths (np : List Nat) (d : Dev) : Dev :=
  if d.power.offDue then offByObject d
  else if d.weir.swapDue then d
  else
    let d1 := match d.aop.job with
      | some j => resumeJob np j (modifyAop (fun a => { a with job := none }) d)
      | none => d
    let d2 := match d1.aop.mctpJob with
      | some j => if d1.weir.swapDue then d1 else resumeJob np j (modifyAop (fun a => { a with mctpJob := none }) d1)
      | none => d1
    offByObject (drainPaths np (d2.aop.queue.length + d2.aop.mctpQueue.length) d2)

/-! ## The commands -/

/-- True while the paths besides the host's are served (R538, R545, R547). -/
def pathsServed (d : Dev) : Bool := d.power.phase = .firmware || d.power.phase = .dramFailed || d.power.phase = .ready

/-- True while the firmware runs to serve them (R426). -/
def pathsAwake (d : Dev) : Bool := pathsServed d && decide (d.power.state < 2)

/-- AOP_FRAME: a frame is received; in Doze a frame that pattern 0 may match wakes the part first, in Slumber nothing is received (R438, R466
to R473).  `full` says that the receive queue of 8 frames is full, `noPersist` names the objects whose
cells fail their third verify (R476). -/
def execAopFrame (now : Nat) (f : AopFrame) (full : Bool) (noPersist : List Nat) (s : State) : Host.Outcome State Fault Refusal :=
  run (fun d =>
    let d0 := advanceTo now d
    let wakes := d0.power.state = 2 && objNum d0 0x305201 = 1 && bit (objNum d0 0x305101) 2 && f.dst = linkLocal && f.dstPort = objNum d0 0x202001
    let d1 := if wakes then latchWake 4 (gaugeCount 0x07F d0) else d0
    if !pathsAwake d1 then d1
    else if !frameArrives d1 f then refuseFrame f 0x070 0 d1
    else if !frameHeaderOk f.payload then refuseFrame f 0x071 0 d1
    else if full || decide (8 ≤ d1.aop.queue.length) then refuseFrame f 0x072 0 d1
    else if d1.aop.job.isSome then modifyAop (fun a => { a with queue := a.queue ++ [f] }) d1
    else settlePaths noPersist (processFrame noPersist f d1)) s

/-- MCTP_OBJECT_REQUEST: a packet is received over SMBus or I3C; it wakes the part from Doze or Slumber, and a request is served while the part
is awake (R437, R465, R530 rows 33 to 35).  `packetOk` is false for a PEC or header error. -/
def execMctpObjectRequest (now eid : Nat) (packetOk : Bool) (type count : Nat) (body : Bytes) (noPersist : List Nat) (s : State) : Host.Outcome State Fault Refusal :=
  run (fun d =>
    let d1 := latchWake 8 (advanceTo now d)
    if !pathsAwake d1 then d1
    else if !packetOk || type ≠ 4 then
      logViolation 0x23 34 0x07B eid 4 (leBytes 1 eid ++ leBytes 1 type) d1
    else if d1.aop.mctpJob.isSome then modifyAop (fun a => { a with mctpQueue := a.mctpQueue ++ [(eid, count, body)] }) d1
    else settlePaths noPersist (processMctp noPersist eid count body d1)) s

/-- WEIR_SAMPLE: what the sensors read at a sample instant; writes that waited for the swap are acknowledged (R450, R455). -/
def execWeirSample (now : Nat) (temps : Vector Word 24) (volts0 volts1 power phy : Word) (late : Bool) (delayNs : Nat) (s : State) : Host.Outcome State Fault Refusal :=
  run (fun d => settlePaths [] (weirSample temps volts0 volts1 power phy late delayNs (advanceTo now d))) s

end Sys2Proof.Machine
end

