-- ==== Sys2Proof/Machine/DictRows.lean ====
section
/-! DEFINITION. Machine/DictRows.lean: the commands that read and write the dictionary: the in-band admin commands C0h to C2h (R464), the
transaction (R478 to R482), and the writes that have a row of their own. -/
namespace Sys2Proof.Machine

/-! ## In-band commands (R464) -/

/-- Object Read after its fetch (R464). -/
def readCommand (c : Cmd) (d : Dev) : Dev :=
  let len := bits c.cdw12 15 0
  if !(zeroBits c.cdw10 31 24 && zeroBits c.cdw12 31 16 && zeroBits c.cdw13 31 8 && c.cdw14 = 0 && c.cdw15 = 0) ∨ 16384 < len then done c stField d
  else
    let op : ObjOp := { who := .inband c.ctrl, write := false, idx := bits c.cdw10 15 0, sub := bits c.cdw10 23 16, ty := c.cdw13, off := c.cdw11, len := len }
    let (a, d1) := objectRead op 16384 d
    if a.code = 0 then done c stOk (sendData c a.data d1) (dw0 := a.data.length) (dw1 := a.total % 65536 + 65536 * a.ty)
    else done c stObjAborted (gaugeCount 0x06D d1) (dw0 := a.code)

/-- How an in-band write completes (R455, R464). -/
def endWrite (c : Cmd) (e : OpEnd) (d : Dev) : Dev :=
  match e with
  | .ok => done c stOk d
  | .abort code => done c stObjAborted (gaugeCount 0x06D d) (dw0 := code)
  | .later => modifyWeir (fun w => { w with acks := w.acks ++ [(c.ctrl, c.cid)] }) d

/-- Object Write after its fetch (R464). -/
def writeCommand (np : List Nat) (c : Cmd) (d : Dev) : Dev :=
  let len := bits c.cdw12 15 0
  if !(zeroBits c.cdw10 31 24 && zeroBits c.cdw12 31 17 && zeroBits c.cdw13 31 8 && c.cdw14 = 0 && c.cdw15 = 0) ∨ 16384 < len then done c stField d
  else
    let op : ObjOp :=
      { who := .inband c.ctrl, write := true, idx := bits c.cdw10 15 0, sub := bits c.cdw10 23 16, ty := c.cdw13, off := c.cdw11
        last := bit c.cdw12 16, data := padTo len c.data }
    let (e, d1) := objectWrite op np d
    endWrite c e d1

/-- An in-band Object Write. -/
def runWrite (np : List Nat) (c : Cmd) (d : Dev) : Dev := pfCmd c (withData c fun d => settlePaths np (writeCommand np c d)) d

/-- A command made an Object Write of a value. -/
def asWrite (i s ty off : Nat) (last : Bool) (data : Bytes) (c : Cmd) : Cmd :=
  { c with opc := 0xC1, cdw10 := i + 65536 * s, cdw11 := off, cdw12 := data.length + (if last then 65536 else 0), cdw13 := ty, cdw14 := 0, cdw15 := 0, data := data }

/-- A write of another path, whose message has passed its own checks. -/
def otherWrite (who : Path) (op : ObjOp) (np : List Nat) (d : Dev) : Dev :=
  match objectWrite { op with who := who } np d with
  | (.abort code, d1) => settlePaths np (countAbort who { op with who := who } code d1)
  | (_, d1) => settlePaths np d1

/-- A value written to an object by whatever way it comes (R462, R474). -/
def writeVia (v : Via) (i s ty off : Nat) (last : Bool) (data : Bytes) (np : List Nat) (d : Dev) : Dev :=
  match v with
  | .inband c => runWrite np (asWrite i s ty off last data c) d
  | .other who now =>
    let d0 := advanceTo now d
    if pathsAwake d0 then otherWrite who { who := who, write := true, idx := i, sub := s, ty := ty, off := off, last := last, data := data } np d0 else d0

/-- A number written to an object of a type and size. -/
def numberVia (v : Via) (i s : Nat) (ty : ObjType) (size x : Nat) (np : List Nat) (d : Dev) : Dev := writeVia v i s ty.code 0 true (leBytes size x) np d

/-- OBJECT_READ: admin C0h (R464). -/
def execObjectRead (c : Cmd) (s : State) : Host.Outcome State Fault Refusal :=
  run (adminCmd (withOp 0xC0 c) (withData (withOp 0xC0 c) (readCommand (withOp 0xC0 c)))) s

/-- OBJECT_WRITE: admin C1h; `noPersist` names the objects whose cells fail their third verify (R464, R476). -/
def execObjectWrite (c : Cmd) (noPersist : List Nat) (s : State) : Host.Outcome State Fault Refusal := run (runWrite noPersist (withOp 0xC1 c)) s

/-! ## Transactions (R464, R478 to R482) -/

/-- Object Transaction after its fetch: dword 0 carries the ID for begin and commit (R464). -/
def txnCommand (c : Cmd) (d : Dev) : Dev :=
  let a := bits c.cdw10 1 0
  if !(zeroBits c.cdw10 31 2 && zeroFrom 11 c) ∨ a = 0 then done c stField d
  else
    let op : ObjOp := { who := .inband c.ctrl, write := true, idx := 0x1100, sub := 1, ty := 2, data := leBytes 1 a }
    let before := d.txn.id
    match objectWrite op [] d with
    | (.abort code, d1) => done c stObjAborted (gaugeCount 0x06D d1) (dw0 := code)
    | (_, d1) => done c stOk d1 (dw0 := if a = 1 then d1.txn.id else if a = 2 then before else 0)

/-- An action on the transaction: C2h, or a write of 0x1100.01 (R478). -/
def txnVia (v : Via) (action : Nat) (d : Dev) : Dev :=
  match v with
  | .inband c =>
    let c1 : Cmd := { c with opc := 0xC2, cdw10 := c.cdw10 / 4 * 4 + action }
    pfCmd c1 (fun d => settlePaths [] (txnCommand c1 d)) d
  | .other _ _ => numberVia v 0x1100 1 .u8 1 action [] d

/-- TXN_BEGIN (R478). -/
def execTxnBegin (v : Via) (s : State) : Host.Outcome State Fault Refusal := run (txnVia v 1) s
/-- TXN_COMMIT (R480). -/
def execTxnCommit (v : Via) (s : State) : Host.Outcome State Fault Refusal := run (txnVia v 2) s
/-- TXN_ROLLBACK (R478). -/
def execTxnRollback (v : Via) (s : State) : Host.Outcome State Fault Refusal := run (txnVia v 3) s

/-- The owner has been idle for the time of 0x1100.04: rolled back, and remembered until it has met TXN_TIMEOUT (R482). -/
def timeoutTxn (d : Dev) : Dev :=
  if d.txn.state = 1 ∧ d.txn.activeAt + objNum d 0x110004 * 1000000 ≤ d.tm then
    let d1 := gaugeCount 0x0FD (rollbackTxn d)
    match d.txn.owner with
    | some p => { d1 with txn := { d1.txn with formers := p :: d1.txn.formers.filter (· ≠ p) } }
    | none => d1
  else d

/-- TXN_TIMEOUT (R482). -/
def execTxnTimeout (now : Nat) (s : State) : Host.Outcome State Fault Refusal := run (fun d => timeoutTxn (advanceTo now d)) s

/-! ## Writes with a row of their own -/

/-- ENTER_OFF: 4 written to 0x3050.03; a part in Doze or Slumber wakes for it (R431, R445). -/
def execEnterOff (v : Via) (s : State) : Host.Outcome State Fault Refusal :=
  run (fun d =>
    match v with
    | .inband _ => numberVia v 0x3050 3 .u8 1 4 [] d
    | .other who now =>
      let d0 := advanceTo now d
      if pathsServed d0 then otherWrite who { who := who, write := true, idx := 0x3050, sub := 3, ty := 2, data := [4] } [] d0 else d0) s
/-- SESSION_LABEL_SEARCH: a label and a controller ID written to 0x6040.01 (R262). -/
def execSessionLabelSearch (v : Via) (value : Nat) (s : State) : Host.Outcome State Fault Refusal := run (numberVia v 0x6040 1 .u64 8 value []) s
/-- PARTITION_LAYOUT_WRITE: a layout word written to 0x6020 for a partition (R249, R262). -/
def execPartitionLayoutWrite (v : Via) (p : Fin 8) (word : Nat) (s : State) : Host.Outcome State Fault Refusal :=
  run (numberVia v 0x6020 (p.val + 1) .u32 4 word []) s
/-- PROFILE_IMAGE_WRITE: an image, or one segment of it, written to 0x51pp.02 (R180, R469). -/
def execProfileImageWrite (v : Via) (p : Fin 64) (off : Nat) (last : Bool) (data : Bytes) (s : State) : Host.Outcome State Fault Refusal :=
  run (writeVia v (0x5100 + p.val) 2 9 off last data []) s
/-- PROFILE_UNDEFINE: 1 written to 0x51pp.03 (R181). -/
def execProfileUndefine (v : Via) (p : Fin 64) (s : State) : Host.Outcome State Fault Refusal := run (numberVia v (0x5100 + p.val) 3 .u8 1 1 []) s
/-- PROGRAM_IMAGE_CHUNK: bytes written to 0x71ss.0B (R330). -/
def execProgramImageChunk (v : Via) (slot : Fin 32) (data : Bytes) (s : State) : Host.Outcome State Fault Refusal :=
  run (writeVia v (0x7100 + slot.val) 0x0B 9 0 true data []) s
/-- PROGRAM_ACTION_LOAD: 1 written to 0x71ss.0A (R330). -/
def execProgramActionLoad (v : Via) (slot : Fin 32) (s : State) : Host.Outcome State Fault Refusal := run (numberVia v (0x7100 + slot.val) 0x0A .u8 1 1 []) s
/-- PROGRAM_ACTION_ACTIVATE: 2 written to 0x71ss.0A (R330). -/
def execProgramActionActivate (v : Via) (slot : Fin 32) (s : State) : Host.Outcome State Fault Refusal := run (numberVia v (0x7100 + slot.val) 0x0A .u8 1 2 []) s
/-- PROGRAM_ACTION_DEACTIVATE: 3 written to 0x71ss.0A (R330). -/
def execProgramActionDeactivate (v : Via) (slot : Fin 32) (s : State) : Host.Outcome State Fault Refusal := run (numberVia v (0x7100 + slot.val) 0x0A .u8 1 3 []) s
/-- PROGRAM_ACTION_UNLOAD: 4 written to 0x71ss.0A (R330). -/
def execProgramActionUnload (v : Via) (slot : Fin 32) (s : State) : Host.Outcome State Fault Refusal := run (numberVia v (0x7100 + slot.val) 0x0A .u8 1 4 []) s
/-- ESTUARY_RETURN_TO_SERVICE: a unit number written to 0x5800.09 (R215, R221). -/
def execEstuaryReturnToService (v : Via) (unit : Nat) (s : State) : Host.Outcome State Fault Refusal := run (numberVia v 0x5800 9 .u8 1 unit []) s
/-- MANAGEMENT_KEY_WRITE: a key value of 44 or 4 bytes written to 0x2010 (R467). -/
def execManagementKeyWrite (v : Via) (key : Fin 4) (value : Bytes) (s : State) : Host.Outcome State Fault Refusal :=
  run (writeVia v 0x2010 (key.val + 1) 9 0 true value []) s
/-- WEIR_FREEZE: 1 written to 0x3100.03 (R455). -/
def execWeirFreeze (v : Via) (s : State) : Host.Outcome State Fault Refusal := run (numberVia v 0x3100 3 .bool 1 1 []) s
/-- WEIR_UNFREEZE: 0 written to 0x3100.03 (R455). -/
def execWeirUnfreeze (v : Via) (s : State) : Host.Outcome State Fault Refusal := run (numberVia v 0x3100 3 .bool 1 0 []) s
/-- WEIR_LAW_ENABLE: 1 written to 0x3100.01 (R452, R453). -/
def execWeirLawEnable (v : Via) (noPersist : List Nat) (s : State) : Host.Outcome State Fault Refusal := run (numberVia v 0x3100 1 .bool 1 1 noPersist) s
/-- WEIR_LAW_DISABLE: 0 written to 0x3100.01 (R448). -/
def execWeirLawDisable (v : Via) (noPersist : List Nat) (s : State) : Host.Outcome State Fault Refusal := run (numberVia v 0x3100 1 .bool 1 0 noPersist) s
/-- DREDGE_START: 1 written to 0xA030.06 (R420). -/
def execDredgeStart (v : Via) (s : State) : Host.Outcome State Fault Refusal := run (numberVia v 0xA030 6 .u8 1 1 []) s
/-- DREDGE_STOP: 2 written to 0xA030.06 (R420). -/
def execDredgeStop (v : Via) (s : State) : Host.Outcome State Fault Refusal := run (numberVia v 0xA030 6 .u8 1 2 []) s
/-- GAUGE_SNAPSHOT: 1 written to 0x9000.01 (R497). -/
def execGaugeSnapshot (v : Via) (s : State) : Host.Outcome State Fault Refusal := run (numberVia v 0x9000 1 .u8 1 1 []) s
/-- GAUGE_RESET_ALL: 2 written to 0x9000.01 (R496, R521). -/
def execGaugeResetAll (v : Via) (s : State) : Host.Outcome State Fault Refusal := run (numberVia v 0x9000 1 .u8 1 2 []) s
/-- GAUGE_COUNTER_WRITE: a count written to 0x9200 (R496). -/
def execGaugeCounterWrite (v : Via) (n : Fin 64) (value : Nat) (s : State) : Host.Outcome State Fault Refusal :=
  run (numberVia v 0x9200 (n.val + 1) .u64 8 value []) s
/-- GAUGE_SOURCE_WRITE: a source written to 0x9100 (R497). -/
def execGaugeSourceWrite (v : Via) (n : Fin 64) (source : Nat) (noPersist : List Nat) (s : State) : Host.Outcome State Fault Refusal :=
  run (numberVia v 0x9100 (n.val + 1) .u16 2 source noPersist) s
/-- PORT_RETRAIN: 1 written to 0x801p.07 (R494, R495). -/
def execPortRetrain (v : Via) (p : Fin 2) (s : State) : Host.Outcome State Fault Refusal := run (numberVia v (0x8010 + p.val) 7 .u8 1 1 []) s

end Sys2Proof.Machine
end

