-- ==== Sys2Proof/Machine/Members.lean ====
section
/-! DEFINITION. Machine/Members.lean: the Confluence ports and the members of a cascade: joining, the master, the placement table, losses and
isolation (R6, R7, R501 to R512, R516, R519). -/
namespace Sys2Proof.Machine

/-! ## Ports (R501 to R503, R519) -/

/-- A Confluence port changed. -/
def modifyCfl (p : Fin 2) (f : CflPort → CflPort) (d : Dev) : Dev := modifyCas (fun c => { c with ports := c.ports.set p (f c.ports[p]) }) d

/-- True while Confluence serves: the part is in service and the island runs (R65, R505). -/
def cflRuns (d : Dev) : Bool := d.power.phase = .ready && islandState d 0x27 = 0

/-- Gauge source `e` of a port (R520). -/
def cflGauge (p : Fin 2) (e : Nat) : Nat := 0x080 + 8 * p.val + e

/-- True while any PCIe link is up. -/
def anyLink (d : Dev) : Bool := linkUp d 0 || linkUp d 1

/-- True when a port's peer may have an ID: port 1 leads to the next higher fitted member, port 0 to the next lower, and the ring closes
between the highest and the lowest (R501). -/
def peerAllowed (d : Dev) (p : Fin 2) (peer : Nat) : Bool :=
  let me := selfId d
  let known := (d.cas.members.map Prod.fst).filter (· ≠ me)
  let between (a b : Nat) : Bool := known.any fun x => decide (a < x ∧ x < b)
  let outside (a b : Nat) : Bool := known.any fun x => decide (x < a ∨ b < x)
  if peer = me ∨ 8 ≤ peer then false
  else if p = 1 then (if me < peer then !between me peer else !outside peer me)
  else (if peer < me then !between peer me else !outside me peer)

/-- Variant code of this part. -/
def selfVariant (d : Dev) : Nat := byVariant d.variant 0 1 2

/-- A join flit sent by a port (R505). -/
def sendJoin (p : Fin 2) (d : Dev) : Dev :=
  emit (.flit p.val 2 0xFF [selfId d, selfVariant d, d.cas.configured, (anyLink d).toNat])
    (modifyCfl p (fun q => { q with txSeq := (q.txSeq + 1) % 4096 }) d)

/-! ## The placement table (R511, R517) -/

/-- Members that have joined, this one included, in rising order (R505). -/
def joined (d : Dev) : List Nat :=
  (joinedOthers d ++ if d.cas.state = 2 ∨ d.cas.state = 3 then [selfId d] else []).foldl (fun acc m => insNat m acc) []

/-- The member of slot k among members in rising order: the k mod M-th (R511). -/
def slotMember (ms : List Nat) (k : Nat) : Nat := ms.getD (k % max 1 ms.length) 0xFF

/-- The table as at formation over members (R511). -/
def freshTable (ms : List Nat) : Vector Nat 64 := Vector.ofFn fun k => slotMember ms k.val

/-- The table with one member's slots passed to the others in the order of R511 (R517). -/
def tableWithout (m : Nat) (ms : List Nat) (t : Vector Nat 64) : Vector Nat 64 :=
  Vector.ofFn fun k => if t[k] = m then slotMember (ms.filter (· ≠ m)) k.val else t[k]

/-- The master's placement update to every other joined member: the table, and each member with its variant and whether its link is up (R502,
R511). -/
def sendPlacement (d : Dev) : Dev :=
  let ms := (d.cas.members.filter fun km => km.2.state = 2 || km.2.state = 3).map fun km => [km.1, km.2.variant, km.2.linkUp.toNat]
  let own := [selfId d, selfVariant d, (anyLink d).toNat]
  (joinedOthers d).foldl (fun d m => sendFlit 9 m (d.cas.table.toList ++ own ++ ms.flatten) d) d

/-- A new table taken: index entries of keys whose slot has passed on go, and this member evicts the objects that it no longer holds (R511,
R517). -/
def takeTable (t : Vector Nat 64) (d : Dev) : Dev :=
  let slotIn (u : Vector Nat 64) (key : Nat) : Nat := u.toList.getD (placementSlot d.cas.mode key) 0xFF
  let moved (key : Nat) : Bool := slotIn d.cas.table key ≠ slotIn t key
  let lost := d.media.store.objs.filter fun ko => cascadeKey d ko.2.key && moved ko.2.key && slotIn d.cas.table ko.2.key = selfId d
  lost.foldl (fun d ko => evictObject ko.2.key ko.1 ko.2 d)
    (modifyCas (fun c => { c with table := t, formed := true, index := c.index.filter fun e => !moved e.1 }) d)

/-! ## Joining (R6, R7, R505, R509) -/

/-- Why the master refuses a join: 0 when it admits it (R505, R509). -/
def joinCause (d : Dev) (id variant mode : Nat) (link : Bool) : Nat :=
  if variantMembers variant ≤ id then 1
  else if memberLimit d ≤ id then 2
  else if (joined d).contains id then 3
  else if mode ≠ d.cas.configured ∨ (d.cas.configured = 2 ∧ link) then 4
  else 0

/-- The detail of a cascade record (R526 class 0x0C). -/
def cascadeDetail (member master cause : Nat) : Bytes := leBytes 1 member ++ leBytes 1 master ++ leBytes 1 cause

/-- A join decided by the master and answered (R505). -/
def decideJoin (p : Fin 2) (id variant mode : Nat) (link : Bool) (d : Dev) : Dev :=
  let cause := joinCause d id variant mode link
  if cause = 0 then
    sendFlit 2 id [selfId d, d.cas.configured, 0]
      (modifyCas (fun c => { c with members := mapSet c.members id { state := 2, variant := variant, linkUp := link, lastFlit := d.tm } }) d)
  else
    sendFlit 2 id [selfId d, d.cas.configured, cause]
      (logError 0x0C 1 2 (cflGauge p 7) (cascadeDetail id (selfId d) cause) (gaugeCount (cflGauge p 7) d) (origin := id) (iface := 5 + p.val))

/-! ## The master (R506, R507, R511, R516) -/

/-- Members that have asked to join and wait for a master. -/
def asking (d : Dev) : List (Nat × Member) := d.cas.members.filter fun km => km.2.state = 1

/-- This member becomes master: it admits those that ask, forms the table if none has been formed, and in widen and deepen mode rebuilds the
index (R506, R507, R511, R516). -/
def becomeMaster (d : Dev) : Dev :=
  let waiting := asking d
  let d1 := modifyCas (fun c =>
    { c with
      state := 3
      mode := c.configured
      master := selfId d
      losing := false
      rebuilding := c.configured ≠ 3
      members := c.members.filter fun km => km.2.state ≠ 1 }) d
  let d2 := waiting.foldl (fun d km => decideJoin 1 km.1 km.2.variant d.cas.configured km.2.linkUp d) d1
  let d3 := if d2.cas.formed then d2 else takeTable (freshTable (joined d2)) d2
  sendPlacement (setNum 0x800009 (d.tm % 2 ^ 64) d3)

/-- The first formation: member 0, joining, becomes master once its PCIe link is up (R506). -/
def tryFormation (d : Dev) : Dev :=
  if cflRuns d && selfId d = 0 && d.cas.state = 1 && d.cas.master = 0xFF && anyLink d then becomeMaster d else d

/-! ## Losses (R508, R511, R516) -/

/-- A forward that fails because its member is gone or overdue (R516): Stream Reads with Content Withdrawn, the others with Namespace Not
Ready. -/
def failForward (t : Nat) (f : Forward) (d : Dev) : Dev :=
  match f.req with
  | some tag => (match mapGet d.reqs tag with
    | some r => finishReq tag (if r.op = 2 then stNotReady else stWithdrawn) d
    | none => endForward t d)
  | none => finish { ctrl := f.cmd.1, sq := f.cmd.2.1, cid := f.cmd.2.2, st := stNotReady } (sendFlit 10 f.member [t] (endForward t d))

/-- A relay that one member has answered or will not answer: it completes once none is awaited (R515, R517). -/
def dropRelay (t m : Nat) (d : Dev) : Dev :=
  match mapGet d.cas.relays t with
  | none => d
  | some r =>
    if !r.left.contains m then d
    else
      let left := r.left.filter (· ≠ m)
      if left.isEmpty then
        finish { ctrl := r.ctrl, sq := 0, cid := r.cid, dw0 := r.dw0, dw1 := r.dw1, cdw0 := r.opc }
          (modifyCas (fun c => { c with relays := mapErase c.relays t }) d)
      else modifyCas (fun c => { c with relays := mapSet c.relays t { r with left := left } }) d

/-- A relay ended with a status (R515, R517). -/
def failRelay (t : Nat) (st : Status) (d : Dev) : Dev :=
  match mapGet d.cas.relays t with
  | none => d
  | some r =>
    finish { ctrl := r.ctrl, sq := 0, cid := r.cid, st := st, cdw0 := r.opc } (modifyCas (fun c => { c with relays := mapErase c.relays t }) d)

/-- A member lost: it keeps its slots; what was forwarded to it fails, what it asked for is abandoned, and key commands no longer wait for it
(R511, R515, R516). An index lookup at a lost master waits for the next one. -/
def loseMember (m : Nat) (d : Dev) : Dev :=
  match mapGet d.cas.members m with
  | none => d
  | some k =>
    if k.state ≠ 2 ∧ k.state ≠ 3 then d
    else
      let wasMaster := d.cas.master = m
      let d1 := logError 0x0C 1 3 0 (cascadeDetail m (if wasMaster then 0xFF else d.cas.master) 0) (modifyCas (fun c =>
        { c with
          members := mapSet c.members m { k with state := 0 }
          master := if wasMaster then 0xFF else c.master
          waiting := c.waiting.filter fun w => w.1 ≠ m }) d) (origin := m)
      let d2 := (d1.cas.forwards.filter fun kf => kf.2.member = m && !(wasMaster && kf.2.kind = 4)).foldl (fun d kf => failForward kf.1 kf.2 d) d1
      let d3 := (reqTags d2 fun r => r.ctrl = 0 && (r.remote.map Prod.fst) = some m).foldl (fun d t => abandonReq t d) d2
      let d4 := d3.cas.relays.foldl (fun d kr => if kr.2.opc = 0xC6 then (if kr.2.left.contains m then failRelay kr.1 stUnreachable d else d)
        else dropRelay kr.1 m d) d3
      if d4.cas.state = 3 then sendPlacement d4 else d4

/-! ## Protocol breaches (R519) -/

/-- A port isolated by its peer's breach, numbered in the order of R519; its traffic takes the other port (R516, R519). -/
def isolate (p : Fin 2) (breach : Nat) (flit : Bytes) (d : Dev) : Dev :=
  let q := d.cas.ports[p]
  if q.state = 3 then d
  else
    let det := leBytes 1 p.val ++ leBytes 1 q.peer ++ leBytes 6 0 ++ padTo 8 flit
    let d1 := logViolation 0x24 breach (cflGauge p 4) q.peer (5 + p.val) det
      (bump (0x801005 + 256 * p.val) (setNum (0x801006 + 256 * p.val) (d.tm % 2 ^ 64) (modifyCfl p (fun q => { q with state := 3 }) d)))
    if d1.cas.ports[0].state = 2 ∨ d1.cas.ports[1].state = 2 then d1 else (joinedOthers d1).foldl (fun d m => loseMember m d) d1

/-- A flit received on a port that is up: its sequence number is taken and its source has been heard (R502, R503, R518).  Nothing is received
on any other port. -/
def withFlit (p : Fin 2) (src now : Nat) (f : Dev → Dev) (d : Dev) : Dev :=
  let d0 := advanceTo now d
  if !cflRuns d0 || d0.cas.ports[p].state ≠ 2 then d0
  else
    f (modifyCas (fun c => { c with members := mapUpdate c.members src fun k => { k with lastFlit := d0.tm } })
      (modifyCfl p (fun q => { q with rxSeq := (q.rxSeq + 1) % 4096, fails := 0 }) d0))

/-- A flit from a member that has joined; a route that names any other member is a breach (R519). -/
def fromMember (p : Fin 2) (src : Nat) (f : Dev → Dev) (d : Dev) : Dev :=
  if (d.cas.state = 2 || d.cas.state = 3) && !(joinedOthers d).contains src then isolate p 3 [] d else f d

end Sys2Proof.Machine
end

