-- ==== Sys2Proof/Machine/HostRows.lean ====
section
/-! DEFINITION. Machine/HostRows.lean: what the PCIe host does to the part besides commands: resets, links, VF Enable, registers, doorbells,
completions of reads, ATS and memory requests (R81, R89 to R96, R107 to R121). -/
namespace Sys2Proof.Machine

/-! ## When the host is heard -/

/-- Controller's port. -/
def portOf (d : Dev) (ctrl : Nat) : Fin 2 :=
  match getCtrl d ctrl with
  | some c => portIdx c.port
  | none => portIdx (if 0x200 ≤ ctrl ∨ ctrl = 2 then 1 else 0)

/-- True once the configuration space has been loaded (R538 step 9, R540). -/
def configLoaded (d : Dev) : Bool :=
  d.power.phase = .firmware || d.power.phase = .dramFailed || d.power.phase = .ready || d.power.phase = .recovery

/-- Traffic of a port: the link leaves L1 and the part wakes; what the traffic asks is done once the Host island runs (R437, R445). -/
def withHost (p : Fin 2) (f : Dev → Dev) (d : Dev) : Dev :=
  if !linkUp d p.val then d
  else
    let d1 := pcieActivity p d
    if hostRuns d1 then f d1 else d1

/-- A configuration write to a function; before the configuration space is loaded it is answered Request Retry Status (R538). -/
def configWrite (ctrl : Nat) (f : Ctrl → Dev → Dev) (d : Dev) : Dev :=
  withHost (portOf d ctrl) (fun d => match getCtrl d ctrl with
    | some c => if configLoaded d then f c d else d
    | none => d) d

/-- A memory request to a function's BARs: Unsupported Request before step 9 of a start and where R120 says so. -/
def memRequest (ctrl : Nat) (f : Dev → Dev) (d : Dev) : Dev :=
  withHost (portOf d ctrl) (fun d => if configLoaded d then withBar ctrl f d else emit (.unsupported ctrl) d) d

/-! ## Resets and links (R57, R89, R117) -/

/-- A port's PERST_n asserted: counted, a wake, the link gone, the reset taken once the Host island runs (R117, R437, R445). -/
def assertPerst (p : Fin 2) (d : Dev) : Dev :=
  if d.host.ports[p].perst then d
  else
    let d1 := dropLink p (gaugeCount 0x06A (latchWake 2 (modifyPort p (fun q => { q with perst := true, training := false }) d)))
    if hostRuns d1 then resetPort p d1 else d1

/-- PERST_ASSERT (R117). -/
def execPerstAssert (port : Fin 2) (now : Nat) (s : State) : Host.Outcome State Fault Refusal := run (fun d => assertPerst port (advanceTo now d)) s

/-- LINK_DOWN: loss of link, hot reset or link disable; `up` tells whether the link trains again (R89, R117). -/
def execLinkDown (port : Fin 2) (now : Nat) (s : State) : Host.Outcome State Fault Refusal :=
  run (fun d =>
    let d0 := advanceTo now d
    let d1 := dropLink port d0
    if hostRuns d1 then resetPort port d1 else d1) s

/-- LINK_UP: a port that may train reports speed code and width, within what it advertises (R86, R89). -/
def execLinkUp (port : Fin 2) (speed width now : Nat) (s : State) : Host.Outcome State Fault Refusal :=
  run (fun d =>
    let d0 := advanceTo now d
    let q := d0.host.ports[port]
    let widest := if objNum d0 0x101002 = 1 then 4 else 8
    if q.training && !q.perst && q.speed = 0 && hostRuns d0 && decide (1 ≤ speed ∧ speed ≤ objNum d0 0x400101) && (width = 1 || width = 2 || width = 4 || width = 8) && decide (width ≤ widest) then
      tryFormation (applyRequest (modifyPort port (fun q => { q with speed := speed, width := width, l1 := false }) d0))
    else d0) s

/-- FLR (R117). -/
def execFlr (ctrl now : Nat) (s : State) : Host.Outcome State Fault Refusal :=
  run (fun d =>
    configWrite ctrl (fun c d =>
      let d1 := gaugeCount 0x068 d
      if c.vf = 0 then resetPf (portIdx c.port) d1 else applyRequest (resetFunction ctrl d1)) (advanceTo now d)) s

/-! ## Virtual functions (R91, R110, R111) -/

/-- True when a VF's limits fit the remainder less what the PFs use (R111). -/
def reservationFits (d : Dev) (c : Ctrl) : Bool :=
  [Pool.sessions, Pool.keySlots, Pool.entries].all fun p => decide (vfLimit d c p + pfUse d p ≤ poolRemainder d p)

/-- One VF of a port processed: its reservation, its VQ and VI, its state (R111). -/
def enableVf (p : Fin 2) (n : Nat) (d : Dev) : Dev :=
  let dvf := if p = 0 then n else n + d.host.ports[0].totalVfs
  let c : Ctrl := { port := p.val, vf := n, dvf := dvf }
  let vq := min 16 d.host.flexVq[p]
  let vi := min 16 d.host.flexVi[p]
  let fits := reservationFits d c && decide (2 ≤ vq ∧ 1 ≤ vi)
  let id := 0x100 * (p.val + 1) + n
  let c1 := if fits then { c with online := true, poolState := 1, vq := vq, vi := vi } else { c with online := false, poolState := 2, vq := 1, vi := 0 }
  { d with host :=
    { d.host with
      ctrls := mapSet d.host.ctrls id c1
      flexVq := if fits then d.host.flexVq.set p (d.host.flexVq[p] - vq) else d.host.flexVq
      flexVi := if fits then d.host.flexVi.set p (d.host.flexVi[p] - vi) else d.host.flexVi } }

/-- VF_ENABLE_SET: VFs 1 to NumVFs in ascending order (R111). -/
def execVfEnableSet (port : Fin 2) (now : Nat) (s : State) : Host.Outcome State Fault Refusal :=
  run (fun d =>
    configWrite (pfOf port) (fun _ d =>
      if d.host.ports[port].vfEnable then d
      else
        (List.range d.host.ports[port].numVfs).foldl (fun d i => enableVf port (i + 1) d) (modifyPort port (fun q => { q with vfEnable := true }) d))
      (advanceTo now d)) s

/-- VF_ENABLE_CLEAR (R111, R117). -/
def execVfEnableClear (port : Fin 2) (now : Nat) (s : State) : Host.Outcome State Fault Refusal :=
  run (fun d => configWrite (pfOf port) (fun _ d => applyRequest (clearVfEnable port d)) (advanceTo now d)) s

/-- NUMVFS_WRITE: accepted while VF Enable is clear and at most TotalVFs (R111). -/
def execNumvfsWrite (port : Fin 2) (value now : Nat) (s : State) : Host.Outcome State Fault Refusal :=
  run (fun d =>
    configWrite (pfOf port) (fun _ d =>
      if !d.host.ports[port].vfEnable && decide (value ≤ d.host.ports[port].totalVfs) then modifyPort port (fun q => { q with numVfs := value }) d else d)
      (advanceTo now d)) s

/-! ## Enable and disable (R111, R117, R120) -/

/-- Bus Master Enable cleared: with commands in flight they are abandoned and CSTS.CFS is set (R118, R120). -/
def clearBusMaster (ctrl : Nat) (c : Ctrl) (d : Dev) : Dev :=
  let d1 := modifyCtrl ctrl (fun c => { c with busMaster := false }) d
  if c.sqs.any fun kq => !kq.2.inflight.isEmpty then
    setCfs ctrl (stopCommands ctrl (hostViolation 0x21 13 0x05A ctrl (nvmeDetail 0 0 0)
      (modifyCtrl ctrl (fun c => { c with sqs := mapValues c.sqs fun _ q => { q with inflight := [], earlier := [], fence := none }, aers := [] }) d1)))
  else d1

/-- BUS_MASTER_ENABLE_CLEAR (R120). -/
def execBusMasterEnableClear (ctrl now : Nat) (s : State) : Host.Outcome State Fault Refusal :=
  run (fun d => configWrite ctrl (clearBusMaster ctrl) (advanceTo now d)) s

/-- CC.EN from 0 to 1: the admin queues of AQA, and CSTS.RDY once the part is in service; an unreserved or offline VF and a part without
DRAM set CSTS.CFS (R111, R538 step 11, R547). -/
def enableController (ctrl : Nat) (d : Dev) : Dev :=
  match getCtrl d ctrl with
  | none => d
  | some c =>
    if c.enabled then d
    else
      let d1 := modifyCtrl ctrl (fun c => { c with enabled := true }) d
      if c.vf ≠ 0 ∧ c.poolState = 2 then hostViolation 0x21 24 0x067 ctrl (nvmeDetail 0 (c.cc ||| 1) 0) (setCfs ctrl d1)
      else if d.power.phase = .dramFailed ∨ !c.online then setCfs ctrl d1
      else
        applyRequest (modifyCtrl ctrl (fun c =>
          { c with
            ready := d.power.phase = .ready || d.power.phase = .recovery
            ps := 0
            lastPs := 0
            sqs := mapSet c.sqs 0 { cq := 0, size := bits c.aqa 11 0 + 1 }
            cqs := mapSet c.cqs 0 { size := bits c.aqa 27 16 + 1 } }) d1)

/-- CC_ENABLE: CC written with EN = 1 (R111). -/
def execCcEnable (ctrl now : Nat) (s : State) : Host.Outcome State Fault Refusal := run (fun d => memRequest ctrl (enableController ctrl) (advanceTo now d)) s

/-- CC.EN from 1 to 0 (R117, R118). -/
def disableController (ctrl : Nat) (d : Dev) : Dev :=
  match getCtrl d ctrl with
  | none => d
  | some c => if c.enabled then resetController ctrl d else d

/-- CC_DISABLE (R117). -/
def execCcDisable (ctrl now : Nat) (s : State) : Host.Outcome State Fault Refusal := run (fun d => memRequest ctrl (disableController ctrl) (advanceTo now d)) s

/-! ## Doorbells (R81, R120) -/

/-- An invalid doorbell write: ignored, an event to an enabled controller, a violation (R120, R530 rows 10 and 11). -/
def badDoorbell (ctrl qid value row info gauge : Nat) (d : Dev) : Dev :=
  let d1 := hostViolation 0x21 row gauge ctrl (leBytes 4 qid ++ leBytes 4 value) d
  match getCtrl d1 ctrl with
  | some c => if c.enabled then deliverNotice ctrl { type := 0, info := info, lid := 1 } d1 else d1
  | none => d1

/-- Entries ahead of an index in a ring. -/
def ringDist (size a b : Nat) : Nat := (b + size - a) % max 1 size

/-- Opcodes of admin commands that the part accepts (R97). -/
def adminOpcodes : List Nat :=
  [0x00, 0x01, 0x02, 0x04, 0x05, 0x06, 0x08, 0x09, 0x0A, 0x0C, 0x0D, 0x15, 0x10, 0x11, 0x14, 0x1C, 0x1D, 0x1E, 0x80, 0x84, 0xC0, 0xC1, 0xC2, 0xC3,
   0xC4, 0xC5, 0xC6, 0xC7]

/-- Opcodes of I/O commands that some kind of namespace accepts (R102, R122; numbers of log entry 12). -/
def ioOpcodes : List Nat :=
  [0x00, 0x01, 0x02, 0x05, 0x06, 0x08, 0x09, 0x0C, 0x0D, 0x0E, 0x10, 0x11, 0x14, 0x15, 0x80, 0x81, 0x82, 0x84, 0x86, 0x88, 0x8A, 0x8C]

/-- True for an admin entry whose selector or action no row names: a SEL above 1, a CA above 3, transaction action 0, and a Cascade Control
action outside 1 to 3 (R103, R464, R517, R542). -/
def strayAction (c : Cmd) : Bool :=
  match c.opc with
  | 0x0D | 0x15 => decide (2 ≤ bits c.cdw10 3 0)
  | 0x10 => decide (4 ≤ bits c.cdw10 5 3)
  | 0xC2 => decide (bits c.cdw10 1 0 = 0)
  | 0xC6 => decide (bits c.cdw10 3 0 = 0 ∨ 3 < bits c.cdw10 3 0)
  | _ => false

/-- A fetched entry that no row stands for: an opcode that the part does not accept, or an opcode it does with an action it does not (R97,
R104, R122, R464, R517). -/
def unknownEntry (c : Cmd) (d : Dev) : Dev :=
  if c.sq = 0 && strayAction c then (if c.opc = 0x10 then recoveryCmd c true (done c stField) d else pfCmd c (done c stField) d)
  else if c.sq = 0 then (if adminOpcodes.contains c.opc then d else fetchCmd c true false (done c stOpcode) d)
  else if ioOpcodes.contains c.opc then d
  else fetchCmd c false false (done c stOpcode) d

/-- A submission queue tail written (R81, R120). -/
def tailDoorbell (ctrl qid value : Nat) (d : Dev) : Dev :=
  match (getCtrl d ctrl).bind fun c => mapGet c.sqs qid with
  | none => badDoorbell ctrl qid value 10 0 0x055 d
  | some q =>
    if q.size ≤ value ∨ ringDist q.size q.head value < ringDist q.size q.head q.tail then badDoorbell ctrl qid value 11 1 0x056 d
    else modifyCtrl ctrl (fun c => { c with sqs := mapSet c.sqs qid { q with tail := value } }) d

/-- A completion queue head written: entries freed, held completions posted (R108, R120). -/
def headDoorbell (ctrl qid value : Nat) (d : Dev) : Dev :=
  match (getCtrl d ctrl).bind fun c => mapGet c.cqs qid with
  | none => badDoorbell ctrl qid value 10 0 0x055 d
  | some q =>
    if q.size ≤ value ∨ ringDist q.size q.head q.tail < ringDist q.size q.head value then badDoorbell ctrl qid value 11 1 0x056 d
    else
      let q1 := { q with head := value, stalled := q.stalled && decide (value = q.head) }
      flushCq ctrl qid q.waiting.length (modifyCtrl ctrl (fun c => { c with cqs := mapSet c.cqs qid q1 }) d)

/-- SQ_TAIL_DOORBELL: `unknown` holds entries at the front of the queue that no row stands for: an unknown opcode completes with Invalid
Command Opcode, an unknown action with Invalid Field in Command (R81, R97, R120, R464, R517). -/
def execSqTailDoorbell (now ctrl qid value : Nat) (unknown : List Cmd) (s : State) : Host.Outcome State Fault Refusal :=
  run (fun d =>
    memRequest ctrl (fun d => unknown.foldl (fun d c => unknownEntry { c with now := now, ctrl := ctrl, sq := qid } d) (tailDoorbell ctrl qid value d))
      (advanceTo now d)) s

/-- CQ_HEAD_DOORBELL (R120). -/
def execCqHeadDoorbell (now ctrl qid value : Nat) (s : State) : Host.Outcome State Fault Refusal :=
  run (fun d => memRequest ctrl (headDoorbell ctrl qid value) (advanceTo now d)) s

/-! ## Completions of the part's reads of host memory (R120) -/

/-- A read that failed: of an entry or a list, CSTS.CFS; of a Put's data, Data Transfer Error (R120, R530 rows 7 and 12). -/
def readFailed (ctrl sq cid : Nat) (list : Bool) (d : Dev) : Dev :=
  match getCtrl d ctrl with
  | none => d
  | some c =>
    if !c.enabled then d
    else if list then setCfs ctrl (hostViolation 0x21 12 0x059 ctrl (nvmeDetail sq 0 0) d)
    else match d.reqs.find? fun kr => kr.2.ctrl = ctrl && kr.2.sq = sq && kr.2.cid = cid && kr.2.step = .arriving with
      | some (t, _) => finishReq t stTransfer d
      | none => d

/-- DMA_READ_COMPLETION: a completion for a read of an entry or a list, or of a command's data; `ok` is false for UR, CA or poison.  What a
good completion brings is the operand of the row it belongs to (R120). -/
def execDmaReadCompletion (now ctrl sq cid : Nat) (list ok : Bool) (s : State) : Host.Outcome State Fault Refusal :=
  run (fun d =>
    let d0 := advanceTo now d
    if ok then d0 else readFailed ctrl sq cid list d0) s

/-- COMPLETION_TIMEOUT (R86, R120). -/
def execCompletionTimeout (now ctrl sq cid : Nat) (list : Bool) (s : State) : Host.Outcome State Fault Refusal :=
  run (fun d => readFailed ctrl sq cid list (advanceTo now d)) s

/-- The detail of a PCIe violation: the TLP header and the function (R526). -/
def pcieDetail (header : Bytes) (ctrl : Nat) : Bytes := padTo 16 header ++ leBytes 4 ctrl

/-- UNEXPECTED_COMPLETION (R120). -/
def execUnexpectedCompletion (now ctrl : Nat) (header : Bytes) (s : State) : Host.Outcome State Fault Refusal :=
  run (fun d =>
    withHost (portOf d ctrl) (fun d => emit (.aer ctrl "Unexpected Completion") (hostViolation 0x20 6 0x057 ctrl (pcieDetail header ctrl) d)) (advanceTo now d)) s

/-- MALFORMED_TLP (R120). -/
def execMalformedTlp (now ctrl : Nat) (header : Bytes) (s : State) : Host.Outcome State Fault Refusal :=
  run (fun d =>
    withHost (portOf d ctrl) (fun d => emit (.aer ctrl "Malformed TLP") (hostViolation 0x20 1 0x050 ctrl (pcieDetail header ctrl) d)) (advanceTo now d)) s

/-- ATS_INVALIDATE: answered at once, or after every write that used the translations has been issued (R93). -/
def execAtsInvalidate (now ctrl tag page : Nat) (s : State) : Host.Outcome State Fault Refusal :=
  run (fun d =>
    configWrite ctrl (fun c d =>
      let p := portIdx c.port
      let d1 := gaugeCount 0x06E d
      if dmaRuns d1 ctrl then modifyPort p (fun q => { q with invalidations := q.invalidations ++ [(tag, ctrl, page)] }) d1
      else emit (.atsComplete p.val tag) d1) (advanceTo now d)) s

/-! ## BARs (R90, R96, R120, R152) -/

/-- CAP (R96): MQES, CQR, TO, CSS and MPSMAX. -/
def capValue : Nat := 0x0FFF + 2 ^ 16 + 60 * 2 ^ 24 + 0x41 * 2 ^ 37 + 4 * 2 ^ 52

/-- CSTS: RDY and CFS. -/
def cstsValue (c : Ctrl) : Nat := (if c.ready then 1 else 0) + (if c.cfs then 2 else 0)

/-- The 64 bytes of NVMe registers from 0 on (R96). -/
def nvmeRegs (c : Ctrl) : Bytes :=
  leBytes 8 capValue ++ leBytes 4 0x00020000 ++ leBytes 4 0 ++ leBytes 4 0 ++ leBytes 4 (c.cc / 2 * 2 + c.enabled.toNat) ++ leBytes 4 0 ++
    leBytes 4 (cstsValue c) ++ leBytes 4 0 ++ leBytes 4 c.aqa ++ leBytes 8 c.asq ++ leBytes 8 c.acq ++ leBytes 8 0

/-- Offsets of BAR0 that hold a register (R96): its bytes, or none. -/
def nvmeRegAt (off : Nat) : Option (Nat × Nat) :=
  ([(0x00, 8), (0x08, 4), (0x0C, 4), (0x10, 4), (0x14, 4), (0x1C, 4), (0x24, 4), (0x28, 8), (0x30, 8)] : List (Nat × Nat)).find? fun r =>
    decide (r.1 ≤ off ∧ off < r.1 + r.2)

/-- MSI-X vectors of a function (R91). -/
def msixSize (c : Ctrl) : Nat := if c.vf = 0 then 2048 else 257

/-- Offset of the PBA (R90). -/
def pbaAt (c : Ctrl) : Nat := if c.vf = 0 then 0x8000 else 0x2000

/-- A dword of the MSI-X table; a vector control that was never written reads 1. -/
def msixDword (c : Ctrl) (i : Nat) : Nat := mapGetD c.msix i (if i % 4 = 3 then 1 else 0)

/-- BAR4 bytes of the table and the PBA, by offset. -/
def msixByte (c : Ctrl) (off : Nat) : Nat :=
  if off < 16 * msixSize c then msixDword c (off / 4) / 256 ^ (off % 4) % 256
  else (List.range 8).foldl (fun a b => a + 2 ^ b * (c.msixPending.contains (8 * (off - pbaAt c) + b)).toNat) 0

/-- True for a BAR4 offset that is defined. -/
def msixDefined (c : Ctrl) (off : Nat) : Bool := decide (off < 16 * msixSize c) || decide (pbaAt c ≤ off ∧ off < pbaAt c + (msixSize c + 63) / 64 * 8)

/-- Size of a BAR (R90); 0 for one that a function lacks. -/
def barSize (c : Ctrl) (bar : Nat) : Nat :=
  if bar = 0 ∨ bar = 2 then 65536 else if bar = 4 then (if c.vf = 0 then 65536 else 16384) else 0

/-- What a read of a BAR answers, and whether it is of an undefined offset or a doorbell (R120, R154). -/
def barValue (c : Ctrl) (bar off len : Nat) : Nat × Bool :=
  if bar = 2 then (leField (windowBytes (mapGetD c.windows (off / 64) {})) (off % 64) len, false)
  else if bar = 0 then
    (match nvmeRegAt off with
      | some _ => (leField (nvmeRegs c) off len, false)
      | none => (0, true))
  else if msixDefined c off then ((List.range len).foldl (fun a i => a + 256 ^ i * msixByte c (off + i)) 0, false)
  else (0, true)

/-- BAR_READ: a host read of `len` bytes (R120, R154). -/
def execBarRead (now ctrl bar off len : Nat) (s : State) : Host.Outcome State Fault Refusal :=
  run (fun d =>
    memRequest ctrl (fun d =>
      match getCtrl d ctrl with
      | none => d
      | some c =>
        if barSize c bar < off + len then emit (.unsupported ctrl) (hostViolation 0x20 3 0x052 ctrl [] d)
        else
          let (v, odd) := barValue c bar off len
          emit (.barData ctrl off v) (if odd then hostViolation 0x20 4 0x053 ctrl [] d else d)) (advanceTo now d)) s

/-- A write that is ignored: read-only, undefined or too narrow (R120, R530 row 5). -/
def ignoredWrite (ctrl : Nat) (d : Dev) : Dev := hostViolation 0x20 5 0x054 ctrl [] d

/-- The messages of vectors that are pending and no longer masked. -/
def sendPending (ctrl : Nat) (d : Dev) : Dev :=
  match getCtrl d ctrl with
  | none => d
  | some c =>
    let (held, free) := c.msixPending.partition fun v => bit (msixDword c (4 * v + 3)) 0
    free.foldl (fun d v => emit (.msix ctrl v) d) (modifyCtrl ctrl (fun c => { c with msixPending := held }) d)

/-- Whole dwords written to the MSI-X table from a dword on; bit 0 alone of a vector control is kept. -/
def putMsix (i : Nat) (bs : Bytes) : Nat → Ctrl → Ctrl
  | 0, c => c
  | n + 1, c =>
    let v := leField bs 0 4
    putMsix (i + 1) (bs.drop 4) n { c with msix := mapSet c.msix i (if i % 4 = 3 then v % 2 else v) }

/-- A write to an NVMe register (R96, R117, R120). -/
def nvmeWrite (ctrl off : Nat) (bs : Bytes) (d : Dev) : Dev :=
  let v := leNat bs
  if off = 0x14 ∧ bs.length = 4 then
    let d1 := modifyCtrl ctrl (fun c => { c with cc := v }) d
    if bit v 0 then enableController ctrl d1 else disableController ctrl d1
  else if off = 0x24 ∧ bs.length = 4 then modifyCtrl ctrl (fun c => { c with aqa := v }) d
  else if off = 0x28 ∧ bs.length = 8 then modifyCtrl ctrl (fun c => { c with asq := v / 4096 * 4096 }) d
  else if off = 0x30 ∧ bs.length = 8 then modifyCtrl ctrl (fun c => { c with acq := v / 4096 * 4096 }) d
  else if (off = 0x0C ∨ off = 0x10) ∧ bs.length = 4 then d
  else if 0x1000 ≤ off ∧ bs.length = 4 ∧ off % 4 = 0 then
    let k := (off - 0x1000) / 4
    if k % 2 = 0 then tailDoorbell ctrl (k / 2) (v % 65536) d else headDoorbell ctrl (k / 2) (v % 65536) d
  else ignoredWrite ctrl d

/-- A memory write to a BAR (R120, R153, R155). -/
def barWrite (ctrl bar off : Nat) (bs : Bytes) (poisoned : Bool) (d : Dev) : Dev :=
  match getCtrl d ctrl with
  | none => d
  | some c =>
    if barSize c bar < off + bs.length then emit (.unsupported ctrl) (hostViolation 0x20 3 0x052 ctrl [] d)
    else if poisoned then emit (.aer ctrl "Poisoned TLP Received") (hostViolation 0x20 2 0x051 ctrl [] d)
    else if bar = 2 then windowWrite ctrl (off / 64) (off % 64) (bs.take (64 - off % 64)) d
    else if bar = 0 then nvmeWrite ctrl off bs d
    else if off + bs.length ≤ 16 * msixSize c ∧ off % 4 = 0 ∧ bs.length % 4 = 0 then
      sendPending ctrl (modifyCtrl ctrl (putMsix (off / 4) bs (bs.length / 4)) d)
    else ignoredWrite ctrl d

/-- LOOKUP_WINDOW_KEY_WRITE: a write whose bytes reach KEY of a window (R152, R153). -/
def execLookupWindowKeyWrite (now ctrl w : Nat) (off : Fin 16) (bytes : Bytes) (s : State) : Host.Outcome State Fault Refusal :=
  run (fun d => memRequest ctrl (windowWrite ctrl (w % 1024) off.val (bytes.take (64 - off.val))) (advanceTo now d)) s

/-- A configuration bit written (R92, R94, R120, R428, R439). -/
def configBit (ctrl : Nat) (field : ConfigField) (on : Bool) (c : Ctrl) (d : Dev) : Dev :=
  match field with
  | .memSpace => modifyCtrl ctrl (fun c => { c with memSpace := on }) d
  | .busMaster => if on then modifyCtrl ctrl (fun c => { c with busMaster := true }) d else clearBusMaster ctrl c d
  | .ats => modifyCtrl ctrl (fun c => { c with ats := on }) d
  | .pri => modifyCtrl ctrl (fun c => { c with pri := on, priStopped := c.priStopped && !(on && !c.pri) }) d
  | .d3hot => applyRequest (modifyCtrl ctrl (fun c => { c with pm := if c.vf = 0 then c.pm / 2 * 2 + on.toNat else c.pm }) d)
  | .pmeEn => modifyCtrl ctrl (fun c => { c with pm := if c.vf = 0 then c.pm % 2 + 2 * on.toNat else c.pm }) d

/-- REGISTER_WRITE (R461, R483, and the rules of the register). -/
def execRegisterWrite (now : Nat) (w : RegWrite) (s : State) : Host.Outcome State Fault Refusal :=
  run (fun d =>
    let d0 := advanceTo now d
    match w with
    | .object v i sub ty off last data np => writeVia v i sub ty off last data np d0
    | .bar ctrl bar off data poisoned => memRequest ctrl (barWrite ctrl bar off data poisoned) d0
    | .config ctrl field on => configWrite ctrl (configBit ctrl field on) d0
    | .mctpEid old =>
      if d0.txn.state = 1 ∧ d0.txn.owner = some (.mctp old) then gaugeCount 0x07E (rollbackTxn d0) else d0) s

end Sys2Proof.Machine
end

