-- ==== Sys2Proof/Machine/Admin.lean ====
section
/-! DEFINITION. Machine/Admin.lean: admin commands on queues, commands, features, events, secondary controllers, self-test and NVMe-MI (R97,
R98, R101, R107, R109 to R111, R120, R428, R534); the dwords are laid out as in the NVMe specifications (log entry 12). -/
namespace Sys2Proof.Machine

/-! ## I/O queues (R97, R98, R107) -/

/-- Key of a feature's value that belongs to a namespace or a vector. -/
def featKey (fid n : Nat) : Nat := fid + 2 ^ 32 * n

/-- A feature's value; a feature that has not been set since reset reads 0. -/
def feature (c : Ctrl) (key : Nat) : Nat := mapGetD c.features key 0

/-- A feature's value set. -/
def setFeature (id key v : Nat) (d : Dev) : Dev := modifyCtrl id (fun c => { c with features := mapSet c.features key v }) d

/-- Submission (`sub`) or completion queues that Number of Queues has granted to a controller; none before it has (R98, R107). -/
def granted (c : Ctrl) (sub : Bool) : Nat :=
  match mapGet c.features 0x07 with
  | none => 0
  | some v => (if sub then v % 65536 else v / 65536 % 65536) + 1

/-- A queue identifier and size that a create may use: the status where not (R107).  `used` says that the identifier names a queue. -/
def queueStatus (qid qsize limit : Nat) (used : Bool) : Option Status :=
  if qid = 0 ∨ limit < qid ∨ used then some stQid else if qsize = 0 ∨ 0xFFF < qsize then some stQsize else none

/-- Create I/O Submission Queue after its fetch (R107). -/
def createSq (c : Cmd) (k : Ctrl) (d : Dev) : Dev :=
  let qid := bits c.cdw10 15 0
  let size := bits c.cdw10 31 16
  let cq := bits c.cdw11 31 16
  match queueStatus qid size (granted k true) (mapGet k.sqs qid).isSome with
  | some st => done c st d
  | none =>
    if cq = 0 ∨ (mapGet k.cqs cq).isNone then done c stCqInvalid d
    else if !bit c.cdw11 0 then done c stField d
    else
      done c stOk (modifyCtrl c.ctrl (fun k => { k with ioCreated := true, sqs := mapSet k.sqs qid { cq := cq, size := size + 1 } }) d)

/-- Create I/O Completion Queue after its fetch (R107). -/
def createCq (c : Cmd) (k : Ctrl) (d : Dev) : Dev :=
  let qid := bits c.cdw10 15 0
  let size := bits c.cdw10 31 16
  let iv := bits c.cdw11 31 16
  match queueStatus qid size (granted k false) (mapGet k.cqs qid).isSome with
  | some st => done c st d
  | none =>
    if k.vi ≤ iv then done c stVector d
    else if !bit c.cdw11 0 then done c stField d
    else
      done c stOk (modifyCtrl c.ctrl (fun k =>
        { k with ioCreated := true, cqs := mapSet k.cqs qid { size := size + 1, vector := iv, ien := bit c.cdw11 1 } }) d)

/-- Command Aborted due to SQ Deletion. -/
def stSqDeleted : Status := (0, 0x08)

/-- The commands of a submission queue that are in flight ended, as its deletion ends them. -/
def endQueue (id sq : Nat) (d : Dev) : Dev :=
  let d1 := (reqTags d fun r => r.ctrl = id && r.sq = sq).foldl (fun d t => finishReq t stSqDeleted d) d
  let d2 := (d1.cas.forwards.filter fun kf => decide (2 ≤ kf.2.kind) && kf.2.cmd.1 = id && kf.2.cmd.2.1 = sq).foldl (fun d kf =>
    finish { ctrl := id, sq := sq, cid := kf.2.cmd.2.2, st := stSqDeleted } (sendFlit 10 kf.2.member [kf.1] (endForward kf.1 d))) d1
  (d2.rt.calls.filter fun i => i.kind = 2 && i.owner.1 = id && i.owner.2.1 = sq).foldl (fun d i =>
    finish { ctrl := id, sq := sq, cid := i.owner.2.2, st := stSqDeleted } (unbindVersion i.slot i.version (dropCall i d))) d2

/-- An admin command with its controller. -/
def ctrlCmd (c : Cmd) (f : Ctrl → Dev → Dev) (d : Dev) : Dev :=
  adminCmd c (fun d => match getCtrl d c.ctrl with
    | some k => f k d
    | none => d) d

/-- CREATE_IO_SUBMISSION_QUEUE: admin 01h (R107). -/
def execCreateIoSubmissionQueue (c : Cmd) (s : State) : Host.Outcome State Fault Refusal :=
  run (ctrlCmd (withOp 0x01 c) (createSq (withOp 0x01 c))) s

/-- DELETE_IO_SUBMISSION_QUEUE: admin 00h (R97). -/
def execDeleteIoSubmissionQueue (c : Cmd) (s : State) : Host.Outcome State Fault Refusal :=
  run (ctrlCmd (withOp 0x00 c) (fun k d =>
    let c := withOp 0x00 c
    let qid := bits c.cdw10 15 0
    if qid = 0 ∨ (mapGet k.sqs qid).isNone then done c stQid d
    else done c stOk (modifyCtrl c.ctrl (fun k => { k with sqs := mapErase k.sqs qid }) (endQueue c.ctrl qid d)))) s

/-- CREATE_IO_COMPLETION_QUEUE: admin 05h (R107). -/
def execCreateIoCompletionQueue (c : Cmd) (s : State) : Host.Outcome State Fault Refusal :=
  run (ctrlCmd (withOp 0x05 c) (createCq (withOp 0x05 c))) s

/-- DELETE_IO_COMPLETION_QUEUE: admin 04h; not while a submission queue uses it (R97). -/
def execDeleteIoCompletionQueue (c : Cmd) (s : State) : Host.Outcome State Fault Refusal :=
  run (ctrlCmd (withOp 0x04 c) (fun k d =>
    let c := withOp 0x04 c
    let qid := bits c.cdw10 15 0
    if qid = 0 ∨ (mapGet k.cqs qid).isNone then done c stQid d
    else if k.sqs.any fun q => q.1 ≠ 0 && q.2.cq = qid then done c stQueueDeletion d
    else done c stOk (modifyCtrl c.ctrl (fun k => { k with cqs := mapErase k.cqs qid }) d))) s

/-! ## Abort (R101, R120) -/

/-- True for a request that an Abort stops: a Stream Read before step 9, or a Put whose data has not all arrived (R101). -/
def abortable (r : Req) : Bool :=
  if r.op = 2 then r.step = .arriving && decide (r.putUnits.length < unitCount r.len) else r.step = .path

/-- The request of a command. -/
def reqOf (d : Dev) (ctrl sq cid : Nat) : Option (Nat × Req) :=
  d.reqs.find? fun kr => kr.2.ctrl = ctrl && kr.2.sq = sq && kr.2.cid = cid

/-- Abort of a Fence in flight: it completes with Command Abort Requested and fetching resumes; a new span begins (R148, R151). -/
def abortFence (ctrl sq cid : Nat) (d : Dev) : Dev :=
  modifyCtrl ctrl
    (fun k => { k with sqs := mapUpdate k.sqs sq fun q => { q with spanFails := 0, spanFirst := 0, earlier := q.inflight } })
    (finish { ctrl := ctrl, sq := sq, cid := cid, st := stAborted, cdw0 := 0x8C }
      (modifyCtrl ctrl (fun k => { k with sqs := mapUpdate k.sqs sq fun q => { q with fence := none } }) d))

/-- An Abort by the state its target has reached; `queued` says that the target is an entry not yet fetched (R101). -/
def abortTarget (c : Cmd) (k : Ctrl) (queued : Bool) (d : Dev) : Dev :=
  let sq := bits c.cdw10 15 0
  let cid := bits c.cdw10 31 16
  match mapGet k.sqs sq with
  | none => done c stOk d (dw0 := 1)
  | some q =>
    if q.fence.any (fun f => f.1 = cid) then done c stOk (abortFence c.ctrl sq cid d)
    else if q.inflight.contains cid ∧ !(sq = c.sq ∧ cid = c.cid) then
      (match reqOf d c.ctrl sq cid with
        | some (t, r) => if abortable r then done c stOk (finishReq t stAborted d) else done c stOk d (dw0 := 1)
        | none => done c stOk d (dw0 := 1))
    else if queued ∧ q.head ≠ q.tail then
      done c stOk (modifyCtrl c.ctrl (fun k => { k with sqs := mapUpdate k.sqs sq fun q => { q with doomed := q.doomed ++ [cid] } }) d)
    else done c stOk d (dw0 := 1)

/-- ABORT: admin 08h; `outstanding` is how many earlier Aborts of the controller have not completed, at most 8 (R101, R120). -/
def execAbort (c : Cmd) (queued : Bool) (outstanding : Nat) (s : State) : Host.Outcome State Fault Refusal :=
  run (ctrlCmd (withOp 0x08 c) (fun k d =>
    if 8 ≤ outstanding then done (withOp 0x08 c) stAbortLimit d else abortTarget (withOp 0x08 c) k queued d)) s

/-! ## Features (R98) -/

/-- Feature identifiers that the part supports (R98). -/
def featureIds : List Nat := [0x01, 0x02, 0x04, 0x05, 0x07, 0x08, 0x09, 0x0A, 0x0B, 0x0C, 0x0E, 0x81, 0x83]

/-- Timestamps are counted modulo this many nanoseconds. -/
def stampSpan : Nat := 2 ^ 80

/-- Block namespaces that a feature names: one, or all that are attached. -/
def featureNss (d : Dev) (c : Cmd) : List Nat :=
  if c.nsid = 0xFFFFFFFF then (d.media.nss.filter fun kn => kn.2.kind = 0 && kn.2.attached.contains c.ctrl).map Prod.fst
  else match attachedNs d c.ctrl c.nsid with
    | some n => if n.kind = 0 then [c.nsid] else []
    | none => []

/-- A feature of block namespaces set (R98). -/
def setNsFeature (c : Cmd) (f : Nat → Dev → Dev) (d : Dev) : Dev :=
  match featureNss d c with
  | [] => done c (if (attachedNs d c.ctrl c.nsid).isSome then stField else stNamespace) d
  | l => done c stOk (l.foldl (fun d n => f n d) d)

/-- Number of Queues: the lesser of the request and the function's I/O queue pairs (R98, R107). -/
def grantQueues (c : Cmd) (k : Ctrl) (d : Dev) : Dev :=
  let ask (n : Nat) : Nat := min n (k.vq - 2)
  let v := ask (bits c.cdw11 15 0) + 65536 * ask (bits c.cdw11 31 16)
  if bits c.cdw11 15 0 = 65535 ∨ bits c.cdw11 31 16 = 65535 then done c stField d
  else if k.ioCreated then done c stSequence d
  else done c stOk (setFeature c.ctrl 0x07 v d) (dw0 := v)

/-- Key under which a temperature threshold is held: over or under, of the composite temperature (R98). -/
def threshKey (c : Cmd) : Nat := featKey 0x04 (bits c.cdw11 21 20)

/-- Set Features after its fetch (R98, R107, R428). -/
def setFeatures (c : Cmd) (k : Ctrl) (d : Dev) : Dev :=
  let fid := bits c.cdw10 7 0
  let keep (key v : Nat) (d : Dev) : Dev := done c stOk (setFeature c.ctrl key v d)
  if bits c.cdw10 31 8 ≠ 0 then done c stField d
  else match fid with
    | 0x01 => keep 0x01 (c.cdw11 % 8) d
    | 0x02 => if 4 < bits c.cdw11 4 0 then done c stField d else done c stOk (setPs c.ctrl (bits c.cdw11 4 0) d)
    | 0x04 => if bits c.cdw11 19 16 ≠ 0 ∨ 1 < bits c.cdw11 21 20 then done c stField d else keep (threshKey c) (c.cdw11 % 65536) d
    | 0x05 => setNsFeature c (fun n d => setFeature c.ctrl (featKey 0x05 n) (c.cdw11 % 2 ^ 17) d) d
    | 0x07 => grantQueues c k d
    | 0x08 => keep 0x08 (c.cdw11 % 65536) d
    | 0x09 => if k.vi ≤ c.cdw11 % 65536 then done c stField d else keep (featKey 0x09 (c.cdw11 % 65536)) (bits c.cdw11 16 16) d
    | 0x0A => keep 0x0A (c.cdw11 % 2) d
    | 0x0B => keep 0x0B c.cdw11 d
    | 0x0C => withData c (fun d => keep 0x0C (c.cdw11 % 2) (setFeature c.ctrl 0x1000C (leNat (padTo 256 c.data)) d)) d
    | 0x0E => withData c (fun d =>
        keep 0x0E (1 + (leField c.data 0 6 * 1000000 + stampSpan - d.tm % stampSpan) % stampSpan) d) d
    | 0x81 => setNsFeature c (fun n d => setFeature c.ctrl (featKey 0x81 n) (c.cdw11 % 16) d) d
    | 0x83 => setNsFeature c (fun n d =>
        modifyMedia (fun m => { m with nss := mapUpdate m.nss n fun x => { x with rsv := { x.rsv with ptpl := bit c.cdw11 0 } } }) d) d
    | _ => done c stField d

/-- SET_FEATURES: admin 09h (R98, R428). -/
def execSetFeatures (c : Cmd) (s : State) : Host.Outcome State Fault Refusal :=
  run (ctrlCmd (withOp 0x09 c) (setFeatures (withOp 0x09 c))) s

/-- The 8 bytes of the Timestamp feature: milliseconds, and its origin in byte 6 (R98). -/
def timestampBytes (tm v : Nat) : Bytes :=
  if v = 0 then leBytes 6 (tm / 1000000) ++ [0, 0] else leBytes 6 ((v - 1 + tm) % stampSpan / 1000000) ++ [2, 0]

/-- A feature of a block namespace read (R98). -/
def getNsFeature (c : Cmd) (f : Nat → Nat) (d : Dev) : Dev :=
  match attachedNs d c.ctrl c.nsid with
  | none => done c stNamespace d
  | some n => if n.kind = 0 then done c stOk d (dw0 := f c.nsid) else done c stField d

/-- True when a namespace's reservations persist through power loss. -/
def ptplOf (d : Dev) (nsid : Nat) : Bool :=
  match mapGet d.media.nss nsid with
  | some n => n.rsv.ptpl
  | none => false

/-- Get Features after its fetch (R98). -/
def getFeatures (c : Cmd) (k : Ctrl) (d : Dev) : Dev :=
  let fid := bits c.cdw10 7 0
  let answer (v : Nat) : Dev := done c stOk d (dw0 := v)
  if bits c.cdw10 31 8 ≠ 0 then done c stField d
  else match fid with
    | 0x02 => answer k.ps
    | 0x04 => if bits c.cdw11 19 16 ≠ 0 ∨ 1 < bits c.cdw11 21 20 then done c stField d else answer (feature k (threshKey c))
    | 0x05 => getNsFeature c (fun n => feature k (featKey 0x05 n)) d
    | 0x09 => if k.vi ≤ c.cdw11 % 65536 then done c stField d
        else answer (c.cdw11 % 65536 + 65536 * feature k (featKey 0x09 (c.cdw11 % 65536)))
    | 0x0C => withData c (fun d => done c stOk (sendData c (leBytes 256 (feature k 0x1000C)) d) (dw0 := feature k 0x0C)) d
    | 0x0E => withData c (fun d => done c stOk (sendData c (timestampBytes d.tm (feature k 0x0E)) d)) d
    | 0x81 => getNsFeature c (fun n => feature k (featKey 0x81 n)) d
    | 0x83 => getNsFeature c (fun n => if ptplOf d n then 1 else 0) d
    | _ => if featureIds.contains fid then answer (feature k fid) else done c stField d

/-- GET_FEATURES: admin 0Ah (R98). -/
def execGetFeatures (c : Cmd) (s : State) : Host.Outcome State Fault Refusal :=
  run (ctrlCmd (withOp 0x0A c) (getFeatures (withOp 0x0A c))) s

/-! ## Asynchronous events (R120, R534) -/

/-- An Asynchronous Event Request after its fetch: at most 16 stand, and a held notice completes it at once (R100, R120, R534). -/
def postAer (c : Cmd) (k : Ctrl) (d : Dev) : Dev :=
  if 16 ≤ k.aers.length then done c stAerLimit d
  else match k.held with
    | [] => modifyCtrl c.ctrl (fun k => { k with aers := k.aers ++ [c.cid] }) d
    | n :: rest => done c stOk (modifyCtrl c.ctrl (fun k => { k with held := rest }) d) (dw0 := noticeDword n)

/-- ASYNCHRONOUS_EVENT_REQUEST: admin 0Ch (R534). -/
def execAsynchronousEventRequest (c : Cmd) (s : State) : Host.Outcome State Fault Refusal :=
  run (ctrlCmd (withOp 0x0C c) (postAer (withOp 0x0C c))) s

/-! ## Self-test, secondary controllers, NVMe-MI (R97, R109 to R111) -/

/-- Device Self-test after its fetch: 1 short, 2 extended, Fh abort, Eh vendor specific; the test runs to its end with the result given. -/
def selfTest (c : Cmd) (result : Nat) (d : Dev) : Dev :=
  let stc := bits c.cdw10 3 0
  if stc = 15 then done c stOk d
  else if stc = 1 ∨ stc = 2 then
    done c stOk { d with fw := { d.fw with selfTests := ((stc, result % 16) :: d.fw.selfTests).take 20 } }
  else done c stField d

/-- DEVICE_SELF_TEST: admin 14h; `result` is what the test finds, 0 when it passes (R97). -/
def execDeviceSelfTest (c : Cmd) (result : Nat) (s : State) : Host.Outcome State Fault Refusal :=
  run (pfCmd (withOp 0x14 c) (selfTest (withOp 0x14 c) result)) s

/-- VQ and VI of a secondary controller given back to its port (R110). -/
def returnFlexible (id : Nat) (v : Ctrl) (d : Dev) : Dev :=
  let p := portIdx v.port
  let d1 := modifyCtrl id (fun v => { v with vq := 0, vi := 0 }) d
  { d1 with host := { d1.host with flexVq := d1.host.flexVq.set p (d1.host.flexVq[p] + v.vq), flexVi := d1.host.flexVi.set p (d1.host.flexVi[p] + v.vi) } }

/-- A secondary controller goes Offline: it is reset and its resources return (R109, R110). -/
def secondaryOffline (c : Cmd) (id : Nat) (v : Ctrl) (d : Dev) : Dev :=
  if !v.online then done c stOk d
  else
    let d1 := modifyCtrl id (fun v => { v with online := false }) (resetController id d)
    done c stOk (if v.poolState = 1 then returnFlexible id v d1 else d1)

/-- VQ (`vi` false) or VI assigned to an Offline secondary controller from its port's flexible resources (R109, R110). -/
def secondaryAssign (c : Cmd) (id : Nat) (v : Ctrl) (vi : Bool) (n : Nat) (d : Dev) : Dev :=
  let p := portIdx v.port
  let have_ := if vi then d.host.flexVi[p] + v.vi else d.host.flexVq[p] + v.vq
  if v.online then done c stSecondary d
  else if v.poolState ≠ 1 ∨ have_ < n then done c stResources d
  else
    let d1 := modifyCtrl id (fun v => if vi then { v with vi := n } else { v with vq := n }) d
    done c stOk
      { d1 with host :=
        { d1.host with
          flexVi := if vi then d1.host.flexVi.set p (have_ - n) else d1.host.flexVi
          flexVq := if vi then d1.host.flexVq else d1.host.flexVq.set p (have_ - n) } } (dw0 := n)

/-- Virtualization Management after its fetch: actions 7 offline, 8 assign, 9 online; a primary controller has no flexible resources of its
own (R109 to R111). -/
def virtualization (c : Cmd) (d : Dev) : Dev :=
  let act := bits c.cdw10 3 0
  let rt := bits c.cdw10 10 8
  let id := bits c.cdw10 31 16
  let port := (portOf d c.ctrl).val
  match getCtrl d id with
  | none => done c stCtrlId d
  | some v =>
    if act ≠ 7 ∧ act ≠ 8 ∧ act ≠ 9 then done c stField d
    else if v.vf = 0 ∨ v.port ≠ port then done c stCtrlId d
    else if act = 7 then secondaryOffline c id v d
    else if act = 8 then (if 1 < rt then done c stResourceId d else secondaryAssign c id v (rt = 1) (bits c.cdw11 15 0) d)
    else if v.online then done c stOk d
    else if v.poolState ≠ 1 ∨ v.vq < 2 ∨ v.vi = 0 then done c stSecondary d
    else done c stOk (modifyCtrl id (fun v => { v with online := true }) d)

/-- VIRTUALIZATION_MANAGEMENT: admin 1Ch (R109). -/
def execVirtualizationManagement (c : Cmd) (s : State) : Host.Outcome State Fault Refusal :=
  run (pfCmd (withOp 0x1C c) (virtualization (withOp 0x1C c))) s

/-- NVME_MI_SEND: admin 1Dh; what the request's NVMe-MI command answers is left open, so the response is free bytes, `len` of them (R97). -/
def execNvmeMiSend (c : Cmd) (len : Nat) (s : State) : Host.Outcome State Fault Refusal :=
  run (pfCmd (withOp 0x1D c) (withData (withOp 0x1D c) (fun d =>
    let (bs, d1) := drawBytes len d
    let (w, d2) := drawBytes 4 d1
    done (withOp 0x1D c) stOk (modifyCtrl c.ctrl (fun k => { k with miResponse := bs }) d2) (dw0 := leNat w)))) s

/-- NVME_MI_RECEIVE: admin 1Eh returns the response that the last NVMe-MI Send left (R97). -/
def execNvmeMiReceive (c : Cmd) (s : State) : Host.Outcome State Fault Refusal :=
  run (pfCmd (withOp 0x1E c) (withData (withOp 0x1E c) (fun d =>
    let (w, d1) := drawBytes 4 d
    match getCtrl d1 c.ctrl with
    | some k => done (withOp 0x1E c) stOk (sendData (withOp 0x1E c) k.miResponse d1) (dw0 := leNat w)
    | none => d1))) s

end Sys2Proof.Machine
end

