-- ==== Sys2Proof/Machine/Cascade.lean ====
section
/-! DEFINITION. Machine/Cascade.lean: the commands and events of a cascade: Cascade Control and Status, joining, heartbeats, the election, forwards
and their answers, the index, and the Confluence ports (R501 to R519).  How the fields of R513 to R515 are laid out in flits is the model's own (log
entry 61). -/
namespace Sys2Proof.Machine

/-! ## Cascade Control and Cascade Status (R517, R518) -/

/-- A Cascade Control command after its fetch: its reserved fields, its action, and the master (R517). -/
def cascadeControl (c : Cmd) (action : Nat) (f : Dev → Dev) (d : Dev) : Dev :=
  if c.cdw10 ≠ action ∨ 8 ≤ c.cdw11 ∨ !zeroFrom 12 c then done c stField d
  else if d.cas.state ≠ 3 then done c stNotMaster d
  else f d

/-- Action 1: a member removed; its slots pass to the others, and its objects answer Object Absent (R511, R517). -/
def removeMember (c : Cmd) (d : Dev) : Dev :=
  let m := c.cdw11
  if !(joined d).contains m then done c stUnreachable d
  else
    let d1 := takeTable (tableWithout m (joined d) d.cas.table) d
    let d2 := modifyCas (fun x =>
      { x with
        index := x.index.filter fun e => e.2.1 ≠ m
        members := if m = selfId d then x.members else mapUpdate x.members m fun k => { k with state := 0 } }) d1
    done c stOk (sendPlacement (if m = selfId d then d2 else sendFlit 9 m (d2.cas.table.toList) d2))

/-- CASCADE_REMOVE_MEMBER: admin C6h, action 1 (R517). -/
def execCascadeRemoveMember (c : Cmd) (s : State) : Host.Outcome State Fault Refusal :=
  run (pfCmd (withOp 0xC6 c) (cascadeControl (withOp 0xC6 c) 1 (removeMember (withOp 0xC6 c)))) s

/-- CASCADE_REBALANCE: admin C6h, action 2: the slots are redistributed over the joined members as at formation (R517). -/
def execCascadeRebalance (c : Cmd) (s : State) : Host.Outcome State Fault Refusal :=
  run (pfCmd (withOp 0xC6 c) (cascadeControl (withOp 0xC6 c) 2 (fun d =>
    done (withOp 0xC6 c) stOk (sendPlacement (takeTable (freshTable (joined d)) d))))) s

/-- Action 3: KEK 1 of a member loaded from the host's buffer, here or through a key relay flit (R203, R517). -/
def loadMemberKek (c : Cmd) (d : Dev) : Dev :=
  let m := c.cdw11
  let b := padTo 128 c.data
  if !(joined d).contains m then done c stUnreachable d
  else if !loadFieldsOk b then done c stField d
  else if m = selfId d then loadKek c.ctrl c.cid 0xC6 b d
  else
    let t := d.cas.nextTag
    sendFlit 8 m (t :: 0xC4 :: 2 ^ 31 :: b.map (·.toNat)) (modifyCas (fun x =>
      { x with
        nextTag := t + 1
        relays := mapSet x.relays t { opc := 0xC6, ctrl := c.ctrl, cid := c.cid, left := [m], since := d.tm } }) d)

/-- CASCADE_LOAD_KEK1: admin C6h, action 3 (R517). -/
def execCascadeLoadKek1 (c : Cmd) (s : State) : Host.Outcome State Fault Refusal :=
  run (pfCmd (withOp 0xC6 c) (cascadeControl (withOp 0xC6 c) 3 (withData (withOp 0xC6 c) (loadMemberKek (withOp 0xC6 c))))) s

/-- A member record of Cascade Status (R518). -/
def memberRecord (state variant : Nat) (link : Bool) (ports objects free flit : Nat) : Bytes :=
  leBytes 1 state ++ leBytes 1 variant ++ leBytes 1 link.toNat ++ leBytes 1 ports ++ leBytes 4 objects ++ leBytes 8 free ++ leBytes 8 flit ++
    leBytes 8 0

/-- Bytes that namespaces may still take here (R518, R553). -/
def freeCapacity (d : Dev) : Nat := usableCapacity d - logicalSum d

/-- The record of a member: this one as it is; another as the master knows it, with its port states, objects and free capacity as it has told
them (R518). -/
def statusRecord (d : Dev) (seen : List (Nat × Nat × Nat × Nat)) (m : Nat) : Bytes :=
  if m = selfId d then
    memberRecord d.cas.state (selfVariant d) (anyLink d) (d.cas.ports[0].state + 4 * d.cas.ports[1].state) d.media.store.objs.length
      (freeCapacity d) 0
  else match mapGet d.cas.members m with
    | none => List.replicate 32 0
    | some k =>
      let (ports, objects, free) := ((seen.find? fun x => x.1 = m).map fun x => x.2).getD (0, 0, 0)
      memberRecord k.state k.variant k.linkUp ports objects free k.lastFlit

/-- CASCADE_STATUS: admin C7h; `seen` gives what other members have told of their ports, objects and free capacity (R517, R518). -/
def execCascadeStatus (c : Cmd) (seen : List (Nat × Nat × Nat × Nat)) (s : State) : Host.Outcome State Fault Refusal :=
  let c := withOp 0xC7 c
  run (pfCmd c (fun d =>
    if c.cdw10 ≠ 0 ∨ !zeroFrom 11 c then done c stField d
    else if d.cas.state ≠ 3 then done c stNotMaster d
    else withData c (fun d =>
      done c stOk (sendData c (d.cas.table.toList.map (BitVec.ofNat 8) ++ ((List.range 8).map (statusRecord d seen)).flatten) d)) d)) s

/-! ## Ports and joining (R501 to R507) -/

/-- A port has trained: the peer's ID is one that R501 allows, the lanes are in use, and the member asks to join (R501, R503, R505, R506). -/
def portTrained (p : Fin 2) (lanes peer : Nat) (d : Dev) : Dev :=
  let q := d.cas.ports[p]
  if !cflRuns d || q.state ≠ 1 || !(lanes = 1 || lanes = 2 || lanes = 4) then d
  else
    let d1 := modifyCfl p (fun q => { q with state := 2, lanes := lanes, peer := peer, txSeq := 0, rxSeq := 0, fails := 0 }) d
    let d2 := if lanes < 4 ∧ lanes ≠ q.lanes then gaugeCount (cflGauge p 2) d1 else d1
    if !peerAllowed d p peer then isolate p 4 [] d2
    else if d2.cas.configured = 0 ∨ d2.cas.state = 2 ∨ d2.cas.state = 3 ∨ d2.cas.state = 4 then d2
    else tryFormation (sendJoin p (modifyCas (fun c => { c with state := 1 }) d2))

/-- CONFLUENCE_PORT_TRAINED (R503, R505). -/
def execConfluencePortTrained (port : Fin 2) (lanes peer now : Nat) (s : State) : Host.Outcome State Fault Refusal :=
  run (fun d => portTrained port lanes peer (advanceTo now d)) s

/-- A join flit: the master decides a request and tells every member; without a master the request waits; an answer settles this member's
state (R505, R506). -/
def joinFlit (p : Fin 2) (m : JoinMsg) (d : Dev) : Dev :=
  match m with
  | .request id variant mode link =>
    if d.cas.state = 3 then sendPlacement (decideJoin p id variant mode link d)
    else if d.cas.state = 1 ∧ mode = d.cas.configured ∧ id ≠ selfId d then
      modifyCas (fun c => { c with members := mapSet c.members id { state := 1, variant := variant, linkUp := link, lastFlit := d.tm } }) d
    else d
  | .answer master mode cause =>
    if d.cas.state ≠ 1 then d
    else if cause = 0 then
      modifyCas (fun c =>
        { c with
          state := 2
          cause := 0
          mode := mode
          master := master
          heartbeatAt := d.tm
          members := mapSet c.members master { mapGetD c.members master {} with state := 3 } }) d
    else modifyCas (fun c => { c with state := 4, cause := cause, mode := 0 }) d

/-- JOIN (R505). -/
def execJoin (port : Fin 2) (m : JoinMsg) (now : Nat) (s : State) : Host.Outcome State Fault Refusal :=
  run (withFlit port (match m with
    | .request id _ _ _ => id
    | .answer master _ _ => master) now (joinFlit port m)) s

/-- A heartbeat from a member: the master's confirms it; one that announces its loss leaves the cascade without a master; a new master's is
taken up while there is none; any other is a second master's (R506, R507, R519). -/
def heartbeat (p : Fin 2) (src : Nat) (losing : Bool) (d : Dev) : Dev :=
  if d.cas.state = 3 then isolate p 7 [] d
  else if d.cas.state = 1 then sendJoin p d
  else if d.cas.state ≠ 2 then d
  else if d.cas.master = src then
    modifyCas (fun c =>
      { c with
        heartbeatAt := d.tm
        master := if losing then 0xFF else src
        members := mapUpdate c.members src fun k => { k with state := if losing then 2 else 3 } }) d
  else if d.cas.master = 0xFF then
    if losing then d
    else
      logError 0x0C 1 1 0 (cascadeDetail src src 0) (setNum 0x800009 (d.tm % 2 ^ 64) (modifyCas (fun c =>
        { c with
          heartbeatAt := d.tm
          master := src
          members := mapSet c.members src { mapGetD c.members src {} with state := 3 } }) d)) (origin := src)
  else isolate p 7 [] d

/-- HEARTBEAT (R506, R507). -/
def execHeartbeat (port : Fin 2) (src : Nat) (losing : Bool) (now : Nat) (s : State) : Host.Outcome State Fault Refusal :=
  run (withFlit port src now (heartbeat port src losing)) s

/-- HEARTBEAT_SEND: the master's heartbeat on both ports; one that has lost its last PCIe link announces it and becomes a member (R506, R507). -/
def execHeartbeatSend (now : Nat) (s : State) : Host.Outcome State Fault Refusal :=
  run (fun d =>
    let d0 := advanceTo now d
    if !cflRuns d0 || d0.cas.state ≠ 3 then d0
    else
      let d1 := (List.finRange 2).foldl (fun d p =>
        if d.cas.ports[p].state = 2 then
          emit (.flit p.val 1 0xFF [selfId d, d.cas.losing.toNat]) (modifyCfl p (fun q => { q with txSeq := (q.txSeq + 1) % 4096 }) d)
        else d) d0
      if d1.cas.losing then modifyCas (fun c => { c with state := 2, master := 0xFF, losing := false }) d1 else d1) s

/-! ## The election (R506 to R508) -/

/-- The member that an election makes master among those that this one reaches, itself included: the lowest with a live PCIe link (R507). -/
def electionWinner (reach : List (Nat × Bool)) : Option Nat :=
  (reach.filter fun x => x.2).foldl (fun a x => match a with
    | none => some x.1
    | some y => some (min x.1 y)) none

/-- True when the members reached may elect: at least half of those that had joined, and of exactly half the one with the lowest ID among them
other than the lost master (R507). -/
def mayElect (before : List Nat) (lost : Option Nat) (reach : List Nat) : Bool :=
  let mine := before.filter fun m => reach.contains m
  let others := before.filter fun m => some m ≠ lost
  decide (before.length < 2 * mine.length) ||
    (decide (before.length = 2 * mine.length) && match others with
      | [] => false
      | x :: xs => mine.contains (xs.foldl min x))

/-- The election at this member: it becomes master when it wins; every election counts (R507).  A deepen member has no host link and waits for
the master (R508). -/
def elect (before : List Nat) (lost : Option Nat) (reach : List (Nat × Bool)) (d : Dev) : Dev :=
  let all := (selfId d, anyLink d) :: reach.filter fun x => x.1 ≠ selfId d
  let d1 := setNum 0x800009 (d.tm % 2 ^ 64) (bump 0x800008 d)
  if electionWinner all = some (selfId d) && mayElect before lost (all.map Prod.fst) then
    logError 0x0C 1 1 0 (cascadeDetail (selfId d) (selfId d) 0) (becomeMaster d1) (origin := selfId d)
  else d1

/-- The members cut off with a lost master. -/
def dropUnreached (reach : List (Nat × Bool)) (d : Dev) : Dev :=
  ((joinedOthers d).filter fun m => !reach.any fun x => x.1 = m).foldl (fun d m => loseMember m d) d

/-- The master is lost after 50 ms without a heartbeat, or has announced it; the members run the election (R507, R508). -/
def masterLost (reach : List (Nat × Bool)) (d : Dev) : Dev :=
  if !cflRuns d || d.cas.state ≠ 2 || !(d.cas.master = 0xFF || decide (d.cas.heartbeatAt + 50000000 ≤ d.tm)) then d
  else
    let before := joined d
    let lost := if d.cas.master = 0xFF then none else some d.cas.master
    let d1 := (List.finRange 2).foldl (fun d p => if d.cas.ports[p].state = 2 then gaugeCount (cflGauge p 6) d else d) d
    let d2 := dropUnreached reach (match lost with
      | some m => loseMember m d1
      | none => d1)
    if d2.cas.mode = 2 then modifyCas (fun c => { c with state := 1 }) d2 else elect before lost reach d2

/-- MASTER_LOST: `reach` gives the members that this one reaches, with whether their PCIe link is up (R507). -/
def execMasterLost (reach : List (Nat × Bool)) (now : Nat) (s : State) : Host.Outcome State Fault Refusal :=
  run (fun d => masterLost reach (advanceTo now d)) s

/-- ELECTION_TIMEOUT: 50 ms after member 0 started training its link is not up, and the election chooses the first master (R506). -/
def execElectionTimeout (reach : List (Nat × Bool)) (now : Nat) (s : State) : Host.Outcome State Fault Refusal :=
  run (fun d =>
    let d0 := advanceTo now d
    if !cflRuns d0 || d0.cas.state ≠ 1 || d0.cas.master ≠ 0xFF || d0.cas.formed then d0
    else elect (((asking d0).map Prod.fst).foldl (fun acc m => insNat m acc) [selfId d0]) none reach d0) s

/-! ## Serving forwards (R512 to R515) -/

/-- A forward refused with a status (R512). -/
def refuseForward (f : FwdReq) (st : Status) (d : Dev) : Dev := sendFlit 5 f.src [f.tag, st.1, st.2, 0, 0] d

/-- The unit number that marks the header of a read's data flits. -/
def headerUnit : Nat := 0xFFFFFF

/-- The header that goes before a read's units: lengths, kind of storage, version, and the storage slot with the KCV recorded for the title
(R512, R513). -/
def sendHeader (f : FwdReq) (o : ObjRec) (back : Bool) (d : Dev) : Dev :=
  let kcv := match mapGet d.media.titles (keyTag o.key * 2 ^ 32 + keyTitle o.key) with
    | some b => b.kcv
    | none => 0
  sendFlit 4 f.src [f.tag, headerUnit, o.stored, o.decoded, o.compressed.toNat + 2 * back.toNat, o.slot, kcv, o.version] d

/-- A Stream Read served for another member: check 6, the locator bound and the bands pinned, the header sent; the units follow as they are
decoded (R512, R513). -/
def serveRead (f : FwdReq) (bad : List Nat) (mapBad : Option Nat) (d : Dev) : Dev :=
  match classSearch f.key f.cls bad d with
  | (none, _, d1) => refuseForward f stAbsent d1
  | (some (h, rec, o), back, d1) =>
    if h.entry.poison then refuseForward f stPoison d1
    else if o.withdrawn then refuseForward f stWithdrawn d1
    else
      let (tag, d2) := takeTag d1
      let r : Req :=
        { ctrl := 0, sq := 0, cid := 0, op := if f.flag ∧ !f.all then 1 else 0, key := f.key, nsid := f.nsid, len := f.len, obj := o, recNo := rec
          fallback := back, remote := some (f.src, f.tag) }
      let d3 := readMap tag mapBad { d2 with reqs := mapSet d2.reqs tag r }
      match mapGet d3.reqs tag with
      | none => d3
      | some r =>
        let d4 := sendHeader f o back d3
        if (List.range o.units).any fun u => unitNeeded r u then d4 else finishReq tag stOk d4

/-- The session generation that a whole request has bound taken into use here (R209, R515). -/
def useGen (slot : Option Nat) (g : Nat) (d : Dev) : Dev :=
  match slot with
  | some n => modifyGen n g (fun k => { k with inUse := k.inUse + 1 }) d
  | none => d

/-- A whole Stream Read of a deepen master: its profile and its key generation must be here, then steps 2 to 8 run here (R515). -/
def serveWhole (f : FwdReq) (bad : List Nat) (mapBad : Option Nat) (d : Dev) : Dev :=
  match profileImage d f.ver with
  | none => refuseForward f stProfile d
  | some img =>
    if unitMissing d img then refuseForward f stUnit d
    else if (match f.slot with
        | some n => (slotGen d n f.gen).isNone
        | none => false) then refuseForward f stRevoked d
    else
      let (tag, d1) := takeTag d
      let r : Req :=
        { ctrl := 0, sq := 0, cid := 0, op := if f.flag then 1 else 0, key := f.key, nsid := f.nsid, len := f.len, profile := f.ver, image := img
          imageVersion := (mapGetD d.profiles f.ver {}).version, obj := noObject f.key, sess := f.slot.map fun n => (n, f.gen)
          sessUse := f.slot.isSome, remote := some (f.src, f.tag) }
      admitHere tag bad mapBad (useGen f.slot f.gen { d1 with reqs := mapSet d1.reqs tag r })

/-- A Put served for another member: the title's slot and KCV, and room, charged to the PF side (R512, R514). -/
def servePut (f : FwdReq) (n : Namespace) (d : Dev) : Dev :=
  let k := keyTag f.key * 2 ^ 32 + keyTitle f.key
  let slot := f.slot.getD 0
  let bound := mapGet d.media.titles k
  if bound.any fun b => decide (b.slot ≠ slot) then refuseForward f stField d
  else if bound.any fun b => decide (b.kcv ≠ f.gen) then refuseForward f stRevoked d
  else if !putFits d 1 f.key n f.len then refuseForward f stCapacity d
  else
    let (tag, d1) := takeTag d
    let r : Req :=
      { ctrl := 0, sq := 0, cid := 0, op := 2, step := .arriving, key := f.key, nsid := f.nsid, len := f.len
        obj := putRecord f.key n.iu f.len f.ver slot 1 f.flag, remote := some (f.src, f.tag) }
    let d2 := { d1 with reqs := mapSet d1.reqs tag r }
    if bound.isSome then d2 else modifyMedia (fun m => { m with titles := mapSet m.titles k { slot := slot, kcv := f.gen } }) d2

/-- An Evict served for another member (R145, R514). -/
def serveEvict (f : FwdReq) (bad : List Nat) (d : Dev) : Dev :=
  match findObject f.key bad d with
  | (none, d1) => refuseForward f stAbsent d1
  | (some (_, rec, o), d1) =>
    background (sendFlit 5 f.src [f.tag, 0, 0, 0, if o.withdrawn then 1 else 0] (evictObject f.key rec o d1))

/-- A Lookup served for another member: its record goes as one data flit (R146, R514). -/
def serveLookup (f : FwdReq) (bad : List Nat) (d : Dev) : Dev :=
  match findObject f.key bad d with
  | (none, d1) => refuseForward f stAbsent d1
  | (some (h, _, o), d1) =>
    if h.entry.poison then refuseForward f stPoison d1
    else
      sendFlit 5 f.src [f.tag, 0, 0, if o.withdrawn then 1 else 0, 0]
        (sendFlit 4 f.src (f.tag :: 0 :: (lookupRecord o).map (·.toNat)) d1)

/-- A forward request at the holding member; none is admitted while there is no master (R508, R513 to R515). -/
def serveForward (f : FwdReq) (bad : List Nat) (mapBad : Option Nat) (d : Dev) : Dev :=
  if !(d.cas.state = 3 || (d.cas.state = 2 && d.cas.master ≠ 0xFF)) then d
  else
    let d1 := bump 0x802002 (gaugeCount 0x00F d)
    match mapGet d1.media.nss f.nsid with
    | none => refuseForward f stNamespace d1
    | some n =>
      if n.kind ≠ 2 ∨ n.tag ≠ keyTag f.key then refuseForward f stNamespace d1
      else match f.kind with
        | 0 => serveRead f bad mapBad d1
        | 1 => servePut f n d1
        | 2 => serveEvict f bad d1
        | 3 => serveLookup f bad d1
        | 5 => serveWhole f bad mapBad d1
        | _ => d1

/-- FORWARD_REQUEST (R513 to R515). -/
def execForwardRequest (port : Fin 2) (f : FwdReq) (bad : List Nat) (mapBad : Option Nat) (now : Nat) (s : State) : Host.Outcome State Fault Refusal :=
  run (withFlit port f.src now (fromMember port f.src (serveForward f bad mapBad))) s

/-! ## Data flits (R513 to R515, R519) -/

/-- Bytes of a flit's fields. -/
def fieldBytes (l : List Nat) : Bytes := l.map (BitVec.ofNat 8)

/-- The header of a forwarded read: the object as the holding member has it; this member's key of its slot must be the recorded one (R512,
R513). -/
def takeHeader (tag : Nat) (l : List Nat) (d : Dev) : Dev :=
  match mapGet d.reqs tag, l with
  | some r, [stored, decoded, flags, slot, kcv, version] =>
    let o : ObjRec :=
      { r.obj with stored := stored, decoded := decoded, compressed := bit flags 0, slot := slot, version := version
                   units := objUnits (objClass d r.key) stored }
    let d1 := modifyReq tag (fun r => { r with obj := o, recNo := recGone, fallback := r.fallback || bit flags 1 }) d
    let d2 := if bit flags 1 && !r.fallback then gaugeCount 0x00C d1 else d1
    if slotKcv d2 slot ≠ kcv then finishReq tag stRevoked d2 else bindStorage tag d2
  | _, _ => d

/-- A data flit for a request that this member has forwarded: a stored unit, finished output of a deepen member, or a Lookup's record. -/
def takeData (p : Fin 2) (t u : Nat) (l : List Nat) (f : Forward) (d : Dev) : Dev :=
  match f.req with
  | none => if f.kind = 3 ∧ u = 0 then emit (.data f.cmd.1 f.cmd.2.2 (fieldBytes l)) d else isolate p 5 [] d
  | some tag =>
    match mapGet d.reqs tag with
    | none => endForward t d
    | some r =>
      if f.kind = 5 then
        (if u * 4096 ≠ r.output.length ∨ 4096 < l.length ∨ r.len < r.output.length + l.length then isolate p 5 [] d
          else modifyReq tag (fun r => { r with output := r.output ++ fieldBytes l }) d)
      else if u = headerUnit then takeHeader tag l d
      else if unitCount r.obj.stored ≤ u ∨ l.length ≠ unitLen r.obj u then isolate p 5 [] d
      else modifyReq tag (fun r => { r with cipher := mapSet r.cipher u (fieldBytes l) }) d

/-- The Put served for another member under its tag. -/
def servedPut (d : Dev) (src t : Nat) : Option (Nat × Req) :=
  d.reqs.find? fun kr => kr.2.ctrl = 0 && kr.2.op = 2 && kr.2.remote = some (src, t)

/-- Ciphertext of a Put that another member sends: the decoded length, then the bytes of one data unit (R514); more than was announced is a
breach (R519). -/
def takePutData (p : Fin 2) (tag u : Nat) (l : List Nat) (r : Req) (d : Dev) : Dev :=
  match l with
  | [] => d
  | dec :: bs =>
    if unitCount r.len ≤ u ∨ bs.length ≠ roundUp (min 4096 (r.len - 4096 * u)) 16 then isolate p 5 [] d
    else modifyReq tag (fun r => { r with cipher := mapSet r.cipher u (fieldBytes bs), obj := { r.obj with decoded := dec } }) d

/-- A data flit (R513, R514). -/
def dataFlit (p : Fin 2) (src t u : Nat) (l : List Nat) (d : Dev) : Dev :=
  match servedPut d src t, mapGet d.cas.forwards t with
  | some (tag, r), _ => takePutData p tag u l r d
  | none, some f => if f.member = src then takeData p t u l f d else d
  | none, none => d

/-- DATA_FLIT: unit `u` of the request with the sender's or this member's tag `t`; `fields` is what follows.  `breach` says that the flit breaks the
link's own rules: its type is 11 or above, or a reserved field is not 0 (R513, R519). -/
def execDataFlit (port : Fin 2) (src t u : Nat) (fields : List Nat) (breach : Option (Fin 2)) (now : Nat) (s : State) : Host.Outcome State Fault Refusal :=
  run (withFlit port src now (fun d => match breach with
    | some k => isolate port (1 + k.val) [] d
    | none => fromMember port src (dataFlit port src t u fields) d)) s

/-! ## Completions (R512 to R515, R519) -/

/-- A forward's completion taken: a read goes on with its units or its finished output, a Put, Evict or Lookup completes (R513 to R515). -/
def endServed (t : Nat) (f : Forward) (st : Status) (dw0 dw1 : Nat) (d : Dev) : Dev :=
  let d1 := endForward t d
  match f.req with
  | none =>
    finish { ctrl := f.cmd.1, sq := f.cmd.2.1, cid := f.cmd.2.2, st := st, dw0 := dw0, dw1 := dw1
             cdw0 := if f.kind = 2 then 0x88 else 0x86, key := f.key }
      (if f.kind = 2 ∧ st = stOk then gaugeCount 0x004 d1 else d1)
  | some tag =>
    match mapGet d1.reqs tag with
    | none => d1
    | some r =>
      if st ≠ stOk then finishReq tag st d1 (dw0 := dw0) (dw1 := dw1)
      else if r.op = 2 then finishReq tag stOk (gaugeCount 0x003 d1) (dw0 := dw0) (dw1 := dw1)
      else if f.kind = 5 then
        (if r.op = 1 then finishReq tag stOk d1 (dw0 := dw0) (dw1 := dw1)
          else modifyReq tag (fun r => { r with step := .dma, recNo := recWhole, rangesDone := dw1 }) d1)
      else d1

/-- A relayed key command or KEK 1 load confirmed by a member, or ended with its status (R515, R517). -/
def endRelay (t src : Nat) (st : Status) (dw1 : Nat) (r : Relay) (d : Dev) : Dev :=
  if st ≠ stOk then failRelay t st d
  else dropRelay t src (if r.opc = 0xC6 then modifyCas (fun c => { c with relays := mapSet c.relays t { r with dw1 := dw1 } }) d else d)

/-- A completion flit; one for a request that the port does not know is a breach (R514, R519). -/
def completionFlit (p : Fin 2) (src t : Nat) (st : Status) (dw0 dw1 : Nat) (d : Dev) : Dev :=
  match mapGet d.cas.forwards t, mapGet d.cas.relays t with
  | some f, _ => if f.member = src ∧ f.kind ≠ 4 then endServed t f st dw0 dw1 d else isolate p 6 [] d
  | none, some r => if r.left.contains src then endRelay t src st dw1 r d else isolate p 6 [] d
  | none, none => isolate p 6 [] d

/-- FORWARD_COMPLETION: of a forward, or of a key relay (R514, R515). -/
def execForwardCompletion (port : Fin 2) (src t sct sc dw0 dw1 now : Nat) (s : State) : Host.Outcome State Fault Refusal :=
  run (withFlit port src now (fromMember port src (completionFlit port src t (sct, sc) dw0 dw1))) s

/-! ## The index (R509, R513, R516) -/

/-- A lookup answered to a member: whether the object was found, its holder, its record, and whether with class 0. -/
def answerLookup (m t cls key : Nat) (d : Dev) : Dev :=
  match indexFind d key cls with
  | none => sendFlit 7 m [t, 0, 0, 0, 0] d
  | some (h, rec, back) => sendFlit 7 m [t, 1, h, rec, back.toNat] d

/-- An index message at the master: 0 a lookup with a class, 1 an object entered under its record, 2 an object gone (R509, R513, R514).  A full
index takes no new object. -/
def indexMessage (src t op a key : Nat) (d : Dev) : Dev :=
  if d.cas.state ≠ 3 ∨ d.cas.mode = 3 then d
  else if op = 0 then
    (if d.cas.rebuilding then modifyCas (fun c => { c with waiting := c.waiting ++ [(src, t, a, key)] }) d else answerLookup src t a key d)
  else if op = 1 then
    (if (mapGet d.cas.index key).isNone ∧ indexSize d ≤ d.cas.index.length then sendFlit 7 src [t, 0, 0, 0, 0] d
      else sendFlit 7 src [t, 1, src, a, 0] (modifyCas (fun c => { c with index := mapSet c.index key (src, a) }) d))
  else if (mapGet d.cas.index key).map Prod.fst = some src then modifyCas (fun c => { c with index := mapErase c.index key }) d
  else d

/-- INDEX_LOOKUP (R513). -/
def execIndexLookup (port : Fin 2) (src t op a key now : Nat) (s : State) : Host.Outcome State Fault Refusal :=
  run (withFlit port src now (fromMember port src (indexMessage src t op a key))) s

/-- A Stream Read whose object the master has found (R513). -/
def goOn (tag holder : Nat) (back : Bool) (bad : List Nat) (mapBad : Option Nat) (d : Dev) : Dev :=
  let d1 := if back then gaugeCount 0x00C (modifyReq tag (fun r => { r with fallback := true }) d) else d
  if holder = selfId d1 then admitHere tag bad mapBad d1
  else if memberUp d1 holder then forwardRead tag holder d1
  else finishReq tag stWithdrawn d1

/-- An index reply: a Stream Read goes on at the holder or ends with Object Absent; a stored Put completes, or is undone where the index had no
room (R513, R514). -/
def indexReply (src t : Nat) (found : Bool) (holder : Nat) (back : Bool) (bad : List Nat) (mapBad : Option Nat) (d : Dev) : Dev :=
  match mapGet d.cas.forwards t with
  | none => d
  | some f =>
    if f.kind ≠ 4 ∨ f.member ≠ src then d
    else
      let d1 := endForward t d
      match f.req.bind fun tag => (mapGet d1.reqs tag).map fun r => (tag, r) with
      | none => d1
      | some (tag, r) =>
        if r.op = 2 then
          (if found then finishReq tag stOk (if r.ctrl = 0 then d1 else gaugeCount 0x003 d1) (dw0 := r.obj.decoded) (dw1 := r.rangesDone)
            else match objByKey d1 r.key with
              | some (rec, o) => finishReq tag stCapacity (evictObject r.key rec o d1)
              | none => finishReq tag stCapacity d1)
        else if found then goOn tag holder back bad mapBad d1
        else finishReq tag stAbsent d1

/-- INDEX_REPLY (R513). -/
def execIndexReply (port : Fin 2) (src t : Nat) (found : Bool) (holder : Nat) (back : Bool) (bad : List Nat) (mapBad : Option Nat) (now : Nat) (s : State) : Host.Outcome State Fault Refusal :=
  run (withFlit port src now (fromMember port src (indexReply src t found holder back bad mapBad))) s

/-- Objects of this member's cascade namespaces by key, as an index lists them. -/
def ownObjects (d : Dev) : List (Nat × Nat) := (d.media.store.objs.filter fun ko => cascadeKey d ko.2.key).map fun ko => (ko.2.key, ko.1)

/-- The index rebuilt at a new master from its own and the members' object records, as (key, member, record); the lookups that waited are answered, and its own
requests that waited go on (R516). -/
def rebuilt (entries : List (Nat × Nat × Nat)) (bad : List Nat) (mapBad : Option Nat) (d : Dev) : Dev :=
  let mine := (ownObjects d).foldl (fun m x => mapSet m x.1 (selfId d, x.2)) ([] : AMap (Nat × Nat))
  let index := entries.foldl (fun m e => if (joinedOthers d).contains e.2.1 then mapSet m e.1 (e.2.1, e.2.2) else m) mine
  let d1 := modifyCas (fun c => { c with index := index, rebuilding := false, waiting := [] }) d
  let d2 := d.cas.waiting.foldl (fun d w => answerLookup w.1 w.2.1 w.2.2.1 w.2.2.2 d) d1
  (d2.cas.forwards.filter fun kf => kf.2.kind = 4).foldl (fun d kf => match kf.2.req with
    | some tag => (match mapGet d.reqs tag with
      | some r =>
        if r.op = 2 then finishReq tag stOk (if r.ctrl = 0 then endForward kf.1 d else gaugeCount 0x003 (endForward kf.1 d)) (dw0 := r.obj.decoded) (dw1 := r.rangesDone)
        else locateRead tag bad mapBad (endForward kf.1 d)
      | none => endForward kf.1 d)
    | none => endForward kf.1 d) d2

/-- A member's index lookups that the lost master never answered asked again of the new one (R516). -/
def askAgain (d : Dev) : Dev :=
  (d.cas.forwards.filter fun kf => kf.2.kind = 4).foldl (fun d kf =>
    match kf.2.req.bind fun tag => mapGet d.reqs tag with
    | none => endForward kf.1 d
    | some r =>
      sendFlit 6 d.cas.master ([kf.1] ++ (if r.op = 2 then
          [1, ((objByKey d r.key).map Prod.fst).getD 0, r.rangesDone]
        else [0, imgClass r.image, 0]) ++ keyFields kf.2.key)
        (modifyCas (fun c => { c with forwards := mapSet c.forwards kf.1 { kf.2 with member := c.master, since := d.tm } }) d)) d

/-- INDEX_REBUILD_DONE: at the new master, with the entries that its members' records give; at a member, whose lookups retry (R516). -/
def execIndexRebuildDone (entries : List (Nat × Nat × Nat)) (bad : List Nat) (mapBad : Option Nat) (now : Nat) (s : State) : Host.Outcome State Fault Refusal :=
  run (fun d =>
    let d0 := advanceTo now d
    if !cflRuns d0 then d0
    else if d0.cas.state = 3 ∧ d0.cas.rebuilding then rebuilt entries bad mapBad d0
    else if d0.cas.state = 2 ∧ d0.cas.master ≠ 0xFF then askAgain d0
    else d0) s

/-! ## Key relays (R515) -/

/-- Slot type of a wrapped key's buffer. -/
def relaySlotType (b : Bytes) : Nat := (slotTypeOf (leField b 2 1)).getD 0

/-- A key relay: KEK 1, a load into a slot, or an erase, performed here and confirmed to the master (R515, R517). -/
def keyRelay (t opc : Nat) (l : List Nat) (d : Dev) : Dev :=
  match l with
  | [] => d
  | n :: rest =>
    let b := padTo 128 (fieldBytes rest)
    if opc = 0xC4 ∧ n = 2 ^ 31 then loadKek 0 t 0xC4 b d
    else if d.cas.mode ≠ 2 ∨ 8192 ≤ n then d
    else if opc = 0xC4 then
      loadSlot 0 t n b (if (keySlot d n).allocated then d
        else modifySlot n (fun s => { s with allocated := true, owner := 1, type := relaySlotType b }) d)
    else if opc = 0xC5 then
      let (k, d1) := if rest = [1] then eraseKeep n d else eraseFree n d
      completeKey 0 t 0xC5 k 0 [] d1
    else d

/-- KEY_RELAY: at a member, from its master (R515). -/
def execKeyRelay (port : Fin 2) (src t opc : Nat) (fields : List Nat) (now : Nat) (s : State) : Host.Outcome State Fault Refusal :=
  run (withFlit port src now (fromMember port src (fun d => if d.cas.state = 2 ∧ d.cas.master = src then keyRelay t opc fields d else d))) s

/-! ## Placement updates (R511, R517) -/

/-- The members as a placement update lists them; a member that is no longer listed is lost, and one that finds itself left out stands alone
(R511, R517). -/
def placementUpdate (src : Nat) (table : List Nat) (ms : List (Nat × Nat × Bool)) (d : Dev) : Dev :=
  let d1 := ((joinedOthers d).filter fun m => !ms.any fun x => x.1 = m).foldl (fun d m => loseMember m d) d
  let members := ms.foldl (fun acc x => if x.1 = selfId d then acc
    else mapSet acc x.1 { mapGetD acc x.1 {} with state := if x.1 = src then 3 else 2, variant := x.2.1, linkUp := x.2.2 }) d1.cas.members
  let d2 := takeTable (Vector.ofFn fun k => table.getD k.val 0xFF) (modifyCas (fun c => { c with members := members }) d1)
  if ms.any fun x => x.1 = selfId d then d2 else modifyCas (fun c => { c with state := 0, mode := 0, master := 0xFF }) d2

/-- PLACEMENT_UPDATE: the master's table, and the joined members with variant and link (R511). -/
def execPlacementUpdate (port : Fin 2) (src : Nat) (table : List Nat) (ms : List (Nat × Nat × Bool)) (now : Nat) (s : State) : Host.Outcome State Fault Refusal :=
  run (withFlit port src now (fun d => if d.cas.state = 2 ∧ d.cas.master = src then placementUpdate src table ms d else d)) s

/-! ## Aborts and overdue forwards (R516) -/

/-- ABORT_FLIT: the work for another member's request stops and its pins are released (R516). -/
def execAbortFlit (port : Fin 2) (src t now : Nat) (s : State) : Host.Outcome State Fault Refusal :=
  run (withFlit port src now (fromMember port src (fun d =>
    let d1 := modifyCas (fun c => { c with waiting := c.waiting.filter fun w => !(w.1 = src && w.2.1 = t) }) d
    (reqTags d1 fun r => r.ctrl = 0 && r.remote = some (src, t)).foldl (fun d tag => abandonReq tag d) d1))) s

/-- The violation of an overdue forward or completion (R516, R530 row 37). -/
def noteOverdue (m : Nat) (d : Dev) : Dev :=
  let p := routePort d m
  logViolation 0x24 8 (cflGauge p 5) m (5 + p.val) (leBytes 1 p.val ++ leBytes 1 m) d

/-- FORWARD_TIMEOUT: 100 ms have passed without a forward's or a relay's completion (R516, R531). -/
def execForwardTimeout (t now : Nat) (s : State) : Host.Outcome State Fault Refusal :=
  run (fun d =>
    let d0 := advanceTo now d
    match mapGet d0.cas.forwards t, mapGet d0.cas.relays t with
    | some f, _ =>
      if d0.tm < f.since + 100000000 ∨ (f.kind = 4 ∧ (d0.cas.master ≠ f.member ∨ d0.cas.rebuilding)) then d0
      else failForward t f (noteOverdue f.member d0)
    | none, some r =>
      if d0.tm < r.since + 100000000 then d0 else failRelay t stUnreachable (r.left.foldl (fun d m => noteOverdue m d) d0)
    | none, none => d0) s

/-! ## Link errors (R503) -/

/-- FLIT_REPLAY: a CRC error or a gap; what follows is discarded, a replay from the first missing sequence is asked for, and the eighth
failure in a row retrains the port (R503). -/
def execFlitReplay (port : Fin 2) (now : Nat) (s : State) : Host.Outcome State Fault Refusal :=
  run (fun d =>
    let d0 := advanceTo now d
    let q := d0.cas.ports[port]
    if !cflRuns d0 || q.state ≠ 2 then d0
    else
      let d1 := emit (.flit port.val 0 q.peer [q.rxSeq]) (bump (0x801004 + 256 * port.val) (gaugeCount (cflGauge port 0) d0))
      if 7 ≤ q.fails then gaugeCount (cflGauge port 1) (modifyCfl port (fun q => { q with state := 1, fails := 0 }) d1)
      else modifyCfl port (fun q => { q with fails := q.fails + 1 }) d1) s

/-- CONFLUENCE_PORT_DOWN: a port that cannot train even one lane; its traffic takes the other port, and `lost` names the members that
cannot be reached any more (R503, R516). -/
def execConfluencePortDown (port : Fin 2) (lost : List Nat) (now : Nat) (s : State) : Host.Outcome State Fault Refusal :=
  run (fun d =>
    let d0 := advanceTo now d
    let q := d0.cas.ports[port]
    if !cflRuns d0 || (q.state ≠ 1 && q.state ≠ 2) then d0
    else
      let d1 := gaugeCount (cflGauge port 3) (modifyCfl port (fun q => { q with state := 0, lanes := 0, peer := 0xFF, fails := 0 }) d0)
      let gone := if d1.cas.ports[0].state = 2 ∨ d1.cas.ports[1].state = 2 then lost else joinedOthers d1
      (gone.filter fun m => m ≠ d1.cas.master || d1.cas.state ≠ 2).foldl (fun d m => loseMember m d) d1) s

end Sys2Proof.Machine
end

