-- ==== Sys2Proof/Machine/Fx.lean ====
section
/-! DEFINITION. Machine/Fx.lean: what every FX32 instruction shares: issue and fetch (R264, R281, R284), results that land (R296, R297), loads
that return (R277), the write buffer (R78), exceptions and interrupts (R273, R274, R278), retirement with the loop check (R290) and the
repeat prefix (R292 to R295). -/
namespace Sys2Proof.Machine

/-! ## Results that land (R296, R297) -/

/-- The products whose landing cycle has passed, written in issue order. -/
def landProducts (c : FxCore) : FxCore :=
  let due := c.products.filter (fun p => decide (p.1 < c.cycle))
  let rest := c.products.filter (fun p => !decide (p.1 < c.cycle))
  due.foldl (fun c p => { c with ph := p.2.1, pl := p.2.2 }) { c with products := rest }

/-- The quotient, when its landing cycle has passed. -/
def landQuotient (c : FxCore) : FxCore :=
  match c.divide with
  | some (l, q, r) => if l < c.cycle then { c with qt := q, rm := r, divide := none } else c
  | none => c

/-- Every result that has landed before the present cycle. -/
def landDue (c : FxCore) : FxCore := landQuotient (landProducts c)

/-! ## Loads that return (R264, R277) -/

/-- The registers of a load written. -/
def landLoad (l : CoreLoad) (c : FxCore) : FxCore := l.dests.foldl (fun c rv => rset rv.1 rv.2 c) c

/-- Loads for which a test holds return in order; the address of the first poisoned one among them, if any. -/
def returnLoads (p : CoreLoad → Bool) (c : FxCore) : Option Word × FxCore :=
  let hit := c.loads.filter p
  let c1 := { c with loads := c.loads.filter (fun l => !p l) }
  let c2 := hit.foldl (fun c l => if l.poison then l.dests.foldl (fun c rv => rset rv.1 0 c) c else landLoad l c) c1
  ((hit.find? (·.poison)).map (·.addr), c2)

/-- Loads whose data has not come back. -/
def outstanding (c : FxCore) : List CoreLoad := c.loads.filter (fun l => !l.returned)

/-- The oldest outstanding load comes back: its registers are written, or its poison waits to be reported (R277). -/
def returnOldest (c : FxCore) : FxCore :=
  match c.loads.findIdx? (fun l => !l.returned) with
  | none => c
  | some i =>
    match c.loads[i]? with
    | none => c
    | some l =>
      if l.poison then { c with loads := c.loads.set i { l with returned := true } }
      else landLoad l { c with loads := c.loads.eraseIdx i }

/-! ## Write buffer (R78, R278) -/

/-- A buffered store reaches its target, or is refused there (R278, R403, R415). -/
def performStore (n : CoreId) (st : CoreStore) (d : Dev) : Dev :=
  match st.key with
  | none => gaugeCount 0x0FB (latchSource n 1 (modifyCore n (fun c => { c with serr := st.addr }) d))
  | some key =>
    if dramBase ≤ key then dramStore (key - dramBase) st.bytes st.ecc d else storeBytes key st.bytes st.ecc d

/-- The oldest buffered store of a core reaches its target. -/
def drainOldest (n : CoreId) (d : Dev) : Dev :=
  match d.cores[n].stores with
  | [] => d
  | st :: rest => performStore n st (modifyCore n (fun c => { c with stores := rest }) d)

/-- Every buffered store of a core reaches its target (R84, FENCE.W). -/
def drainAll (n : CoreId) (d : Dev) : Dev := iter d.cores[n].stores.length (drainOldest n) d

/-- A store enters the buffer; a full buffer first lets its oldest go (R78). -/
def bufferStore (n : CoreId) (st : CoreStore) (d : Dev) : Dev :=
  let d1 := if 16 ≤ d.cores[n].stores.length then drainOldest n d else d
  modifyCore n (fun c => { c with stores := c.stores ++ [st] }) d1

/-! ## Exceptions and interrupts (R273, R274, R276, R278) -/

/-- ECAUSE from code, subcode and the deferred bit. -/
def causeWord (code sub : Nat) (deferred : Bool) : Word :=
  BitVec.ofNat 32 (code + sub * 256 + if deferred then 2 ^ 31 else 0)

/-- CTL at an entry: PIE := IE, PUM := UM, IE := 0, UM := 0, EXL := 1, RPEND as given. -/
def entryCtl (w : Word) (rpend : Bool) : Word :=
  let w1 := putBit (putBit w ctlPIE (w.getLsbD ctlIE)) ctlPUM (w.getLsbD ctlUM)
  putBit (putBit (putBit (putBit w1 ctlIE false) ctlUM false) ctlEXL true) ctlRPEND rpend

/-- A core after steps 2 to 4 of R273; an interrupted repeat saves the prefix and what is left of it (R294). -/
def entryCore (cause epc eval : Word) (vector : Nat) (c : FxCore) : FxCore :=
  let c1 :=
    { c with
      epc := match c.rep with
        | some r => r.prefixAt
        | none => epc
      ecause := cause
      eval := eval
      ctl := entryCtl c.ctl c.rep.isSome
      pc := c.vbr + BitVec.ofNat 32 vector }
  match c.rep with
  | some r => { c1 with erc := BitVec.ofNat 32 r.left, rep := none }
  | none => c1

/-- Detail of a core record (R526 class 0x09). -/
def coreDetail (n : CoreId) (c : FxCore) : Bytes :=
  leBytes 4 n.val ++ leBytes 4 c.epc.toNat ++ leBytes 4 c.ecause.toNat ++ leBytes 4 c.eval.toNat

/-- A core halts; the halt of a supervisor core resets the device (R274). -/
def haltCore (n : CoreId) (d : Dev) : Dev :=
  let d1 := modifyCore n (fun c => { c with run := .halted }) d
  let d2 := raiseEvent (logError 0x09 2 1 0x0FA (coreDetail n d1.cores[n]) (gaugeCount 0x0FA d1))
  if CoreId.isSupervisor n then deviceReset 2 d2 else d2

/-- What the runtime does with an exception of a user program: a system call acts after FENCE.W, any other fails the invocation (R338, R339,
R344).  `before` is the core before the entry. -/
def runtimeTakes (n : CoreId) (before : FxCore) (call : Option Nat) (d : Dev) : Dev :=
  if !userMode before then d
  else match call with
    | some imm => systemCall n imm (if (callOn d n).isSome then drainAll n d else d)
    | none => programException n d

/-- Taking a synchronous exception: every outstanding load returns first and poison turns the entry into a data abort; with EXL set the core
halts (R273, R274, R277). -/
def takeException (n : CoreId) (code sub : Nat) (deferred : Bool) (epc eval : Word) (d : Dev) : Dev :=
  let r := returnLoads (fun _ => true) d.cores[n]
  let d1 := modifyCore n (fun _ => { r.2 with run := .running }) d
  if ctl d1.cores[n] ctlEXL then haltCore n d1
  else match r.1 with
    | some a => runtimeTakes n d1.cores[n] none (modifyCore n (entryCore (causeWord 7 2 true) epc a 0) d1)
    | none =>
      runtimeTakes n d1.cores[n] (if code = 9 then some eval.toNat else none)
        (modifyCore n (entryCore (causeWord code sub deferred) epc eval 0) d1)

/-- Sources pending at a core (R271, R278). -/
def ipend (d : Dev) (n : CoreId) : Word :=
  let c := d.cores[n]
  let timer := decide (c.tch.toNat * 2 ^ 32 + c.tcl.toNat ≤ d.tm % 2 ^ 64)
  let all := (c.latched.toNat ||| c.level.toNat ||| (if timer then 4 else 0)) % 256
  BitVec.ofNat 32 (if CoreId.isSupervisor n then all else all &&& 0x1E)

/-- Sources pending and enabled. -/
def enabledPending (d : Dev) (n : CoreId) : Word := ipend d n &&& d.cores[n].imask &&& 0xFF

/-- The pending enabled source of the highest priority, which is the lowest number (R278). -/
def nextSource (d : Dev) (n : CoreId) : Option Nat := findBelow (fun i => (enabledPending d n).getLsbD i) 8

/-- True when an interrupt may be taken: IE set, EXL clear, no REP in progress (R278). -/
def mayInterrupt (c : FxCore) : Bool :=
  ctl c ctlIE && !ctl c ctlEXL && (match c.rep with
    | some r => r.interruptible
    | none => true)

/-- Taking an interrupt (R273, R278). -/
def takeInterrupt (n : CoreId) (src : Nat) (d : Dev) : Dev :=
  let r := returnLoads (fun _ => true) d.cores[n]
  let d1 := modifyCore n (fun _ => { r.2 with run := .running }) d
  match r.1 with
  | some a => runtimeTakes n d1.cores[n] none (modifyCore n (entryCore (causeWord 7 2 true) d1.cores[n].pc a 0) d1)
  | none => modifyCore n (entryCore (causeWord (0x20 + src) 0 false) d1.cores[n].pc 0 0x100) d1

/-! ## Fetch (R281, R284) -/

/-- What fetching at the pc finds. -/
inductive FetchResult where
  /-- The word may issue. -/
  | ok
  /-- A DRAM line that no line buffer holds: the core waits for its fill. -/
  | noLine
  /-- No fetch rule allows the address. -/
  | window
  /-- The word reads poisoned. -/
  | poison
  deriving DecidableEq, Repr

/-- Cluster of a core; 8 stands for the supervisors (R263). -/
def clusterOf (n : CoreId) : Nat := n.val / 4

/-- True when a line is buffered. -/
def lineBuffered (d : Dev) (n : CoreId) (line : Nat) : Bool :=
  d.lineBufs.any fun l => l.1 = clusterOf n && l.2.1 = line

/-- Fetch at the pc of a core (R281). -/
def fetchAt (d : Dev) (n : CoreId) : FetchResult :=
  let c := d.cores[n]
  let inWindow := (codeWindow c c.pc).isSome
  match coreTarget d n c.pc with
  | .mem key =>
    if dramBase ≤ key then
      if !inWindow then .window else if lineBuffered d n ((key - dramBase) / 64) then .ok else .noLine
    else if localKey n 0 ≤ key ∧ key < localKey n 0x80000 then
      if userMode c && !inWindow then .window else if isPoisoned d (key / 4) then .poison else .ok
    else .window
  | .rom key => if userMode c then .window else if isPoisoned d (key / 4) then .poison else .ok
  | _ => .window

/-! ## Issue and retirement (R264, R290 to R295) -/

/-- How an instruction ends. -/
inductive FxNext where
  /-- In sequence. -/
  | seq
  /-- Transfer of control in a number of issue cycles (R322). -/
  | jump (target : Word) (cycles : Nat)
  /-- The instruction cannot go on yet: nothing happens. -/
  | stall
  /-- An exception with code, subcode and value; the instruction has had no effect. -/
  | trap (code sub : Nat) (eval : Word)
  deriving DecidableEq, Repr

/-- The check of R290 at the address of a retiring instruction: levels 3 down to 0. -/
def loopCheck (a : Word) : List (Fin 4) → FxCore → Word × FxCore
  | [], c => (a + 4, c)
  | k :: ks, c =>
    let l := c.loops[k]
    if l.count ≠ 0 ∧ l.stop = a then
      if 1 < l.count.toNat then
        (l.start, { c with loops := c.loops.set k { l with count := l.count - 1 } })
      else loopCheck a ks { c with loops := c.loops.set k { l with count := 0 } }
    else loopCheck a ks c

/-- A core after an instruction at `a` has retired in sequence (R290). -/
def retireSeq (a : Word) (c : FxCore) : FxCore :=
  let r := loopCheck a [3, 2, 1, 0] c
  { r.2 with pc := r.1 }

/-- A repetition done, or the instruction retired (R293, R295). -/
def retire (a : Word) (c : FxCore) : FxCore :=
  match c.rep with
  | none => retireSeq a c
  | some r => if r.left ≤ 1 then retireSeq a { c with rep := none } else { c with rep := some { r with left := r.left - 1 } }

/-- True while a core's island is clocked: in Run and Trim, and in an exit from Slumber from its stage on (R426, R441). -/
def coreClocked (d : Dev) (n : CoreId) : Bool :=
  d.power.phase ≠ .off && (decide (d.power.state < 2) || (d.power.state = 3 && match d.power.exiting with
    | some k => if CoreId.isSupervisor n then decide (1 ≤ k) else if n.val < 16 then decide (6 ≤ k) else decide (7 ≤ k)
    | none => false))

/-- True when a core executes; a core in WAIT goes on once an enabled source is pending (R275). -/
def coreIssues (d : Dev) (n : CoreId) : Bool :=
  coreExists d.variant n && coreClocked d n && match d.cores[n].run with
    | .running => true
    | .waiting => enabledPending d n ≠ 0
    | _ => false

/-- What an instruction does once its operands are there: how it ends, and the part with its effect. -/
abbrev FxBody := Word → Dev → FxNext × Dev

/-- Issue of an instruction whose operands have come: its body, its cycles and its retirement. -/
def fxExecute (n : CoreId) (cycles : Nat) (body : FxBody) (d : Dev) : Dev :=
  let a := d.cores[n].pc
  match body a d with
  | (.trap code sub v, _) => takeException n code sub false a v d
  | (.seq, d1) => modifyCore n (fun c => retire a { c with cycle := c.cycle + cycles }) d1
  | (.jump t k, d1) => modifyCore n (fun c => { c with pc := t, cycle := c.cycle + k }) d1
  | (.stall, _) => d

/-- Issue of an instruction: fetch checks, results that land, loads that the named registers wait for, then execution (R264, R277, R281).
A core that does not issue, waits for a line, or stands at another word of a repeat, is left as it is. -/
def fxIssue (n : CoreId) (word : Word) (uses : List Reg) (cycles : Nat) (body : FxBody) (d : Dev) : Dev :=
  if !coreIssues d n then d
  else if d.cores[n].rep.any (fun r => decide (r.word ≠ word)) then d
  else
    let d0 := modifyCore n (fun c => landDue { c with run := .running }) d
    let pc := d0.cores[n].pc
    match fetchAt d0 n with
    | .noLine => d0
    | .window => takeException n 3 0 false pc pc d0
    | .poison => takeException n 5 0 false pc pc d0
    | .ok =>
      let r := returnLoads (fun l => l.dests.any fun rv => uses.contains rv.1) d0.cores[n]
      let d1 := modifyCore n (fun _ => r.2) d0
      match r.1 with
      | some a => takeException n 7 2 true pc a d1
      | none => fxExecute n cycles body d1

/-- An instruction that changes only its core. -/
def fxCoreOp (n : CoreId) (word : Word) (uses : List Reg) (cycles : Nat) (f : FxCore → FxCore) (d : Dev) : Dev :=
  fxIssue n word uses cycles (fun _ d => (.seq, modifyCore n f d)) d

/-- A result and its FL written to a core. -/
def writeAlu (rd : Reg) (o : AluOut) (c : FxCore) : FxCore := rset rd o.1 { c with fl := o.2 }

end Sys2Proof.Machine
end

