-- ==== Sys2Proof/Machine/FxAlu.lean ====
section
/-! DEFINITION. Machine/FxAlu.lean: the integer, immediate, shift, multiply, divide and packed-decimal instructions of FX32 (R302 to R312). -/
namespace Sys2Proof.Machine

/-- ADD: rd := ra + rb, flags Z N C V (R304). -/
def execFxAdd (n : CoreId) (rd ra rb : Reg) (s : State) : Host.Outcome State Fault Refusal :=
  run (fxCoreOp n (encR 0 rd.val ra.val rb.val 0 1) [rd, ra, rb] 1 fun c => writeAlu rd (addOut (rget c ra) (rget c rb) false c.fl) c) s

/-- ADC: rd := ra + rb + C (R304). -/
def execFxAdc (n : CoreId) (rd ra rb : Reg) (s : State) : Host.Outcome State Fault Refusal :=
  run (fxCoreOp n (encR 0 rd.val ra.val rb.val 0 2) [rd, ra, rb] 1 fun c => writeAlu rd (addOut (rget c ra) (rget c rb) (flag c.fl flC) c.fl) c) s

/-- SUB: rd := ra - rb (R304). -/
def execFxSub (n : CoreId) (rd ra rb : Reg) (s : State) : Host.Outcome State Fault Refusal :=
  run (fxCoreOp n (encR 0 rd.val ra.val rb.val 0 3) [rd, ra, rb] 1 fun c => writeAlu rd (subOut (rget c ra) (rget c rb) false c.fl) c) s

/-- SBC: rd := ra - rb - C (R304). -/
def execFxSbc (n : CoreId) (rd ra rb : Reg) (s : State) : Host.Outcome State Fault Refusal :=
  run (fxCoreOp n (encR 0 rd.val ra.val rb.val 0 4) [rd, ra, rb] 1 fun c => writeAlu rd (subOut (rget c ra) (rget c rb) (flag c.fl flC) c.fl) c) s

/-- AND, flags Z N (R304). -/
def execFxAnd (n : CoreId) (rd ra rb : Reg) (s : State) : Host.Outcome State Fault Refusal :=
  run (fxCoreOp n (encR 0 rd.val ra.val rb.val 0 7) [rd, ra, rb] 1 fun c => writeAlu rd (logicOut (rget c ra &&& rget c rb) c.fl) c) s

/-- OR, flags Z N (R304). -/
def execFxOr (n : CoreId) (rd ra rb : Reg) (s : State) : Host.Outcome State Fault Refusal :=
  run (fxCoreOp n (encR 0 rd.val ra.val rb.val 0 8) [rd, ra, rb] 1 fun c => writeAlu rd (logicOut (rget c ra ||| rget c rb) c.fl) c) s

/-- XOR, flags Z N (R304). -/
def execFxXor (n : CoreId) (rd ra rb : Reg) (s : State) : Host.Outcome State Fault Refusal :=
  run (fxCoreOp n (encR 0 rd.val ra.val rb.val 0 9) [rd, ra, rb] 1 fun c => writeAlu rd (logicOut (rget c ra ^^^ rget c rb) c.fl) c) s

/-- LSL by rb[5:0] (R304, R306). -/
def execFxLsl (n : CoreId) (rd ra rb : Reg) (s : State) : Host.Outcome State Fault Refusal :=
  run (fxCoreOp n (encR 0 rd.val ra.val rb.val 0 16) [rd, ra, rb] 1 fun c => writeAlu rd (lslOut (rget c ra) ((rget c rb).toNat % 64) c.fl) c) s

/-- LSR by rb[5:0] (R304, R306). -/
def execFxLsr (n : CoreId) (rd ra rb : Reg) (s : State) : Host.Outcome State Fault Refusal :=
  run (fxCoreOp n (encR 0 rd.val ra.val rb.val 0 17) [rd, ra, rb] 1 fun c => writeAlu rd (lsrOut (rget c ra) ((rget c rb).toNat % 64) c.fl) c) s

/-- ASR by rb[5:0] (R304, R306). -/
def execFxAsr (n : CoreId) (rd ra rb : Reg) (s : State) : Host.Outcome State Fault Refusal :=
  run (fxCoreOp n (encR 0 rd.val ra.val rb.val 0 18) [rd, ra, rb] 1 fun c => writeAlu rd (asrOut (rget c ra) ((rget c rb).toNat % 64) c.fl) c) s

/-- ROR by rb[4:0] (R304, R306). -/
def execFxRor (n : CoreId) (rd ra rb : Reg) (s : State) : Host.Outcome State Fault Refusal :=
  run (fxCoreOp n (encR 0 rd.val ra.val rb.val 0 19) [rd, ra, rb] 1 fun c => writeAlu rd (rorOut (rget c ra) ((rget c rb).toNat % 32) c.fl) c) s

/-- NEG: rd := 0 - ra (R304, R309). -/
def execFxNeg (n : CoreId) (rd ra : Reg) (s : State) : Host.Outcome State Fault Refusal :=
  run (fxCoreOp n (encR 0 rd.val ra.val 0 0 5) [rd, ra] 1 fun c => writeAlu rd (subOut 0 (rget c ra) false c.fl) c) s

/-- CMP: ra - rb, flags only (R304). -/
def execFxCmp (n : CoreId) (ra rb : Reg) (s : State) : Host.Outcome State Fault Refusal :=
  run (fxCoreOp n (encR 0 0 ra.val rb.val 0 6) [ra, rb] 1 fun c => { c with fl := (subOut (rget c ra) (rget c rb) false c.fl).2 }) s

/-- TST: ra AND rb, flags Z N only (R304). -/
def execFxTst (n : CoreId) (ra rb : Reg) (s : State) : Host.Outcome State Fault Refusal :=
  run (fxCoreOp n (encR 0 0 ra.val rb.val 0 10) [ra, rb] 1 fun c => { c with fl := (logicOut (rget c ra &&& rget c rb) c.fl).2 }) s

/-- CLZ: leading zero bits, no flag (R304). -/
def execFxClz (n : CoreId) (rd ra : Reg) (s : State) : Host.Outcome State Fault Refusal :=
  run (fxCoreOp n (encR 0 rd.val ra.val 0 0 11) [rd, ra] 1 fun c => rset rd (BitVec.ofNat 32 (clz32 (rget c ra))) c) s

/-- BSWAP: the four bytes reversed, no flag (R304). -/
def execFxBswap (n : CoreId) (rd ra : Reg) (s : State) : Host.Outcome State Fault Refusal :=
  run (fxCoreOp n (encR 0 rd.val ra.val 0 0 12) [rd, ra] 1 fun c => rset rd (bswap32 (rget c ra)) c) s

/-- SEXTB: ra[7:0] sign-extended, no flag (R304). -/
def execFxSextb (n : CoreId) (rd ra : Reg) (s : State) : Host.Outcome State Fault Refusal :=
  run (fxCoreOp n (encR 0 rd.val ra.val 0 0 13) [rd, ra] 1 fun c => rset rd (((rget c ra).extractLsb' 0 8).signExtend 32) c) s

/-- SEXTH: ra[15:0] sign-extended, no flag (R304). -/
def execFxSexth (n : CoreId) (rd ra : Reg) (s : State) : Host.Outcome State Fault Refusal :=
  run (fxCoreOp n (encR 0 rd.val ra.val 0 0 14) [rd, ra] 1 fun c => rset rd (((rget c ra).extractLsb' 0 16).signExtend 32) c) s

/-- LSLI by an immediate count (R304, R306). -/
def execFxLsli (n : CoreId) (rd ra : Reg) (sh : BitVec 5) (s : State) : Host.Outcome State Fault Refusal :=
  run (fxCoreOp n (encR 0 rd.val ra.val 0 sh.toNat 20) [rd, ra] 1 fun c => writeAlu rd (lslOut (rget c ra) sh.toNat c.fl) c) s

/-- LSRI by an immediate count (R304, R306). -/
def execFxLsri (n : CoreId) (rd ra : Reg) (sh : BitVec 5) (s : State) : Host.Outcome State Fault Refusal :=
  run (fxCoreOp n (encR 0 rd.val ra.val 0 sh.toNat 21) [rd, ra] 1 fun c => writeAlu rd (lsrOut (rget c ra) sh.toNat c.fl) c) s

/-- ASRI by an immediate count (R304, R306). -/
def execFxAsri (n : CoreId) (rd ra : Reg) (sh : BitVec 5) (s : State) : Host.Outcome State Fault Refusal :=
  run (fxCoreOp n (encR 0 rd.val ra.val 0 sh.toNat 22) [rd, ra] 1 fun c => writeAlu rd (asrOut (rget c ra) sh.toNat c.fl) c) s

/-- RORI by an immediate count (R304, R306). -/
def execFxRori (n : CoreId) (rd ra : Reg) (sh : BitVec 5) (s : State) : Host.Outcome State Fault Refusal :=
  run (fxCoreOp n (encR 0 rd.val ra.val 0 sh.toNat 23) [rd, ra] 1 fun c => writeAlu rd (rorOut (rget c ra) sh.toNat c.fl) c) s

/-- ADDI: ra plus the sign-extended immediate, no flag (R305). -/
def execFxAddi (n : CoreId) (rd ra : Reg) (imm : BitVec 16) (s : State) : Host.Outcome State Fault Refusal :=
  run (fxCoreOp n (encI 4 rd.val ra.val imm) [rd, ra] 1 fun c => rset rd (rget c ra + imm.signExtend 32) c) s

/-- ANDI with the zero-extended immediate, no flag (R305). -/
def execFxAndi (n : CoreId) (rd ra : Reg) (imm : BitVec 16) (s : State) : Host.Outcome State Fault Refusal :=
  run (fxCoreOp n (encI 5 rd.val ra.val imm) [rd, ra] 1 fun c => rset rd (rget c ra &&& imm.setWidth 32) c) s

/-- ORI, no flag (R305). -/
def execFxOri (n : CoreId) (rd ra : Reg) (imm : BitVec 16) (s : State) : Host.Outcome State Fault Refusal :=
  run (fxCoreOp n (encI 6 rd.val ra.val imm) [rd, ra] 1 fun c => rset rd (rget c ra ||| imm.setWidth 32) c) s

/-- XORI, no flag (R305). -/
def execFxXori (n : CoreId) (rd ra : Reg) (imm : BitVec 16) (s : State) : Host.Outcome State Fault Refusal :=
  run (fxCoreOp n (encI 7 rd.val ra.val imm) [rd, ra] 1 fun c => rset rd (rget c ra ^^^ imm.setWidth 32) c) s

/-- LUI: rd := imm16 << 16, no flag (R305). -/
def execFxLui (n : CoreId) (rd : Reg) (imm : BitVec 16) (s : State) : Host.Outcome State Fault Refusal :=
  run (fxCoreOp n (encI 8 rd.val 0 imm) [rd] 1 fun c => rset rd (imm.setWidth 32 <<< 16) c) s

/-- CMPI: ra minus the sign-extended immediate, flags only (R305). -/
def execFxCmpi (n : CoreId) (ra : Reg) (imm : BitVec 16) (s : State) : Host.Outcome State Fault Refusal :=
  run (fxCoreOp n (encI 9 0 ra.val imm) [ra] 1 fun c => { c with fl := (subOut (rget c ra) (imm.signExtend 32) false c.fl).2 }) s

/-- MUL: the product lands at the end of cycle c + 2; no flag (R296, R307). -/
def execFxMul (n : CoreId) (ra rb : Reg) (s : State) : Host.Outcome State Fault Refusal :=
  run (fxCoreOp n (encR 2 0 ra.val rb.val 0 1) [ra, rb] 1 fun c =>
    { c with products := c.products ++ [(c.cycle + 2, mulSigned (rget c ra) (rget c rb))] }) s

/-- MULU: the product lands at the end of cycle c + 2; no flag (R296, R307). -/
def execFxMulu (n : CoreId) (ra rb : Reg) (s : State) : Host.Outcome State Fault Refusal :=
  run (fxCoreOp n (encR 2 0 ra.val rb.val 0 2) [ra, rb] 1 fun c =>
    { c with products := c.products ++ [(c.cycle + 2, mulUnsigned (rget c ra) (rget c rb))] }) s

/-- A divide issued while another is in flight waits until that one has landed (R297). -/
def awaitDivider (c : FxCore) : FxCore :=
  match c.divide with
  | some (l, q, r) => landProducts { c with qt := q, rm := r, divide := none, cycle := max c.cycle (l + 1) }
  | none => c

/-- DIV or DIVU: with DZT set a zero divisor raises DIVIDE and the divider does not start; else the flags are set at issue and the result lands
at the end of cycle c + 19 (R297, R308). -/
def fxDivide (n : CoreId) (ra rb : Reg) (quot : Word → Word → Word × Word) (flags : Word → Word → Word → Word) : FxBody := fun _ d =>
  let c := awaitDivider d.cores[n]
  let x := rget c ra
  let y := rget c rb
  if y = 0 ∧ ctl c ctlDZT then (.trap 8 0 x, d)
  else (.seq, modifyCore n (fun _ => { c with divide := some (c.cycle + 19, quot x y), fl := flags x y c.fl }) d)

/-- DIV (R297, R308). -/
def execFxDiv (n : CoreId) (ra rb : Reg) (s : State) : Host.Outcome State Fault Refusal :=
  run (fxIssue n (encR 2 0 ra.val rb.val 0 3) [ra, rb] 1 (fxDivide n ra rb divSigned divFlags)) s

/-- DIVU (R297, R308). -/
def execFxDivu (n : CoreId) (ra rb : Reg) (s : State) : Host.Outcome State Fault Refusal :=
  run (fxIssue n (encR 2 0 ra.val rb.val 0 4) [ra, rb] 1 (fxDivide n ra rb divUnsigned fun _ y fl => divuFlags y fl)) s

/-- DADD: decimal sum modulo 10^8 (R311). -/
def execFxDadd (n : CoreId) (rd ra rb : Reg) (s : State) : Host.Outcome State Fault Refusal :=
  run (fxCoreOp n (encR 3 rd.val ra.val rb.val 0 1) [rd, ra, rb] 1 fun c => writeAlu rd (daddOut (rget c ra) (rget c rb) false c.fl) c) s

/-- DADC: decimal sum with DC as carry (R311). -/
def execFxDadc (n : CoreId) (rd ra rb : Reg) (s : State) : Host.Outcome State Fault Refusal :=
  run (fxCoreOp n (encR 3 rd.val ra.val rb.val 0 2) [rd, ra, rb] 1 fun c => writeAlu rd (daddOut (rget c ra) (rget c rb) (flag c.fl flDC) c.fl) c) s

/-- DSUB: decimal difference modulo 10^8 (R311). -/
def execFxDsub (n : CoreId) (rd ra rb : Reg) (s : State) : Host.Outcome State Fault Refusal :=
  run (fxCoreOp n (encR 3 rd.val ra.val rb.val 0 3) [rd, ra, rb] 1 fun c => writeAlu rd (dsubOut (rget c ra) (rget c rb) false c.fl) c) s

/-- DSBC: decimal difference with DC as borrow (R311). -/
def execFxDsbc (n : CoreId) (rd ra rb : Reg) (s : State) : Host.Outcome State Fault Refusal :=
  run (fxCoreOp n (encR 3 rd.val ra.val rb.val 0 4) [rd, ra, rb] 1 fun c => writeAlu rd (dsubOut (rget c ra) (rget c rb) (flag c.fl flDC) c.fl) c) s

/-- DADJ: nibbles normalised (R311). -/
def execFxDadj (n : CoreId) (rd ra : Reg) (s : State) : Host.Outcome State Fault Refusal :=
  run (fxCoreOp n (encR 3 rd.val ra.val 0 0 5) [rd, ra] 1 fun c => writeAlu rd (dadjOut (rget c ra) c.fl) c) s

/-- DCVT: the BCD of ra mod 10^8, six issue cycles (R311, R322). -/
def execFxDcvt (n : CoreId) (rd ra : Reg) (s : State) : Host.Outcome State Fault Refusal :=
  run (fxCoreOp n (encR 3 rd.val ra.val 0 0 6) [rd, ra] 6 fun c => writeAlu rd (dcvtOut (rget c ra) c.fl) c) s

/-- DTXTL: text of digits 3 to 0 (R312). -/
def execFxDtxtl (n : CoreId) (rd ra : Reg) (s : State) : Host.Outcome State Fault Refusal :=
  run (fxCoreOp n (encR 3 rd.val ra.val 0 0 7) [rd, ra] 1 fun c => writeAlu rd (dtxtOut (rget c ra) 0 c.fl) c) s

/-- DTXTH: text of digits 7 to 4 (R312). -/
def execFxDtxth (n : CoreId) (rd ra : Reg) (s : State) : Host.Outcome State Fault Refusal :=
  run (fxCoreOp n (encR 3 rd.val ra.val 0 0 8) [rd, ra] 1 fun c => writeAlu rd (dtxtOut (rget c ra) 4 c.fl) c) s

/-- DLZ: leading zero digits (R311). -/
def execFxDlz (n : CoreId) (rd ra : Reg) (s : State) : Host.Outcome State Fault Refusal :=
  run (fxCoreOp n (encR 3 rd.val ra.val 0 0 9) [rd, ra] 1 fun c => writeAlu rd (dlzOut (rget c ra) c.fl) c) s

end Sys2Proof.Machine
end

