-- ==== Sys2Proof/Machine/FxControl.lean ====
section
/-! DEFINITION. Machine/FxControl.lean: control transfer, hardware loops, the repeat prefix, special registers, fences and the other system
instructions of FX32 (R289 to R295, R317 to R321, R84, R285), SYS apart (Machine/Runtime.lean). -/
namespace Sys2Proof.Machine

/-! ## Control transfer (R317) -/

/-- BCC: continues at a + 4 * off when the condition holds (R303, R317). -/
def execFxBcc (n : CoreId) (cond : BitVec 4) (off : BitVec 22) (s : State) : Host.Outcome State Fault Refusal :=
  run (fxIssue n (encB cond off) [] 1 fun a d =>
    if condHolds cond d.cores[n].fl then (.jump (a + (off.signExtend 32 <<< 2)) 2, d) else (.seq, d)) s

/-- J: continues at a + 4 * off (R317). -/
def execFxJ (n : CoreId) (off : BitVec 26) (s : State) : Host.Outcome State Fault Refusal :=
  run (fxIssue n (encJ 0x21 off) [] 1 fun a d => (.jump (a + (off.signExtend 32 <<< 2)) 2, d)) s

/-- CALL: as J, with a + 4 to lr (R317). -/
def execFxCall (n : CoreId) (off : BitVec 26) (s : State) : Host.Outcome State Fault Refusal :=
  run (fxIssue n (encJ 0x22 off) [lrReg] 1 fun a d =>
    (.jump (a + (off.signExtend 32 <<< 2)) 2, modifyCore n (rset lrReg (a + 4)) d)) s

/-- JR: continues at ra with bits [1:0] read as 0 (R317). -/
def execFxJr (n : CoreId) (ra : Reg) (s : State) : Host.Outcome State Fault Refusal :=
  run (fxIssue n (encR 0x23 0 ra.val 0 0 1) [ra] 1 fun _ d => (.jump (rget d.cores[n] ra &&& 0xFFFFFFFC) 2, d)) s

/-- CALLR: as JR, with a + 4 to lr after ra has been read (R317). -/
def execFxCallr (n : CoreId) (ra : Reg) (s : State) : Host.Outcome State Fault Refusal :=
  run (fxIssue n (encR 0x23 0 ra.val 0 0 2) [ra, lrReg] 1 fun a d =>
    (.jump (rget d.cores[n] ra &&& 0xFFFFFFFC) 2, modifyCore n (rset lrReg (a + 4)) d)) s

/-! ## Hardware loops (R289, R318) -/

/-- A loop level set up: start after the instruction, last instruction of the body, count; a count of 0 skips the body (R318). -/
def fxLoop (n : CoreId) (k : LoopLevel) (len : BitVec 11) (count : FxCore → Word) : FxBody := fun a d =>
  let v := count d.cores[n]
  let last := a + BitVec.ofNat 32 (4 * (len.toNat + 1))
  let d1 := modifyCore n (fun c => { c with loops := c.loops.set k { start := a + 4, stop := last, count := v } }) d
  if v = 0 then (.jump (last + 4) 1, d1) else (.seq, d1)

/-- LOOP: the count comes from ra (R318). -/
def execFxLoop (n : CoreId) (k : LoopLevel) (len : BitVec 11) (ra : Reg) (s : State) : Host.Outcome State Fault Refusal :=
  run (fxIssue n (encL 0x28 k.val len (ra.val * 256)) [ra] 1 (fxLoop n k len fun c => rget c ra)) s

/-- LOOPI: the count is the 13-bit field (R318). -/
def execFxLoopi (n : CoreId) (k : LoopLevel) (len : BitVec 11) (count : BitVec 13) (s : State) :
    Host.Outcome State Fault Refusal :=
  run (fxIssue n (encL 0x29 k.val len count.toNat) [] 1 (fxLoop n k len fun _ => count.setWidth 32)) s

/-! ## Repeat prefix (R292 to R295) -/

/-- A prefix before the word `next`: absent on a service core, privileged, refused before the words of R295; the latched count is ERC when
RPEND is set, which it clears, and RC otherwise. -/
def fxRepeat (n : CoreId) (interruptible : Bool) (word next : Word) : FxBody := fun a d =>
  let c := d.cores[n]
  if !CoreId.isSupervisor n then (.trap 1 0 word, d)
  else if userMode c then (.trap 2 0 word, d)
  else if fxUnrepeatable next then (.trap 1 0 word, d)
  else
    let count := if ctl c ctlRPEND then c.erc else c.rc
    let c1 := { c with ctl := putBit c.ctl ctlRPEND false }
    if !interruptible && decide (4096 < count.toNat) then (.trap 0x0B 0 count, d)
    else if count = 0 then
      let c2 := retireSeq (a + 4) c1
      (.jump c2.pc 1, modifyCore n (fun _ => c2) d)
    else
      (.jump (a + 4) 1, modifyCore n (fun _ =>
        { c1 with rep := some { interruptible := interruptible, prefixAt := a, word := next, left := count.toNat } }) d)

/-- REP: not interruptible, at most 4,096 repetitions (R292, R295). -/
def execFxRep (n : CoreId) (next : Word) (s : State) : Host.Outcome State Fault Refusal :=
  run (fxIssue n 0xA8000000 [] 1 (fxRepeat n false 0xA8000000 next)) s

/-- REPI: takes interrupts between repetitions (R292). -/
def execFxRepi (n : CoreId) (next : Word) (s : State) : Host.Outcome State Fault Refusal :=
  run (fxIssue n 0xA8000001 [] 1 (fxRepeat n true 0xA8000001 next)) s

/-! ## Special registers (R267, R320) -/

/-- Whether only kernel mode reaches a special register (R267). -/
def specKernel (k : Nat) : Bool :=
  decide (k = 1 ∨ (2 ≤ k ∧ k ≤ 8) ∨ k = 0x1C ∨ k = 0x1D ∨ k = 0x22 ∨ k = 0x23 ∨ (0x25 ≤ k ∧ k ≤ 0x27))

/-- Whether the number names a register of the core (R267). -/
def specListed (n : CoreId) (k : Nat) : Bool :=
  decide (k ≤ 0x0C ∨ (0x10 ≤ k ∧ k ≤ 0x1B) ∨ (0x20 ≤ k ∧ k ≤ 0x27)) ||
    (CoreId.isSupervisor n && decide (k = 0x1C ∨ k = 0x1D))

/-- The value of a special register (R267). -/
def specRead (d : Dev) (n : CoreId) (k : Nat) : Word :=
  let c := d.cores[n]
  let loop (i : Nat) : LoopRegs := (c.loops.toList).getD i {}
  match k with
  | 0x00 => c.fl
  | 0x01 => c.ctl
  | 0x02 => c.epc
  | 0x03 => c.ecause
  | 0x04 => c.eval
  | 0x05 => c.vbr
  | 0x06 => ipend d n
  | 0x07 => c.imask
  | 0x09 => c.ph
  | 0x0A => c.pl
  | 0x0B => c.qt
  | 0x0C => c.rm
  | 0x1C => c.rc
  | 0x1D => c.erc
  | 0x20 => BitVec.ofNat 32 d.tm
  | 0x21 => BitVec.ofNat 32 (d.tm / 2 ^ 32)
  | 0x22 => c.tcl
  | 0x23 => c.tch
  | 0x24 => BitVec.ofNat 32 (n.val + if CoreId.isSupervisor n then 64 else 0)
  | 0x25 => c.dab0
  | 0x26 => c.dab1
  | 0x27 => c.serr
  | k =>
    if 0x10 ≤ k ∧ k ≤ 0x13 then (loop (k - 0x10)).start
    else if 0x14 ≤ k ∧ k ≤ 0x17 then (loop (k - 0x14)).stop
    else if 0x18 ≤ k ∧ k ≤ 0x1B then (loop (k - 0x18)).count
    else 0

/-- A loop register written (R289). -/
def setLoop (i : Nat) (f : LoopRegs → LoopRegs) (c : FxCore) : FxCore :=
  if h : i < 4 then { c with loops := c.loops.set i (f c.loops[i]) } else c

/-- A special register written; reserved bits keep reading 0 (R267, R320).  A user-mode write of CTL changes DZT only (R269). -/
def specWrite (k : Nat) (v : Word) (c : FxCore) : FxCore :=
  match k with
  | 0x00 => { c with fl := v &&& 0x3F }
  | 0x01 => if userMode c then { c with ctl := putBit c.ctl ctlDZT (v.getLsbD ctlDZT) } else { c with ctl := v &&& 0x7F }
  | 0x02 => { c with epc := v }
  | 0x03 => { c with ecause := v &&& 0x8000FFFF }
  | 0x04 => { c with eval := v }
  | 0x05 => { c with vbr := v &&& 0xFFFFFC00 }
  | 0x07 => { c with imask := v }
  | 0x08 => { c with latched := c.latched &&& ~~~(v.setWidth 8) }
  | 0x09 => { c with ph := v }
  | 0x0A => { c with pl := v }
  | 0x0B => { c with qt := v }
  | 0x0C => { c with rm := v }
  | 0x1C => { c with rc := v }
  | 0x1D => { c with erc := v }
  | 0x22 => { c with tcl := v }
  | 0x23 => { c with tch := v }
  | 0x25 => { c with dab0 := v }
  | 0x26 => { c with dab1 := v }
  | k =>
    if 0x10 ≤ k ∧ k ≤ 0x13 then setLoop (k - 0x10) (fun l => { l with start := v &&& 0xFFFFFFFC }) c
    else if 0x14 ≤ k ∧ k ≤ 0x17 then setLoop (k - 0x14) (fun l => { l with stop := v &&& 0xFFFFFFFC }) c
    else if 0x18 ≤ k ∧ k ≤ 0x1B then setLoop (k - 0x18) (fun l => { l with count := v }) c
    else c

/-- MFS rd, spec (R320): an unlisted number and IACK raise ILLEGAL, a kernel register in user mode PRIVILEGE. -/
def execFxMfs (n : CoreId) (rd : Reg) (spec : BitVec 6) (s : State) : Host.Outcome State Fault Refusal :=
  let w := encS rd.val 0 spec 0
  run (fxIssue n w [rd] 1 fun _ d =>
    let k := spec.toNat
    if !specListed n k then (.trap 1 0 w, d)
    else if specKernel k && userMode d.cores[n] then (.trap 2 0 w, d)
    else if k = 8 then (.trap 1 0 w, d)
    else (.seq, modifyCore n (rset rd (specRead d n k)) d)) s

/-- MTS spec, ra (R320): an unlisted or read-only number raises ILLEGAL, a kernel register in user mode PRIVILEGE, CTL apart. -/
def execFxMts (n : CoreId) (spec : BitVec 6) (ra : Reg) (s : State) : Host.Outcome State Fault Refusal :=
  let w := encS 0 ra.val spec 1
  run (fxIssue n w [ra] 1 fun _ d =>
    let k := spec.toNat
    if !specListed n k then (.trap 1 0 w, d)
    else if specKernel k && decide (k ≠ 1) && userMode d.cores[n] then (.trap 2 0 w, d)
    else if k = 6 ∨ k = 0x20 ∨ k = 0x21 ∨ k = 0x24 ∨ k = 0x27 then (.trap 1 0 w, d)
    else (.seq, modifyCore n (fun c => specWrite k (rget c ra) c) d)) s

/-! ## Fences (R84, R277, R285, R320) -/

/-- FENCE.W: every earlier write of the core has reached its target. -/
def execFxFenceW (n : CoreId) (s : State) : Host.Outcome State Fault Refusal :=
  run (fxIssue n (encS 0 0 0 2) [] 1 fun _ d => (.seq, drainAll n d)) s

/-- Every earlier read has returned; a poisoned one is reported at the fence (R277). -/
def fenceReads (n : CoreId) (writes : Bool) (word : Word) (d : Dev) : Dev :=
  if !coreIssues d n then d
  else
    match (returnLoads (fun _ => true) (landDue d.cores[n])).1, fetchAt d n, d.cores[n].rep.any (fun r => decide (r.word ≠ word)) with
    | some a, .ok, false => takeException n 7 2 true d.cores[n].pc a d
    | _, _, _ =>
      fxIssue n word [] 1 (fun _ d =>
        let d1 := modifyCore n (fun c => (returnLoads (fun _ => true) c).2) d
        (.seq, if writes then drainAll n d1 else d1)) d

/-- FENCE.R. -/
def execFxFenceR (n : CoreId) (s : State) : Host.Outcome State Fault Refusal :=
  run (fenceReads n false (encS 0 0 0 3)) s

/-- FENCE.RW: both orders. -/
def execFxFenceRw (n : CoreId) (s : State) : Host.Outcome State Fault Refusal :=
  run (fenceReads n true (encS 0 0 0 4)) s

/-- FENCE.I: after the earlier writes are acknowledged, the cluster's line buffers other than the line being executed are discarded. -/
def execFxFenceI (n : CoreId) (s : State) : Host.Outcome State Fault Refusal :=
  run (fxIssue n (encS 0 0 0 5) [] 1 fun a d =>
    let d1 := drainAll n d
    let here := match coreTarget d1 n a with
      | .mem key => if dramBase ≤ key then (key - dramBase) / 64 else 2 ^ 40
      | _ => 2 ^ 40
    (.seq, { d1 with lineBufs := d1.lineBufs.filter fun l => l.1 ≠ clusterOf n || l.2.1 = here })) s

/-! ## ERET, WAIT, BRK, undefined words (R273, R275, R300, R321) -/

/-- ERET: PC := EPC, UM := PUM, IE := PIE, EXL := 0; PRIVILEGE in user mode.  The firmware's handler has emptied the conditions of its level
sources by then (log entry 10). -/
def execFxEret (n : CoreId) (s : State) : Host.Outcome State Fault Refusal :=
  let w := encS 0 0 0 6
  run (fxIssue n w [] 1 fun _ d =>
    let c := d.cores[n]
    if userMode c then (.trap 2 0 w, d)
    else
      let w1 := putBit (putBit c.ctl ctlUM (ctl c ctlPUM)) ctlIE (ctl c ctlPIE)
      (.jump c.epc 2, modifyCore n (fun c => { c with ctl := putBit w1 ctlEXL false, level := 0 }) d)) s

/-- WAIT: issue stops until an enabled source is pending (R275). -/
def execFxWait (n : CoreId) (s : State) : Host.Outcome State Fault Refusal :=
  run (fxIssue n (encS 0 0 0 7) [] 1 fun _ d =>
    (.seq, if enabledPending d n = 0 then modifyCore n (fun c => { c with run := .waiting }) d else d)) s

/-- BRK imm: raises BREAK with the immediate in EVAL (R321). -/
def execFxBrk (n : CoreId) (imm : BitVec 16) (s : State) : Host.Outcome State Fault Refusal :=
  run (fxIssue n (encI 0x32 0 0 imm) [] 1 fun _ d => (.trap 0x0A 0 (imm.setWidth 32), d)) s

/-- SYS imm: raises SYSCALL with the immediate in EVAL; on a core that runs a program the runtime then takes the call (R321, R338). -/
def execFxSys (n : CoreId) (imm : BitVec 16) (s : State) : Host.Outcome State Fault Refusal :=
  run (fxIssue n (encI 0x31 0 0 imm) [] 1 fun _ d => (.trap 9 0 (imm.setWidth 32), d)) s

/-- UNDEFINED_INSTRUCTION: a word that the tables do not define raises ILLEGAL with the word in EVAL (R300). -/
def execUndefinedInstruction (n : CoreId) (w : Word) (s : State) : Host.Outcome State Fault Refusal :=
  run (fun d => if fxDefined w then d else fxIssue n w [] 1 (fun _ d => (.trap 1 0 w, d)) d) s

end Sys2Proof.Machine
end

