-- ==== Sys2Proof/Machine/FxMem.lean ====
section
/-! DEFINITION. Machine/FxMem.lean: loads, stores and atomics of FX32 (R313 to R316), the device region (R283) and the core events of
memory (R277, R278, R283, R284). -/
namespace Sys2Proof.Machine

/-! ## The device region (R257, R283) -/

/-- A word of the device region as a load sees it. -/
def deviceWord (c : FxCore) (off : Nat) : Word :=
  let wide (x : BitVec 128) : Word := x.extractLsb' (8 * (off % 16)) 32
  if off < 0x10 then wide c.eddy.key
  else if off = 0x14 then c.eddy.part.setWidth 32
  else if off = 0x18 then c.eddy.result
  else if 0x20 ≤ off ∧ off < 0x30 then wide c.eddy.data
  else if off = 0x200 then c.mboxIn
  else if 0x400 ≤ off ∧ off < 0x480 then
    let w := (c.dwin.toList).getD ((off - 0x400) / 16) {}
    if off % 16 = 0 then w.base else if off % 16 = 4 then w.limit else if off % 16 = 8 then w.perm else 0
  else if 0x480 ≤ off ∧ off < 0x4C0 then
    let w := (c.cwin.toList).getD ((off - 0x480) / 16) {}
    if off % 16 = 0 then w.base else if off % 16 = 4 then w.limit else if off % 16 = 8 then w.check else 0
  else 0

/-- Bytes of the device region. -/
def deviceBytes (c : FxCore) (off : Nat) : Nat → Bytes
  | 0 => []
  | n + 1 => (deviceWord c (off / 4 * 4)).extractLsb' (8 * (off % 4)) 8 :: deviceBytes c (off + 1) n

/-- A byte field of a wide register replaced. -/
def putField (x : BitVec 128) (off : Nat) (bs : Bytes) : BitVec 128 := BitVec.ofNat 128 (leNat (overlay (leBytes 16 x.toNat) off bs))

/-- A register word of the device region written, with the bits its register keeps (R257, R280, R281). -/
def writeDeviceWord (off : Nat) (w : Word) (c : FxCore) : FxCore :=
  let lo := w &&& 0xFFFFFFC0
  let hi := w ||| 0x3F
  if off = 0x14 then { c with eddy := { c.eddy with part := w.setWidth 3 } }
  else if h : 0x400 ≤ off ∧ off < 0x480 then
    let k : Fin 8 := ⟨(off - 0x400) / 16, by omega⟩
    let x := c.dwin[k]
    let x' := if off % 16 = 0 then { x with base := lo }
      else if off % 16 = 4 then { x with limit := hi }
      else if off % 16 = 8 then { x with perm := w &&& 3 } else x
    { c with dwin := c.dwin.set k x' }
  else if h : 0x480 ≤ off ∧ off < 0x4C0 then
    let k : Fin 4 := ⟨(off - 0x480) / 16, by omega⟩
    let x := c.cwin[k]
    let x' := if off % 16 = 0 then { x with base := lo }
      else if off % 16 = 4 then { x with limit := hi }
      else if off % 16 = 8 then { x with check := w } else x
    { c with cwin := c.cwin.set k x' }
  else c

/-- A store of at most 4 bytes within one word of the device region, CMD apart. -/
def storeDevicePart (off : Nat) (bs : Bytes) (c : FxCore) : FxCore :=
  if off < 0x10 then { c with eddy := { c.eddy with key := putField c.eddy.key off bs } }
  else if 0x20 ≤ off ∧ off < 0x30 then { c with eddy := { c.eddy with data := putField c.eddy.data (off - 0x20) bs } }
  else
    let base := off / 4 * 4
    let old := leBytes 4 (deviceWord c base).toNat
    writeDeviceWord base (BitVec.ofNat 32 (leNat (overlay old (off % 4) bs))) c

/-- STORE_ERROR at a core with its address (R278). -/
def storeError (n : CoreId) (addr : Word) (d : Dev) : Dev :=
  gaugeCount 0x0FB (latchSource n 1 (modifyCore n (fun c => { c with serr := addr }) d))

/-- A value posted to a core's mailbox (R283). -/
def postMailbox (target : CoreId) (value : Word) (d : Dev) : Dev :=
  latchSource target 3 (modifyCore target (fun c => { c with mboxIn := value }) d)

/-- MBOX_POST with its 64-bit value: the target number and the value; a number that does not exist is refused (R283). -/
def mailboxStore (n : CoreId) (addr : Word) (v : Nat) (d : Dev) : Dev :=
  let t := bits v 37 32
  if h : t < 34 then
    if coreExists d.variant ⟨t, h⟩ then postMailbox ⟨t, h⟩ (BitVec.ofNat 32 v) d else storeError n addr d
  else storeError n addr d

/-- A store to the device region; none where the core stalls on a full queue (R241, R283, R315). -/
def deviceStore (n : CoreId) (addr : Word) (off : Nat) (bs : Bytes) (bad : List Nat) (d : Dev) : Option Dev :=
  if riffleOffset off then
    if bs.length = 8 then publishDescriptor (if off < 0x108 then 0 else 1) n (leNat bs) d
    else some (storeError n addr d)
  else if 0x210 ≤ off ∧ off < 0x218 then
    if bs.length = 8 then some (mailboxStore n addr (leNat bs) d) else some (storeError n addr d)
  else
    let cmd := decide (off ≤ 0x10 ∧ 0x10 < off + bs.length)
    let d1 := modifyCore n (fun c =>
      if bs.length = 8 then storeDevicePart (off + 4) (bs.drop 4) (storeDevicePart off (bs.take 4) c)
      else storeDevicePart off bs c) d
    some (if cmd then portCommand n (leNat (bs.take 4)) bad d1 else d1)

/-! ## Access checks (R276, R280, R313) -/

/-- The exception an access of `size` bytes meets before any effect, in the order alignment, windows, absent unit, bus. -/
def accessTrap (d : Dev) (n : CoreId) (addr : Word) (size : Nat) (load store : Bool) : Option FxNext :=
  let c := d.cores[n]
  let t := coreTarget d n addr
  let windowFail := userMode c && (match t with
    | .device off => kernelOffset off
    | .rom _ => true
    | _ => (load && !windowAllows c addr size false) || (store && !windowAllows c addr size true))
  if addr.toNat % size ≠ 0 then some (.trap 6 0 addr)
  else if windowFail then some (.trap 7 1 addr)
  else match t with
    | .device off => if riffleOffset off && d.variant = .vl7e then some (.trap 7 3 addr) else none
    | .absent => if load then some (.trap 7 4 addr) else none
    | _ => none

/-! ## Loads (R314, R315) -/

/-- Bytes of memory as a core sees them: its buffered stores over what memory holds (R78). -/
def coreBytes (d : Dev) (n : CoreId) (key len : Nat) : Bytes :=
  (List.range len).map fun i =>
    let k := key + i
    match d.cores[n].stores.reverse.find? (fun st => st.key.any fun s => decide (s ≤ k ∧ k < s + st.bytes.length)) with
    | some st => st.bytes.getD (k - st.key.getD 0) 0
    | none => cellGet d.mem k

/-- True when a buffered store of the core covers a whole word. -/
def wordBuffered (d : Dev) (n : CoreId) (w : Nat) : Bool :=
  d.cores[n].stores.any fun st => st.key.any fun s => decide (s ≤ 4 * w ∧ 4 * w + 4 ≤ s + st.bytes.length)

/-- A core's read of memory bytes: their value, whether a word among them reads poisoned, and what the read sets off (R406, R408, R416). -/
def coreRead (n : CoreId) (key len : Nat) (ecc : List (Nat × Ecc)) (d : Dev) : Bytes × Bool × Dev :=
  let d0 := if dramBase ≤ key then scheduleRead (key - dramBase) d else d
  let ws := (wordsOf key len).filter fun w => !wordBuffered d n w
  let (p, d1) := readWords ecc ws 0 d0
  (coreBytes d n key len, p, d1)

/-- The value of a target read by a load of `size` bytes (R283, R314). -/
def loadTarget (n : CoreId) (addr : Word) (size : Nat) (ecc : List (Nat × Ecc)) (d : Dev) : Bytes × Bool × Dev :=
  match coreTarget d n addr with
  | .mem key => coreRead n key size ecc d
  | .rom key => coreRead n key size ecc d
  | .device off => (deviceBytes d.cores[n] off size, false, d)
  | .absent => (List.replicate size 0, false, d)

/-- A load enters the core's list; the ninth waits for the oldest to return (R264). -/
def pushLoad (l : CoreLoad) (c : FxCore) : FxCore :=
  let c1 := if 8 ≤ (outstanding c).length then returnOldest c else c
  { c1 with loads := c1.loads ++ [l] }

/-- A load of `size` bytes: register rules, checks, the access, then the base writeback (R313 to R315). -/
def fxLoad (n : CoreId) (word : Word) (rd ra : Reg) (mode : BitVec 2) (off : BitVec 14) (size : Nat) (ext : Nat → Word)
    (ecc : List (Nat × Ecc)) : FxBody := fun _ d =>
  let pair := size = 8
  let clash := mode ≠ 0 && (rd = ra || (pair && oddOf rd = ra))
  if mode = 3 ∨ clash ∨ (pair ∧ rd.val % 2 = 1) then (.trap 1 0 word, d)
  else
    let addr := memAddr (rget d.cores[n] ra) mode off
    match accessTrap d n addr size true false with
    | some t => (t, d)
    | none =>
      let (bs, p, d1) := loadTarget n addr size ecc d
      let dests := if pair then [(rd, BitVec.ofNat 32 (leNat (bs.take 4))), (oddOf rd, BitVec.ofNat 32 (leNat (bs.drop 4)))]
        else [(rd, ext (leNat bs))]
      (.seq, modifyCore n (fun c => pushLoad { dests := dests, poison := p, addr := addr } (writeback ra mode off c)) d1)

/-! ## Stores (R314, R315) -/

/-- A store of bytes: checks, then the write buffer or the device region, then the base writeback (R287, R313). -/
def fxStore (n : CoreId) (word : Word) (rs ra : Reg) (mode : BitVec 2) (off : BitVec 14) (size : Nat) (ecc : Ecc)
    (bad : List Nat) : FxBody := fun _ d =>
  if mode = 3 ∨ (size = 8 ∧ rs.val % 2 = 1) then (.trap 1 0 word, d)
  else
    let c := d.cores[n]
    let addr := memAddr (rget c ra) mode off
    let bs := if size = 8 then leBytes 4 (rget c rs).toNat ++ leBytes 4 (rget c (oddOf rs)).toNat
      else leBytes size (rget c rs).toNat
    match accessTrap d n addr size false true with
    | some t => (t, d)
    | none =>
      match coreTarget d n addr with
      | .device o => match deviceStore n addr o bs bad d with
        | some d1 => (.seq, modifyCore n (writeback ra mode off) d1)
        | none => (.stall, d)
      | .mem key => (.seq, modifyCore n (writeback ra mode off) (bufferStore n { addr := addr, key := some key, bytes := bs, ecc := ecc } d))
      | _ => (.seq, modifyCore n (writeback ra mode off) (bufferStore n { addr := addr, key := none, bytes := bs, ecc := ecc } d))

/-! ## Atomics (R288, R316) -/

/-- SWP or CAS of the word at ra: one indivisible read and write at the target, after the core's earlier stores; poison writes nothing. -/
def fxAtomic (n : CoreId) (rd rb ra : Reg) (cas : Bool) (ecc : Ecc) : FxBody := fun _ d =>
  let c := d.cores[n]
  let addr := rget c ra
  match accessTrap d n addr 4 true true with
  | some t => (t, d)
  | none =>
    match coreTarget d n addr with
    | .mem key =>
      let d0 := drainAll n d
      let (bs, p, d1) := coreRead n key 4 [(0, ecc)] d0
      let old := BitVec.ofNat 32 (leNat bs)
      let writes := !p && (!cas || old = rget c rd)
      let d2 := if writes then storeMem key (leBytes 4 (rget c rb).toNat) d1 else d1
      let setZ (c : FxCore) : FxCore := if cas then { c with fl := putBit c.fl flZ writes } else c
      (.seq, modifyCore n (fun c => setZ (pushLoad { dests := [(rd, old)], poison := p, addr := addr } c)) d2)
    | _ => (.trap 7 4 addr, d)

/-! ## Meanings -/

/-- LDB: byte, sign-extended (R314). -/
def execFxLdb (n : CoreId) (rd ra : Reg) (mode : BitVec 2) (off : BitVec 14) (ecc : Ecc) (s : State) :
    Host.Outcome State Fault Refusal :=
  let w := encM 0x10 rd.val ra.val mode off
  run (fxIssue n w [rd, ra] 1 (fxLoad n w rd ra mode off 1 (signExt32 8) [(0, ecc)])) s

/-- LDBU: byte, zero-extended (R314). -/
def execFxLdbu (n : CoreId) (rd ra : Reg) (mode : BitVec 2) (off : BitVec 14) (ecc : Ecc) (s : State) :
    Host.Outcome State Fault Refusal :=
  let w := encM 0x11 rd.val ra.val mode off
  run (fxIssue n w [rd, ra] 1 (fxLoad n w rd ra mode off 1 (BitVec.ofNat 32) [(0, ecc)])) s

/-- LDH: halfword, sign-extended (R314). -/
def execFxLdh (n : CoreId) (rd ra : Reg) (mode : BitVec 2) (off : BitVec 14) (ecc : Ecc) (s : State) :
    Host.Outcome State Fault Refusal :=
  let w := encM 0x12 rd.val ra.val mode off
  run (fxIssue n w [rd, ra] 1 (fxLoad n w rd ra mode off 2 (signExt32 16) [(0, ecc)])) s

/-- LDHU: halfword, zero-extended (R314). -/
def execFxLdhu (n : CoreId) (rd ra : Reg) (mode : BitVec 2) (off : BitVec 14) (ecc : Ecc) (s : State) :
    Host.Outcome State Fault Refusal :=
  let w := encM 0x13 rd.val ra.val mode off
  run (fxIssue n w [rd, ra] 1 (fxLoad n w rd ra mode off 2 (BitVec.ofNat 32) [(0, ecc)])) s

/-- LDW: word (R314). -/
def execFxLdw (n : CoreId) (rd ra : Reg) (mode : BitVec 2) (off : BitVec 14) (ecc : Ecc) (s : State) :
    Host.Outcome State Fault Refusal :=
  let w := encM 0x14 rd.val ra.val mode off
  run (fxIssue n w [rd, ra] 1 (fxLoad n w rd ra mode off 4 (BitVec.ofNat 32) [(0, ecc)])) s

/-- LDD: the word at addr to rd and the word at addr + 4 to rd + 1 (R315). -/
def execFxLdd (n : CoreId) (rd ra : Reg) (mode : BitVec 2) (off : BitVec 14) (ecc0 ecc1 : Ecc) (s : State) :
    Host.Outcome State Fault Refusal :=
  let w := encM 0x15 rd.val ra.val mode off
  run (fxIssue n w [rd, oddOf rd, ra] 1 (fxLoad n w rd ra mode off 8 (BitVec.ofNat 32) [(0, ecc0), (1, ecc1)])) s

/-- STB: rs[7:0] (R314). -/
def execFxStb (n : CoreId) (rs ra : Reg) (mode : BitVec 2) (off : BitVec 14) (ecc : Ecc) (s : State) :
    Host.Outcome State Fault Refusal :=
  let w := encM 0x18 rs.val ra.val mode off
  run (fxIssue n w [rs, ra] 1 (fxStore n w rs ra mode off 1 ecc [])) s

/-- STH: rs[15:0] (R314). -/
def execFxSth (n : CoreId) (rs ra : Reg) (mode : BitVec 2) (off : BitVec 14) (ecc : Ecc) (s : State) :
    Host.Outcome State Fault Refusal :=
  let w := encM 0x19 rs.val ra.val mode off
  run (fxIssue n w [rs, ra] 1 (fxStore n w rs ra mode off 2 ecc [])) s

/-- STW: rs (R314). -/
def execFxStw (n : CoreId) (rs ra : Reg) (mode : BitVec 2) (off : BitVec 14) (s : State) : Host.Outcome State Fault Refusal :=
  let w := encM 0x1A rs.val ra.val mode off
  run (fxIssue n w [rs, ra] 1 (fxStore n w rs ra mode off 4 .clean [])) s

/-- STD: rs at addr and rs + 1 at addr + 4, one single-copy atomic write (R315). -/
def execFxStd (n : CoreId) (rs ra : Reg) (mode : BitVec 2) (off : BitVec 14) (s : State) : Host.Outcome State Fault Refusal :=
  let w := encM 0x1B rs.val ra.val mode off
  run (fxIssue n w [rs, oddOf rs, ra] 1 (fxStore n w rs ra mode off 8 .clean [])) s

/-- SWP rd, rb, (ra): old := word; word := rb; rd := old (R316). -/
def execFxSwp (n : CoreId) (rd rb ra : Reg) (ecc : Ecc) (s : State) : Host.Outcome State Fault Refusal :=
  run (fxIssue n (encR 0x1C rd.val ra.val rb.val 0 1) [rd, rb, ra] 1 (fxAtomic n rd rb ra false ecc)) s

/-- CAS rd, rb, (ra): the word becomes rb where it equals rd; rd := old; Z tells whether it was written (R316). -/
def execFxCas (n : CoreId) (rd rb ra : Reg) (ecc : Ecc) (s : State) : Host.Outcome State Fault Refusal :=
  run (fxIssue n (encR 0x1C rd.val ra.val rb.val 0 2) [rd, rb, ra] 1 (fxAtomic n rd rb ra true ecc)) s

/-! ## Core events (R271, R273, R277, R278, R283, R284, R296, R297) -/

/-- INTERRUPT_TAKEN: the pending enabled source of the highest priority is taken, where R278 allows an interrupt. -/
def execInterruptTaken (n : CoreId) (s : State) : Host.Outcome State Fault Refusal :=
  run (fun d =>
    if coreIssues d n && mayInterrupt d.cores[n] then
      match nextSource d n with
      | some src => takeInterrupt n src d
      | none => d
    else d) s

/-- LOAD_DATA_RETURN: the load at a place of the core's list returns; poisoned data waits to be reported (R277). -/
def execLoadDataReturn (n : CoreId) (i : Nat) (s : State) : Host.Outcome State Fault Refusal :=
  run (modifyCore n fun c =>
    match c.loads[i]? with
    | none => c
    | some l =>
      if l.poison then { c with loads := c.loads.set i { l with returned := true } }
      else landLoad l { c with loads := c.loads.eraseIdx i }) s

/-- PRODUCT_LANDS: the oldest product in flight lands at the end of its cycle (R296). -/
def execProductLands (n : CoreId) (s : State) : Host.Outcome State Fault Refusal :=
  run (modifyCore n fun c =>
    match c.products with
    | [] => c
    | (l, h, w) :: rest => { c with products := rest, ph := h, pl := w, cycle := max c.cycle (l + 1) }) s

/-- QUOTIENT_LANDS: the divide in flight lands (R297); products due by then land first. -/
def execQuotientLands (n : CoreId) (s : State) : Host.Outcome State Fault Refusal :=
  run (modifyCore n awaitQuotient) s
where
  /-- The quotient written and the cycle moved past its landing. -/
  awaitQuotient (c : FxCore) : FxCore :=
    match c.divide with
    | none => c
    | some (l, q, r) => landProducts { c with qt := q, rm := r, divide := none, cycle := max c.cycle (l + 1) }

/-- The word the line check table holds for a line: CHECK + 4 * ((line - BASE) / 64) (R284). -/
def checkWordAt (d : Dev) (n : CoreId) (w : CodeWindow) (line : Nat) : Option Word :=
  match coreTarget d n (w.check + BitVec.ofNat 32 (4 * ((line - w.base.toNat) / 64))) with
  | .mem key => if isPoisoned d (key / 4) then none else some (BitVec.ofNat 32 (leNat (memGet d key 4)))
  | _ => none

/-- LINE_FILL_DONE: the DRAM line at the core's pc arrives with its check word.  `glitches` of the three tries read wrongly; a try that
matches fills the buffer, three mismatches raise LINE_CHECK (R284). -/
def execLineFillDone (n : CoreId) (glitches : Nat) (s : State) : Host.Outcome State Fault Refusal :=
  run (fun d =>
    let pc := d.cores[n].pc
    match coreTarget d n pc, codeWindow d.cores[n] pc with
    | .mem key, some w =>
      if dramBase ≤ key ∧ coreIssues d n then
        let lineKey := key / 64 * 64
        let lineAddr := pc.toNat / 64 * 64
        let bs := memGet d lineKey 64
        let real := !anyPoison d lineKey 64 && checkWordAt d n w lineAddr == some (crc32c bs)
        let fill (d : Dev) : Dev :=
          let mine := d.lineBufs.filter fun l => l.1 = clusterOf n
          let keep := if mine.length < 64 then d.lineBufs else match mine.getLast? with
            | some l => d.lineBufs.erase l
            | none => d.lineBufs
          { d with lineBufs := (clusterOf n, (lineKey - dramBase) / 64, bs) :: keep }
        if real && glitches = 0 then fill d
        else if real && decide (glitches < 3) then
          fill (logError 0x09 1 3 0x04E (coreDetail n d.cores[n]) (gaugeCount 0x04E d))
        else
          let d1 := takeException n 4 0 false pc (BitVec.ofNat 32 lineAddr) (gaugeCount 0x04F d)
          logError 0x09 2 2 0x04F (coreDetail n d1.cores[n]) d1
      else d
    | _, _ => d) s

/-- STORE_REFUSED: the target of a buffered store refuses it: it is discarded, SERR is set and STORE_ERROR latches (R278). -/
def execStoreRefused (n : CoreId) (i : Nat) (s : State) : Host.Outcome State Fault Refusal :=
  run (fun d =>
    match d.cores[n].stores[i]? with
    | none => d
    | some st => storeError n st.addr (modifyCore n (fun c => { c with stores := c.stores.eraseIdx i }) d)) s

/-- TIMER_COMPARE: Tidemark reaches a core's TCH:TCL; from then on TIMER is pending (R271). -/
def execTimerCompare (n : CoreId) (s : State) : Host.Outcome State Fault Refusal :=
  run (fun d => advanceTo (d.cores[n].tch.toNat * 2 ^ 32 + d.cores[n].tcl.toNat) d) s

/-- MBOX_POST: a core's 64-bit store posts a value to a target core's mailbox (R283). -/
def execMboxPost (n : CoreId) (value : BitVec 64) (s : State) : Host.Outcome State Fault Refusal :=
  run (fun d =>
    if !coreIssues d n then d
    else if userMode d.cores[n] then takeException n 7 1 false d.cores[n].pc 0x10000210 d
    else mailboxStore n 0x10000210 value.toNat d) s

end Sys2Proof.Machine
end

