-- ==== Sys2Proof/Machine/Runtime.lean ====
section
/-! DEFINITION. Machine/Runtime.lean: the Computational Programs commands, memory namespaces and range sets, the dispatch of invocations and
their limits (R327 to R346). -/
namespace Sys2Proof.Machine

/-- A command on a compute namespace that is attached to the controller (R104, R327). -/
def computeCmd (c : Cmd) (f : Dev → Dev) (d : Dev) : Dev :=
  ioCmd c (fun d => match attachedAux d c.ctrl c.nsid with
    | some n => if n.isMemory then done c stOpcode d else f d
    | none => if (attachedNs d c.ctrl c.nsid).isSome then done c stOpcode d else done c stNamespace d) d

/-- A command on a memory namespace that is attached to the controller (R104, R333). -/
def memoryCmd (c : Cmd) (f : AuxNamespace → Dev → Dev) (d : Dev) : Dev :=
  ioCmd c (fun d => match attachedAux d c.ctrl c.nsid with
    | some n => if n.isMemory then f n d else done c stOpcode d
    | none => if (attachedNs d c.ctrl c.nsid).isSome then done c stOpcode d else done c stNamespace d) d

/-! ## Programs (R327 to R332) -/

/-- A program command's index and type (R327). -/
def programFieldsOk (slot : Nat) (mladide : Bool) : Bool := decide (slot < 32) && mladide

/-- LOAD_PROGRAM: the image as the command's data, at most 9 MiB; `mladide` says that the program type is the Mladide type (R327, R328). -/
def execLoadProgram (c : Cmd) (slot : Nat) (mladide : Bool) (s : State) : Host.Outcome State Fault Refusal :=
  run (computeCmd c (fun d =>
    if !programFieldsOk slot mladide || decide (9 * 2 ^ 20 < c.data.length) then done c stField d
    else withData c (fun d => match progRefused d slot c.ctrl c.data with
      | some k => done c stImageRefused (setNum 0x700007 k d) (dw0 := k)
      | none => done c stOk (loadProgram slot c.ctrl c.data d)) d)) s

/-- A change of a slot by its owner; any other function, or an empty slot, gets Invalid Field in Command. -/
def ownedSlot (c : Cmd) (slot : Nat) (mladide : Bool) (f : Dev → Dev) (d : Dev) : Dev :=
  let s := progSlot d slot
  if !programFieldsOk slot mladide || s.state = 0 || s.owner ≠ c.ctrl then done c stField d else done c stOk (f d)

/-- LOAD_PROGRAM_UNLOAD (R327, R332). -/
def execLoadProgramUnload (c : Cmd) (slot : Nat) (mladide : Bool) (s : State) : Host.Outcome State Fault Refusal :=
  run (computeCmd c (ownedSlot c slot mladide (unloadProgram slot))) s

/-- ACTIVATE_PROGRAM (R331). -/
def execActivateProgram (c : Cmd) (slot : Nat) (s : State) : Host.Outcome State Fault Refusal :=
  run (computeCmd c (ownedSlot c slot true (activateProgram slot true))) s

/-- DEACTIVATE_PROGRAM (R331). -/
def execDeactivateProgram (c : Cmd) (slot : Nat) (s : State) : Host.Outcome State Fault Refusal :=
  run (computeCmd c (ownedSlot c slot true (activateProgram slot false))) s

/-! ## Memory range sets (R334) -/

/-- A range lies on multiples of 64 within its attached memory namespace (R334). -/
def rangeOk (d : Dev) (ctrl : Nat) (r : Nat × Nat × Nat) : Bool :=
  match attachedAux d ctrl r.1 with
  | some n => n.isMemory && decide (r.2.1 % 64 = 0 ∧ r.2.2 % 64 = 0 ∧ 0 < r.2.2 ∧ r.2.1 + r.2.2 ≤ n.size * 2 ^ 30)
  | none => false

/-- Ranges share one namespace and one GiB-aligned GiB of it (R334). -/
def rangesTogether (rs : List (Nat × Nat × Nat)) : Bool :=
  match rs with
  | [] => false
  | r :: _ => rs.all fun x => decide (x.1 = r.1 ∧ x.2.1 / 2 ^ 30 = r.2.1 / 2 ^ 30 ∧ (x.2.1 + x.2.2 - 1) / 2 ^ 30 = r.2.1 / 2 ^ 30)

/-- Sets of a function. -/
def setsOf (d : Dev) (ctrl : Nat) : List RangeSet := d.rt.sets.filter fun s => s.ctrl = ctrl

/-- The lowest set number of a function that is free, from 1 on. -/
def freeSet (d : Dev) (ctrl : Nat) : Option Nat :=
  (findBelow (fun k => !(setsOf d ctrl).any fun s => s.id = k + 1) 64).map (· + 1)

/-- A create of a set; dword 0 gives its number. -/
def createSet (c : Cmd) (rs : List (Nat × Nat × Nat)) (d : Dev) : Dev :=
  if !decide (1 ≤ rs.length ∧ rs.length ≤ 4) || !rs.all (rangeOk d c.ctrl) || !rangesTogether rs then done c stField d
  else match freeSet d c.ctrl with
    | none => done c stField d
    | some k =>
      done c stOk (modifyRt (fun t =>
        { t with sets := t.sets ++ [{ ctrl := c.ctrl, id := k, nsid := (rs.headD (0, 0, 0)).1, ranges := rs.map fun r => r.2 }] }) d) (dw0 := k)

/-- A delete of a set. -/
def deleteSet (c : Cmd) (id : Nat) (d : Dev) : Dev :=
  if (setsOf d c.ctrl).any fun s => s.id = id then
    done c stOk (modifyRt (fun t => { t with sets := t.sets.filter fun s => !(s.ctrl = c.ctrl && s.id = id) }) d)
  else done c stField d

/-- MEMORY_RANGE_SET_MANAGEMENT: a create with its ranges (namespace, offset, length), or the delete of a set (R334). -/
def execMemoryRangeSetManagement (c : Cmd) (create : Bool) (id : Nat) (ranges : List (Nat × Nat × Nat)) (s : State) :
    Host.Outcome State Fault Refusal :=
  run (computeCmd c (if create then createSet c ranges else deleteSet c id)) s

/-! ## Execute Program (R334, R340) -/

/-- The set that an Execute Program names. -/
def namedSet (d : Dev) (ctrl id : Nat) : Option RangeSet := (setsOf d ctrl).find? fun s => s.id = id

/-- Core addresses and lengths of a set's ranges, and the GiB that DAB1 selects (R335). -/
def setRanges (d : Dev) (set_ : RangeSet) : List (Nat × Nat) × Nat :=
  let gib := match mapGet d.rt.aux set_.nsid with
    | some n => n.gib
    | none => 0
  (set_.ranges.map fun r => (0xC0000000 + r.1 % 2 ^ 30, r.2), gib + (set_.ranges.headD (0, 0)).1 / 2 ^ 30)

/-- Execute Program admitted: the version bound and the invocation queued (R332, R341). -/
def admitExecute (c : Cmd) (slot : Nat) (v : ProgVersion) (set_ : Option RangeSet) (d : Dev) : Dev :=
  let (rs, gib) := match set_ with
    | some x => setRanges d x
    | none => ([], 0)
  let i : Invocation :=
    { kind := 2, owner := (c.ctrl, c.sq, c.cid), slot := slot, version := v.version, entry := 0, count := c.data.length
      params := c.data, ranges := rs, dab1 := gib }
  modifyRt (fun t => { t with calls := t.calls ++ [i] }) (bindVersion slot v.version d)

/-- EXECUTE_PROGRAM: opcode 01h of a compute namespace, with its parameters as data; set 0 names no ranges (R334, R336, R340). -/
def execExecuteProgram (c : Cmd) (slot set_ : Nat) (s : State) : Host.Outcome State Fault Refusal :=
  let c := withOp 0x01 c
  run (computeCmd c (fun d =>
    let p := progSlot d slot
    if 32 ≤ slot ∨ 4032 < c.data.length ∨ (set_ ≠ 0 ∧ (namedSet d c.ctrl set_).isNone) then done c stField d
    else match decide (p.state = 2), p.current with
      | true, some v =>
        if p.owner ≠ c.ctrl ∧ !progShared v.image then done c stField d
        else withData c (admitExecute c slot v (namedSet d c.ctrl set_)) d
      | _, _ => done c stField d)) s

/-! ## Subsystem Local Memory (R100, R333, R416) -/

/-- Bytes of a memory namespace lie in DRAM from its first GiB on. -/
def slmKey (n : AuxNamespace) (off : Nat) : Nat := dramKey (n.gib * 2 ^ 30 + off)

/-- Offset and length of an access: inside the namespace, and at most MDTS (R100). -/
def slmStatus (n : AuxNamespace) (off len : Nat) : Option Status :=
  if 8 * 2 ^ 20 < len then some stField else if n.size * 2 ^ 30 < off + len then some stLbaRange else none

/-- SLM_READ: `ecc` gives the classes that the words find, by word index in the range (R333, R406, R416). -/
def execSlmRead (c : Cmd) (off len : Nat) (ecc : List (Nat × Ecc)) (s : State) : Host.Outcome State Fault Refusal :=
  run (memoryCmd c (fun n d => match slmStatus n off len with
    | some st => done c st d
    | none => withData c (fun d =>
      let (bad, d1) := readWords ecc (wordsOf (slmKey n off) len) 0 d
      if bad then done c stUnrecovered d1 else done c stOk (sendData c (memGet d1 (slmKey n off) len) d1)) d)) s

/-- SLM_WRITE (R333, R415). -/
def execSlmWrite (c : Cmd) (off : Nat) (ecc : Ecc) (s : State) : Host.Outcome State Fault Refusal :=
  run (memoryCmd c (fun n d => match slmStatus n off c.data.length with
    | some st => done c st d
    | none => withData c (fun d => done c stOk (storeBytes (slmKey n off) c.data ecc d)) d)) s

/-- One source range of a copy read into the bytes gathered so far. -/
def gatherRange (ctrl : Nat) (ecc : List (Nat × Ecc)) (acc : Bool × Bytes × Dev) (r : Nat × Nat × Nat) : Bool × Bytes × Dev :=
  match attachedAux acc.2.2 ctrl r.1 with
  | none => acc
  | some n =>
    let key := slmKey n r.2.1
    let (bad, d) := readWords ecc (wordsOf key r.2.2) (ceilDiv acc.2.1.length 4) acc.2.2
    (acc.1 || bad, acc.2.1 ++ memGet d key r.2.2, d)

/-- A copy's source range: an attached memory namespace that holds it. -/
def copyRangeOk (d : Dev) (ctrl : Nat) (r : Nat × Nat × Nat) : Bool :=
  match attachedAux d ctrl r.1 with
  | some n => n.isMemory && decide (r.2.1 + r.2.2 ≤ n.size * 2 ^ 30)
  | none => false

/-- MEMORY_COPY: source ranges (namespace, offset, length) copied one after the other to an offset of the named namespace (R333). -/
def execMemoryCopy (c : Cmd) (off : Nat) (sources : List (Nat × Nat × Nat)) (ecc : List (Nat × Ecc)) (s : State) :
    Host.Outcome State Fault Refusal :=
  run (memoryCmd c (fun n d =>
    let len := sources.foldl (fun a r => a + r.2.2) 0
    match slmStatus n off len with
    | some st => done c st d
    | none =>
      if !sources.all (copyRangeOk d c.ctrl) then done c stField d
      else
        let (bad, bs, d1) := sources.foldl (gatherRange c.ctrl ecc) (false, [], d)
        if bad then done c stUnrecovered d1 else done c stOk (storeBytes (slmKey n off) bs .clean d1))) s

/-! ## Dispatch (R335 to R337, R341, R342) -/

/-- True for a service core that the runtime may give work: it exists, runs the idle runtime, and is not out of dispatch (R341, R345). -/
def coreIdle (d : Dev) (n : CoreId) : Bool :=
  !CoreId.isSupervisor n && coreExists d.variant n && d.cores[n].run = .waiting && (callOn d n).isNone && !d.rt.out.contains n.val

/-- True for a core that object 0x7000.01 reserves for Braid calls (R341). -/
def coreReserved (d : Dev) (n : CoreId) : Bool := decide (n.val < objNum d 0x700001)

/-- The invocation that a core takes: the oldest waiting Braid call, or failing any the oldest Execute Program, where the core may have it
(R341). -/
def nextCall (d : Dev) (n : CoreId) : Option Invocation :=
  let waiting := d.rt.calls.filter fun i => i.core.isNone
  match waiting.find? fun i => decide (i.kind < 2) with
  | some i =>
    if coreReserved d n || !((List.finRange 34).any fun m => coreIdle d m && coreReserved d m) then some i else none
  | none => if coreReserved d n then none else waiting.head?

/-- The image of an invocation's bound version, with its place in the store. -/
def callImage (d : Dev) (i : Invocation) : Bytes × Nat :=
  match versionOf d i.slot i.version with
  | some v => (v.image, v.base)
  | none => ([], 0)

/-- Deadline of an invocation (R342). -/
def callDeadline (d : Dev) (i : Invocation) : Nat :=
  if i.kind < 2 then
    (match (mapGet d.reqs i.owner.1).bind (·.passAt) with
      | some t => t
      | none => d.tm) + objNum d 0x700002 * 1000
  else
    let lim := progTimeLimit (callImage d i).1
    d.tm + (if lim = 0 then objNum d 0x700003 else min lim (objNum d 0x700003)) * 1000000

/-- The invocation block (R336). -/
def callBlock (i : Invocation) : Bytes :=
  let pair (k : Nat) : Bytes := match i.ranges[k]? with
    | some r => leBytes 4 r.1 ++ leBytes 4 r.2
    | none => leBytes 8 0
  leBytes 2 i.kind ++ leBytes 1 i.entry ++ leBytes 1 0 ++ leBytes 4 i.count ++ leBytes 4 i.payload.length ++ leBytes 4 65536 ++
    leBytes 8 i.deadline ++ leBytes 4 i.version ++ leBytes 4 0 ++ pair 0 ++ pair 1 ++ pair 2 ++ pair 3 ++ padTo 4032 i.params

/-- Core address of a DRAM byte through aperture 0, whose GiB DAB0 selects (R279). -/
def apertureAddr (a : Nat) : Word := BitVec.ofNat 32 (0x80000000 + a % 2 ^ 30)

/-- A data window over `len` bytes from an address (R280). -/
def windowOver (a : Word) (len perm : Nat) : DataWindow :=
  { base := a, limit := a + BitVec.ofNat 32 (len - 1), perm := BitVec.ofNat 32 perm }

/-- The data windows of an invocation (R335). -/
def callWindows (img : Bytes) (base : Nat) (i : Invocation) : Vector DataWindow 8 :=
  let range (k : Nat) : DataWindow := match i.ranges[k]? with
    | some r => windowOver (BitVec.ofNat 32 r.1) r.2 3
    | none => {}
  #v[windowOver 0x35000 0x4B000 3,
     if progRodataLen img = 0 then {} else windowOver (apertureAddr (base + progCodeLen img)) (progRodataLen img) 1,
     windowOver 0x10000 0x15000 1, windowOver 0x25000 0x10000 3, range 0, range 1, range 2, range 3]

/-- A service core as it enters a program (R335, R337, R342). -/
def entryCoreOf (img : Bytes) (base : Nat) (i : Invocation) (c : FxCore) : FxCore :=
  let g0 : Vector Word 32 := Vector.replicate 32 0
  let g := ((((g0.set 1 0x10000).set 2 (BitVec.ofNat 32 i.kind)).set 3 (BitVec.ofNat 32 i.entry)).set 4 0x25000).set 31 0x80000
  let code : CodeWindow :=
    { base := apertureAddr base, limit := apertureAddr base + BitVec.ofNat 32 (progCodeLen img - 1)
      check := apertureAddr (base + progCodeLen img + progRodataLen img) }
  { vbr := c.vbr, cycle := c.cycle, latched := c.latched, level := c.level, mboxIn := c.mboxIn, run := .running
    pc := apertureAddr base + BitVec.ofNat 32 (progEntry img i.entry), g := g, ctl := BitVec.ofNat 32 (2 ^ ctlUM + 2 ^ ctlIE), imask := 4
    tcl := BitVec.ofNat 32 i.deadline, tch := BitVec.ofNat 32 (i.deadline / 2 ^ 32), dab0 := BitVec.ofNat 32 (base / 2 ^ 30)
    dab1 := BitVec.ofNat 32 i.dab1, dwin := callWindows img base i, cwin := (Vector.replicate 4 { base := 0x40, limit := 0x3F }).set 0 code
    slot := some i.slot }

/-- A core's local memory prepared for an invocation (R335 to R337). -/
def prepareLocal (n : CoreId) (img : Bytes) (i : Invocation) (d : Dev) : Dev :=
  let put (off : Nat) (bs : Bytes) (d : Dev) : Dev := storeBytes (localKey n off) bs .clean d
  put 0x15000 i.payload (put 0x11000 i.table (put 0x10000 (callBlock i)
    (put 0x35000 (slice img (progDataAt img) (progDataLen img)) (zeroMem (localKey n 0x10000) 0x70000 d))))

/-- INVOCATION_DISPATCH: an idle service core takes the next invocation that it may have (R337, R341). -/
def dispatchCall (n : CoreId) (d : Dev) : Dev :=
  if !coreIdle d n then d
  else match nextCall d n with
    | none => d
    | some i =>
      let i' := { i with core := some n, deadline := callDeadline d i }
      let (img, base) := callImage d i
      modifyCore n (entryCoreOf img base i')
        (prepareLocal n img i' (modifyRt (fun t => { t with calls := t.calls.map fun x => if x = i then i' else x }) d))

/-- INVOCATION_DISPATCH (R341). -/
def execInvocationDispatch (n : CoreId) (now : Nat) (s : State) : Host.Outcome State Fault Refusal :=
  run (fun d => dispatchCall n (advanceTo now d)) s

/-- PROGRAM_TIME_LIMIT: the deadline of the invocation on a core has passed (R342). -/
def execProgramTimeLimit (n : CoreId) (now : Nat) (s : State) : Host.Outcome State Fault Refusal :=
  run (fun d =>
    let d1 := advanceTo now d
    match callOn d1 n with
    | some i => if i.deadline ≤ d1.tm then failCall i 3 0 0 d1 else d1
    | none => d1) s

/-- HALTED_CORE_RESET: the halted core's invocation fails, and the core returns to dispatch, or stays out after 3 halts within 1 s (R345). -/
def resetHalted (n : CoreId) (d : Dev) : Dev :=
  if d.cores[n].run ≠ .halted ∨ CoreId.isSupervisor n then d
  else
    let d1 := match callOn d n with
      | some i => failCall i 7 0 0 d
      | none => d
    let times := (d1.tm :: mapGetD d1.rt.halts n.val []).filter fun t => decide (d1.tm < t + 1000000000)
    let d2 := modifyRt (fun t => { t with halts := mapSet t.halts n.val times }) d1
    let d3 := modifyCore n (fun c => { FxCore.atReset n with cycle := c.cycle, run := .waiting }) d2
    if 3 ≤ times.length ∧ !d3.rt.out.contains n.val then
      logError 0x04 2 0x10 0 (leBytes 13 0 ++ leBytes 1 n.val) (modifyRt (fun t => { t with out := insNat n.val t.out }) d3)
    else d3

/-- HALTED_CORE_RESET (R345). -/
def execHaltedCoreReset (n : CoreId) (now : Nat) (s : State) : Host.Outcome State Fault Refusal :=
  run (fun d => resetHalted n (advanceTo now d)) s

end Sys2Proof.Machine
end

