-- ==== Sys2Proof/Machine/Namespaces.lean ====
section
/-! DEFINITION. Machine/Namespaces.lean: Namespace Management and Namespace Attachment (R97, R100, R102 to R104, R106, R192, R327, R333, R334,
R354, R510, R548, R553). -/
namespace Sys2Proof.Machine

/-! ## What a create asks for (R102, R103, R327, R333) -/

/-- A namespace as a create's data describes it: kind 0 block, 1 Key Value, 2 cache, 3 memory, 4 compute. -/
structure NsAsk where
  /-- Kind. -/
  kind : Nat
  /-- Indirection unit. -/
  iu : Nat
  /-- LBA format. -/
  fmt : Nat
  /-- NSZE. -/
  nsze : Nat
  /-- NCAP. -/
  ncap : Nat
  deriving DecidableEq, Repr

/-- The data of a create read: Invalid Field in Command for a kind and indirection unit that R102 does not pair and for a reserved byte, Invalid
Format for a format that the kind does not offer (R11, R103). -/
def readAsk (csi : Nat) (b : Bytes) : Except Status NsAsk :=
  let kindByte := leField b 3072 1
  let iu := leField b 3073 1
  let fmt := leField b 26 1 % 16
  let ask (kind iu : Nat) : NsAsk := { kind := kind, iu := iu, fmt := if kind = 0 then fmt else 0, nsze := leField b 0 8, ncap := leField b 8 8 }
  if (b.drop 3076).any (· ≠ 0) then .error stField
  else if csi = 0 then
    if !(decide (kindByte = 0 ∧ iu = 0) || decide (kindByte = 1 ∧ (iu = 1 ∨ iu = 2))) then .error stField
    else if (kindByte = 0 ∧ 1 < fmt) ∨ (kindByte = 1 ∧ fmt ≠ 0) then .error stFormat
    else .ok (if kindByte = 0 then ask 0 0 else ask 2 iu)
  else if csi = 1 then .ok (ask 1 1)
  else if csi = 3 then .ok (ask 3 0)
  else if csi = 4 then .ok (ask 4 0)
  else .error stField

/-- The namespace that a create makes. -/
def nsOfAsk (idx : Nat) (a : NsAsk) (tag : Nat) (cascade : Bool) : Namespace :=
  { idx := idx, kind := a.kind, iu := a.iu, fmt := a.fmt, nsze := a.nsze, ncap := a.ncap, tag := tag, cascade := cascade }

/-! ## Room (R102, R333, R354, R553) -/

/-- GiB of DRAM beside the firmware's reserved one. -/
def dramGibs (d : Dev) : Nat := dramCapacity d.dram.cfg / 2 ^ 30 - 1

/-- GiB that the maps of units take, 4 bytes per unit (R102). -/
def mapGibs (units : Nat) : Nat := ceilDiv (4 * units) (2 ^ 30)

/-- Units of every namespace's map. -/
def mapUnits (d : Dev) : Nat := d.media.nss.foldl (fun a kn => a + nsUnits kn.2) 0

/-- GiB that memory namespaces hold. -/
def memoryGibs (d : Dev) : Nat := d.rt.aux.foldl (fun a kn => a + kn.2.size) 0

/-- Largest size of a kind in bytes (R102). -/
def kindLimit (d : Dev) (n : Namespace) : Nat :=
  if n.kind = 0 then 16 * 2 ^ 40 else if n.iu = 2 then usableCapacity d else 64 * 2 ^ 40

/-- True when a new namespace keeps its kind's limit, its class's sum, the usable capacity and the DRAM room for its map (R102, R103, R354). -/
def nsFits (d : Dev) (n : Namespace) : Bool :=
  decide (nsBytes n ≤ kindLimit d n) && decide (classSum d n.iu + nsBytes n ≤ classCap d n.iu) &&
    decide (logicalSum d + nsBytes n ≤ usableCapacity d) && decide (mapGibs (mapUnits d + nsUnits n) + memoryGibs d ≤ dramGibs d)

/-- True when a memory namespace may take `size` GiB from one on. -/
def gibFree (d : Dev) (gib size : Nat) : Bool :=
  decide (mapGibs (mapUnits d) ≤ gib ∧ gib + size ≤ dramGibs d) &&
    d.rt.aux.all fun kn => !kn.2.isMemory || decide (gib + size ≤ kn.2.gib ∨ kn.2.gib + kn.2.size ≤ gib)

/-- First GiB of a new memory namespace: the highest that is free, which leaves the maps room to grow. -/
def placeMemory (d : Dev) (size : Nat) : Option Nat := ((List.range (dramGibs d)).reverse).find? fun g => gibFree d g size

/-- The lowest namespace identifier that is free. -/
def freeNsid (d : Dev) : Nat :=
  ((List.range 256).find? fun i => (mapGet d.media.nss (i + 1)).isNone && (mapGet d.rt.aux (i + 1)).isNone).getD 256 + 1

/-- The lowest internal index that is free (R351). -/
def freeIdx (d : Dev) : Nat := ((List.range 128).find? fun i => !d.media.nss.any fun kn => kn.2.idx = i).getD 128

/-- The lowest tag that no namespace holds, here or on another member of the cascade (R103, R510). -/
def freeTag (d : Dev) (elsewhere : List Nat) : Nat :=
  ((List.range 256).find? fun i => !elsewhere.contains (i + 1) && !d.media.nss.any fun kn => kn.2.tag = i + 1).getD
    (elsewhere.foldl max 256) + 1

/-! ## Create (R103, R192, R327, R333, R510) -/

/-- A block, Key Value or cache namespace put into the part; a block or Key Value one gets its key (R103, R192). -/
def addNamespace (nsid : Nat) (n : Namespace) (d : Dev) : Dev :=
  let d1 := modifyMedia (fun m => { m with nss := mapSet m.nss nsid n }) d
  if n.kind = 2 then d1 else freshNsKey n.idx d1

/-- True when a cache namespace created here belongs to the cascade: this member takes part in one (R510). -/
def makesCascade (d : Dev) (a : NsAsk) : Bool := a.kind = 2 && inCascade d

/-- A block, Key Value or cache namespace created for the host; dword 0 gives its identifier (R100, R102, R103, R510). -/
def createStored (c : Cmd) (a : NsAsk) (elsewhere : List Nat) (d : Dev) : Dev :=
  let casc := makesCascade d a
  let tag := if a.kind = 2 then freeTag d (if casc then elsewhere else []) else 0
  let n := nsOfAsk (freeIdx d) a tag casc
  if casc && d.cas.state ≠ 3 then done c stField d
  else if a.nsze = 0 ∨ a.nsze < a.ncap then done c stField d
  else if 128 ≤ d.media.nss.length then done c stNsUnavailable d
  else if !nsFits d n then done c stNsCapacity d
  else done c stOk (addNamespace (freeNsid d) n d) (dw0 := freeNsid d)

/-- A memory namespace created: whole GiB, at most 8 of them, zeroed (R333, R548). -/
def createMemory (c : Cmd) (a : NsAsk) (d : Dev) : Dev :=
  let size := a.nsze / 2 ^ 30
  if a.nsze % 2 ^ 30 ≠ 0 ∨ size = 0 then done c stField d
  else if 8 ≤ (d.rt.aux.filter fun kn => kn.2.isMemory).length then done c stNsUnavailable d
  else match placeMemory d size with
    | none => done c stNsCapacity d
    | some g =>
      done c stOk (modifyRt (fun r => { r with aux := mapSet r.aux (freeNsid d) { isMemory := true, gib := g, size := size } })
        (zeroMem (dramKey (g * 2 ^ 30)) (size * 2 ^ 30) d)) (dw0 := freeNsid d)

/-- A compute namespace created: at most 16 (R327, R548). -/
def createCompute (c : Cmd) (d : Dev) : Dev :=
  if 16 ≤ (d.rt.aux.filter fun kn => !kn.2.isMemory).length then done c stNsUnavailable d
  else done c stOk (modifyRt (fun r => { r with aux := mapSet r.aux (freeNsid d) { isMemory := false } }) d) (dw0 := freeNsid d)

/-- Namespace Management create after its fetch: a PF may create every kind, a VF compute namespaces (R97, R103, R327). -/
def createNamespace (c : Cmd) (elsewhere : List Nat) (d : Dev) : Dev :=
  let csi := bits c.cdw11 31 24
  if !isPf d c.ctrl && csi ≠ 4 then done c stOpcode d
  else if c.cdw10 ≠ 0 then done c stField d
  else
    withData c (fun d => match readAsk csi (padTo 4096 c.data) with
      | .error st => done c st d
      | .ok a => if a.kind = 3 then createMemory c a d else if a.kind = 4 then createCompute c d else createStored c a elsewhere d) d

/-- A cascade namespace that the master has created, put into this member with the same identifier and tag, attached to no controller; a member
that lacks the room gives it none (R510). -/
def joinNamespace (nsid tag : Nat) (c : Cmd) (d : Dev) : Dev :=
  match readAsk 0 (padTo 4096 c.data) with
  | .error _ => d
  | .ok a =>
    if a.kind ≠ 2 || d.cas.state ≠ 2 || (mapGet d.media.nss nsid).isSome || decide (128 ≤ d.media.nss.length) then d
    else
      let n := nsOfAsk (freeIdx d) a tag true
      addNamespace nsid (if nsFits d n then n else { n with ncap := 0 }) d

/-- NAMESPACE_CREATE: admin 0Dh with SEL 0, or a cascade namespace that comes from the master (R103, R510). -/
def execNamespaceCreate (c : Cmd) (origin : NsOrigin) (s : State) : Host.Outcome State Fault Refusal :=
  let c := withOp 0x0D c
  run (fun d => match origin with
    | .host elsewhere => adminCmd c (createNamespace c elsewhere) d
    | .master nsid tag => joinNamespace nsid tag c (advanceTo c.now d)) s

/-! ## Delete (R103, R192, R334) -/

/-- A stored namespace deleted: its objects with their Eddy entries, its values and its units; its key is replaced and its record goes (R103,
R192). -/
def deleteStored (nsid : Nat) (n : Namespace) (d : Dev) : Dev :=
  modifyMedia (fun m => { m with nss := mapErase m.nss nsid }) (dropBuffered (fun u => u.ns = n.idx) (emptyNamespace n d))

/-- A namespace deleted, or a memory namespace put to wait for the invocations that run on it (R103, R334). -/
def deleteOne (c : Cmd) (d : Dev) : Dev :=
  match mapGet d.media.nss c.nsid, mapGet d.rt.aux c.nsid with
  | some n, _ => background (done c stOk (deleteStored c.nsid n d))
  | none, some a =>
    if a.isMemory then endDeletes (modifyRt (fun r => { r with deletes := r.deletes ++ [(c.ctrl, c.cid, c.nsid)] }) d)
    else done c stOk (modifyRt (fun r => { r with aux := mapErase r.aux c.nsid }) d)
  | none, none => done c stNamespace d

/-- Every namespace deleted; the memory namespaces wait for the invocations that run on them (R103, R334). -/
def deleteAll (c : Cmd) (d : Dev) : Dev :=
  let d1 := background (d.media.nss.foldl (fun d kn => deleteStored kn.1 kn.2 d) d)
  endDeletes (modifyRt (fun r =>
    { r with
      aux := r.aux.filter fun ka => ka.2.isMemory
      deletes := r.deletes ++ [(c.ctrl, c.cid, c.nsid)] }) d1)

/-- NAMESPACE_DELETE: admin 0Dh with SEL 1 (R103, R192, R334). -/
def execNamespaceDelete (c : Cmd) (s : State) : Host.Outcome State Fault Refusal :=
  let c := withOp 0x0D c
  run (pfCmd c (fun d =>
    if c.cdw10 ≠ 1 then done c stField d
    else if c.nsid = 0xFFFFFFFF then deleteAll c d
    else deleteOne c d)) s

/-! ## Attach and detach (R97, R106) -/

/-- The controllers of a controller list. -/
def listedCtrls (b : Bytes) : List Nat := (List.range (min 2047 (leField b 0 2))).map fun i => leField b (2 + 2 * i) 2

/-- Controllers that a namespace is attached to. -/
def attachedTo (d : Dev) (nsid : Nat) : Option (List Nat) :=
  match mapGet d.media.nss nsid, mapGet d.rt.aux nsid with
  | some n, _ => some n.attached
  | none, some a => some a.attached
  | none, none => none

/-- The controllers of a namespace set. -/
def setAttached (nsid : Nat) (l : List Nat) (d : Dev) : Dev :=
  match mapGet d.media.nss nsid with
  | some n => modifyMedia (fun m => { m with nss := mapSet m.nss nsid { n with attached := l } }) d
  | none => modifyRt (fun r => { r with aux := mapUpdate r.aux nsid fun a => { a with attached := l } }) d

/-- Namespace Attachment after its fetch: any namespace, any controllers of either port (R106). -/
def attachment (c : Cmd) (on : Bool) (d : Dev) : Dev :=
  if c.cdw10 ≠ (if on then 0 else 1) then done c stField d
  else match attachedTo d c.nsid with
    | none => done c stNamespace d
    | some old =>
      withData c (fun d =>
        let l := listedCtrls (padTo 4096 c.data)
        if l.isEmpty || l.any fun i => (getCtrl d i).isNone then done c stCtrlList d
        else if on && l.any old.contains then done c stNsAttached d
        else if !on && l.any fun i => !old.contains i then done c stNsNotAttached d
        else done c stOk (setAttached c.nsid (if on then l.foldl (fun acc i => insNat i acc) old else old.filter fun i => !l.contains i) d)) d

/-- NAMESPACE_ATTACH: admin 15h with SEL 0 (R106). -/
def execNamespaceAttach (c : Cmd) (s : State) : Host.Outcome State Fault Refusal := run (pfCmd (withOp 0x15 c) (attachment (withOp 0x15 c) true)) s

/-- NAMESPACE_DETACH: admin 15h with SEL 1 (R106). -/
def execNamespaceDetach (c : Cmd) (s : State) : Host.Outcome State Fault Refusal :=
  run (pfCmd (withOp 0x15 c) (attachment (withOp 0x15 c) false)) s

end Sys2Proof.Machine
end

