-- ==== Sys2Proof/Machine/Pages.lean ====
section
/-! DEFINITION. Machine/Pages.lean: what Get Log Page and Identify return (R91, R96, R97 to R103, R105, R109 to R112, R427, R529, R532, R534,
R535, R540, R553).  A page is given as the pieces that the spec states, at the places the NVMe specifications give them (log entry 12); every
byte that no piece gives is a free byte (log entry 1). -/
namespace Sys2Proof.Machine

/-- A stated piece of a page: its offset, its bytes, and which bits of each byte are stated. -/
structure Piece where
  /-- Offset in the page. -/
  off : Nat
  /-- Bytes. -/
  bytes : Bytes
  /-- Stated bits of each byte. -/
  mask : Byte := 0xFF
  deriving DecidableEq, Repr

/-- A page: its size and its stated pieces. -/
structure Page where
  /-- Bytes of the page. -/
  size : Nat
  /-- Stated pieces. -/
  pieces : List Piece
  deriving DecidableEq, Repr

/-- A byte of a page over a free one. -/
def pageByte (ps : List Piece) (i : Nat) (free : Byte) : Byte :=
  match ps.find? fun p => decide (p.off ≤ i ∧ i < p.off + p.bytes.length) with
  | some p => (free &&& ~~~p.mask) ||| (p.bytes.getD (i - p.off) 0 &&& p.mask)
  | none => free

/-- `len` bytes of a page from an offset on. -/
def pageWindow (p : Page) (off len : Nat) (d : Dev) : Bytes × Dev :=
  let (free, d1) := drawBytes len d
  ((free.zipIdx).map fun bi => pageByte p.pieces (off + bi.2) bi.1, d1)

/-- A table of `n` dwords in which bit 0 of dword i says whether i is supported. -/
def supportTable (off n : Nat) (p : Nat → Bool) : List Piece :=
  (List.range n).map fun i => { off := off + 4 * i, bytes := [if p i then 1 else 0], mask := 1 }

/-! ## Log pages (R99, R529, R532) -/

/-- Log pages that a controller supports (R99, R540). -/
def logPages (d : Dev) (ctrl : Nat) : List Nat :=
  if d.power.phase = .recovery then [0x03]
  else
    [0x00, 0x01, 0x02, 0x03, 0x04, 0x05, 0x06, 0x07, 0x08, 0x0D, 0x12, 0x13, 0x80, 0x81, 0xC0] ++ (if isPf d ctrl then [0xC1, 0xC2] else [])

/-- Admin opcodes of PFs only (R97). -/
def pfOpcodes : List Nat := [0x0D, 0x15, 0x10, 0x11, 0x14, 0x1C, 0x1D, 0x1E, 0x80, 0x84, 0xC1, 0xC2, 0xC6, 0xC7]

/-- I/O opcodes of a command set: NVM with the Delivery commands, Key Value, Subsystem Local Memory, Computational Programs (R102, R122, R327,
R333). -/
def setOpcodes (csi : Nat) : List Nat :=
  match csi with
  | 0 => [0x00, 0x01, 0x02, 0x05, 0x08, 0x09, 0x0C, 0x0D, 0x0E, 0x11, 0x15, 0x80, 0x81, 0x82, 0x84, 0x86, 0x88, 0x8A, 0x8C]
  | 1 => [0x01, 0x02, 0x06, 0x10, 0x14]
  | _ => []

/-- Errors of the Error Information page: identifiers, and the object key in the Command Specific Information and LBA fields (R127). -/
def errorPieces (l : List (Nat × Nat × Nat)) : List Piece :=
  (l.zipIdx.map fun ei =>
    [{ off := 64 * ei.2 + 8, bytes := leBytes 2 ei.1.1 ++ leBytes 2 ei.1.2.1 },
     { off := 64 * ei.2 + 16, bytes := leBytes 8 (ei.1.2.2 / 2 ^ 64) },
     { off := 64 * ei.2 + 32, bytes := leBytes 8 ei.1.2.2 }]).flatten ++
    [{ off := 64 * l.length, bytes := List.replicate (64 * (256 - l.length)) 0 }]

/-- The composite temperature in kelvin: the hottest sensor (R98). -/
def compositeKelvin (d : Dev) : Nat := (d.weir.x[27].toInt / 65536 + 273).toNat

/-- SMART / Health: the Critical Warning bits, the composite temperature and the unsafe shutdowns (R98, R366, R375, R379). -/
def smartPieces (d : Dev) : List Piece :=
  [{ off := 0, bytes := [BitVec.ofNat 8 d.media.critical], mask := 0x0D },
   { off := 1, bytes := leBytes 2 (compositeKelvin d) },
   { off := 144, bytes := leBytes 16 (objNum d 0x385007) }]

/-- Firmware Slot Information: the running slot, the slot of the next start where it differs, and empty slots without a revision (R535). -/
def firmwarePieces (d : Dev) : List Piece :=
  let next := if d.fw.active + 1 = d.fw.running then 0 else d.fw.active + 1
  [{ off := 0, bytes := leBytes 1 (d.fw.running + 16 * next) }] ++
    (if d.fw.nor[0].isEmpty then [{ off := 8, bytes := leBytes 8 0 }] else []) ++
    (if d.fw.nor[1].isEmpty then [{ off := 16, bytes := leBytes 8 0 }] else []) ++
    [{ off := 24, bytes := leBytes 40 0 }]

/-- Device Self-test: no test runs, and the results newest first; a place without one reads Fh. -/
def selfTestPieces (l : List (Nat × Nat)) : List Piece :=
  [{ off := 0, bytes := [0], mask := 0x0F }, { off := 1, bytes := [0], mask := 0x7F }] ++
    (List.range 20).map fun i => match l[i]? with
      | some (stc, r) => { off := 4 + 28 * i, bytes := leBytes 1 (16 * stc + r) }
      | none => { off := 4 + 28 * i, bytes := [0x0F], mask := 0x0F }

/-- An entry of the Content Withdrawal page (R532). -/
def withdrawalBytes (w : Withdrawal) : Bytes :=
  leBytes 16 w.key ++ leBytes 8 w.at_ ++ leBytes 4 w.label ++ leBytes 1 w.cause ++ leBytes 3 0

/-- The Content Withdrawal page of a function (R532). -/
def withdrawalPage (c : Ctrl) : Bytes :=
  leBytes 4 c.withdrawals.length ++ leBytes 8 c.withdrawalsTotal ++ leBytes 4 c.withdrawalsLost ++
    leBytes 8 ((c.withdrawals.getLast?.map fun w => w.at_).getD 0) ++ leBytes 40 0 ++ (c.withdrawals.map withdrawalBytes).flatten

/-- The pages of the violation log and the device error log (R529). -/
def recordsPage (tm : Nat) (l : EventLog) : Bytes :=
  leBytes 4 l.newest ++ leBytes 2 l.recs.length ++ leBytes 2 0 ++ leBytes 8 tm ++ leBytes 48 0 ++ (l.recs.reverse.map recBytes).flatten

/-- Sanitize Status: never sanitized, in progress, or completed (R97, R377). -/
def sanitizePieces (d : Dev) : List Piece :=
  let st := if d.media.waits.any fun w => w.opc = 0x84 then 2 else if d.media.sanitized = 0 then 0 else 1
  [{ off := 2, bytes := [st], mask := 7 }] ++ (if st = 2 then [] else [{ off := 0, bytes := [0xFF, 0xFF] }])

/-- A log page of a controller (R99); `csi` is the command set that Commands Supported and Effects is asked for. -/
def logPage (d : Dev) (id : Nat) (k : Ctrl) (lid csi : Nat) : Page :=
  let whole (size : Nat) (bs : Bytes) : Page := { size := size, pieces := [{ off := 0, bytes := bs }] }
  match lid with
  | 0x00 => { size := 1024, pieces := supportTable 0 256 (logPages d id).contains }
  | 0x01 => { size := 16384, pieces := errorPieces k.errorLog }
  | 0x02 => { size := 512, pieces := smartPieces d }
  | 0x03 => { size := 512, pieces := firmwarePieces d }
  | 0x04 => whole 4096 (padTo 4096 (k.changedNs.map (leBytes 4)).flatten)
  | 0x05 =>
    { size := 4096
      pieces := supportTable 0 256 (fun i => adminOpcodes.contains i && (k.vf = 0 || !pfOpcodes.contains i)) ++
        (if csi < 2 then supportTable 1024 256 (setOpcodes csi).contains else []) }
  | 0x06 => { size := 564, pieces := selfTestPieces d.fw.selfTests }
  | 0x07 => { size := 512, pieces := [{ off := 0, bytes := [7] }] }
  | 0x08 => { size := 512, pieces := [{ off := 0, bytes := [8] }] }
  | 0x0D => { size := 512, pieces := [{ off := 0, bytes := [0x0D] }] }
  | 0x12 => { size := 1024, pieces := supportTable 0 256 featureIds.contains }
  | 0x13 => { size := 1024, pieces := [] }
  | 0x80 => { size := 64, pieces := [] }
  | 0x81 => { size := 512, pieces := sanitizePieces d }
  | 0xC0 => whole (64 + 32 * 256) (withdrawalPage k)
  | 0xC1 => whole (64 + 64 * 1024) (recordsPage d.tm d.vioLog)
  | _ => whole (64 + 64 * 1024) (recordsPage d.tm d.errLog)

/-- Notice codes whose log page a page is (R533). -/
def pageCodes (lid : Nat) : List Nat := if lid = 0xC0 then [0] else if lid = 0xC1 then [2] else if lid = 0xC2 then [1, 3, 4, 5, 6, 7] else []

/-- What a read with Retain Asynchronous Event clear does besides: it re-arms the page's codes, removes the withdrawals it returned, and
clears the Changed Namespace List (R99, R532, R534). -/
def rearm (id lid off len : Nat) (d : Dev) : Dev :=
  modifyCtrl id (fun k =>
    { k with
      masked := k.masked.filter fun n => !(pageCodes lid).contains n
      changedNs := if lid = 0x04 then [] else k.changedNs
      withdrawals :=
        if lid = 0xC0 then (k.withdrawals.zipIdx.filter fun wi => !decide (off ≤ 64 + 32 * wi.2 ∧ 96 + 32 * wi.2 ≤ off + len)).map Prod.fst
        else k.withdrawals }) d

/-- Get Log Page after its fetch (R99, R529, R532, R534). -/
def getLogPage (c : Cmd) (d : Dev) : Dev :=
  let lid := bits c.cdw10 7 0
  let len := 4 * (bits c.cdw10 31 16 + 65536 * bits c.cdw11 15 0 + 1)
  let off := c.cdw12 + 2 ^ 32 * c.cdw13
  match getCtrl d c.ctrl with
  | none => d
  | some k =>
    if !(logPages d c.ctrl).contains lid then done c stLogPage d
    else
      let p := logPage d c.ctrl k lid (bits c.cdw14 31 24)
      if off % 4 ≠ 0 ∨ p.size < off ∨ 8388608 < len then done c stField d
      else
        withData c (fun d =>
          let (bs, d1) := pageWindow p off len d
          let d2 := done c stOk (sendData c bs d1)
          if bit c.cdw10 15 then d2 else rearm c.ctrl lid off len d2) d

/-- GET_LOG_PAGE: admin 02h (R99). -/
def execGetLogPage (c : Cmd) (s : State) : Host.Outcome State Fault Refusal :=
  run (recoveryCmd (withOp 0x02 c) false (getLogPage (withOp 0x02 c))) s

/-! ## Identify (R91, R100 to R103, R427, R553) -/

/-- A power state descriptor: maximum power in 0.01 W, NOPS, ENLAT and EXLAT in µs (R427). -/
def psDescriptor (n mp : Nat) (nops : Bool) (enlat exlat : Nat) : List Piece :=
  [{ off := 2048 + 32 * n, bytes := leBytes 2 mp }, { off := 2051 + 32 * n, bytes := [if nops then 2 else 0], mask := 3 },
   { off := 2052 + 32 * n, bytes := leBytes 4 enlat ++ leBytes 4 exlat }]

/-- DRAM configuration B: x8 devices of 16 Gb in two ranks (R384). -/
def dramConfigB (d : Dev) : Bool := d.dram.cfg.1 = 8 && d.dram.cfg.2.1 = 16 && d.dram.cfg.2.2.1 = 2

/-- The power states (R427). -/
def psDescriptors (d : Dev) : List Piece :=
  psDescriptor 0 1500 false 0 0 ++ psDescriptor 1 1100 false 10 10 ++ psDescriptor 2 600 false 50 50 ++ psDescriptor 3 190 true 10 20 ++
    psDescriptor 4 18 true 3200 (if dramConfigB d then 12000 else 8000)

/-- Identify Controller (R91, R96, R97, R100, R427, R535, R553). -/
def identifyController (d : Dev) (id : Nat) (k : Ctrl) : Page :=
  { size := 4096
    pieces :=
      [{ off := 76, bytes := [if objNum d 0x101002 = 1 then 7 else 6, 11] ++ leBytes 2 id ++ leBytes 4 0x00020000 },
       { off := 88, bytes := leBytes 4 100000 },
       { off := 256, bytes := if k.vf = 0 then leBytes 2 0xDE else leBytes 2 0 },
       { off := 258, bytes := [7, 15] },
       { off := 260, bytes := [4], mask := 0x0F },
       { off := 262, bytes := [255, 4] },
       { off := 265, bytes := [1], mask := 1 },
       { off := 280, bytes := leBytes 16 (usableCapacity d) },
       { off := 516, bytes := leBytes 4 128 ++ leBytes 2 0xED ++ leBytes 2 0 },
       { off := 525, bytes := [0], mask := 1 },
       { off := 536, bytes := [2], mask := 3 },
       { off := 768, bytes := padTo 256 ((objOctets d 0x100008).getD []) }] ++ psDescriptors d }

/-- LBA size of a format as a power of two (R103). -/
def lbaShift (kind fmt : Nat) : Nat := if kind = 0 ∧ fmt = 0 then 9 else 12

/-- Blocks in use of a namespace (R375). -/
def nsUse (d : Dev) (n : Namespace) : Nat :=
  if n.kind = 0 then (d.media.store.map.filter fun e => e.1 / 2 ^ 32 = n.idx).length * unitBytes n.iu / lbaBytes n
  else usedBytes d n / lbaBytes n

/-- Identify Namespace of a block, Key Value or cache namespace (R102, R103, R105). -/
def identifyNamespace (d : Dev) (n : Namespace) : Page :=
  { size := 4096
    pieces :=
      [{ off := 0, bytes := leBytes 8 n.nsze ++ leBytes 8 n.ncap ++ leBytes 8 (nsUse d n) },
       { off := 25, bytes := [if n.kind = 0 then 1 else 0] },
       { off := 26, bytes := leBytes 1 n.fmt },
       { off := 27, bytes := [0, 0, 0] }] ++
      (if n.kind = 0 then [{ off := 33, bytes := [9] }] else []) ++
      (if n.kind = 1 then []
        else [{ off := 128, bytes := leBytes 2 0 ++ leBytes 1 (lbaShift n.kind 0) }]) ++
      (if n.kind = 0 then [{ off := 132, bytes := leBytes 2 0 ++ leBytes 1 12 }] else []) ++
      [{ off := 3072, bytes := leBytes 1 (if n.kind = 2 then 1 else 0) ++ leBytes 1 n.iu ++ leBytes 2 n.tag ++ leBytes 1020 0 }] }

/-- A page of nothing but zeros. -/
def zeroPage : Page := { size := 4096, pieces := [{ off := 0, bytes := List.replicate 4096 0 }] }

/-- A list of namespace identifiers as a page. -/
def idList (l : List Nat) : Page := { size := 4096, pieces := [{ off := 0, bytes := padTo 4096 (l.map (leBytes 4)).flatten }] }

/-- A controller list as a page. -/
def ctrlList (l : List Nat) : Page :=
  { size := 4096, pieces := [{ off := 0, bytes := padTo 4096 (leBytes 2 (l.take 2047).length ++ ((l.take 2047).map (leBytes 2)).flatten) }] }

/-- Every namespace identifier with the controllers it is attached to. -/
def allNamespaces (d : Dev) : List (Nat × List Nat) :=
  (d.media.nss.map fun kn => (kn.1, kn.2.attached)) ++ (d.rt.aux.map fun kn => (kn.1, kn.2.attached))

/-- Namespace identifiers above one, in rising order, that satisfy a test. -/
def nsidsAbove (d : Dev) (lo : Nat) (p : List Nat → Bool) : List Nat :=
  ((allNamespaces d).filter fun x => decide (lo < x.1) && p x.2).foldl (fun acc x => insNat x.1 acc) []

/-- Flexible resources of a port: in all and assigned (R109, R110). -/
def flexTotals (d : Dev) (p : Fin 2) : (Nat × Nat) × (Nat × Nat) :=
  let vfs := (vfsOf d p).filter fun kc => kc.2.poolState = 1
  let vq := vfs.foldl (fun a kc => a + kc.2.vq) 0
  let vi := vfs.foldl (fun a kc => a + kc.2.vi) 0
  ((d.host.flexVq[p] + vq, vq), (d.host.flexVi[p] + vi, vi))

/-- Primary Controller Capabilities (R109, R110). -/
def primaryCaps (d : Dev) (id : Nat) (p : Fin 2) : Page :=
  let t := flexTotals d p
  { size := 4096
    pieces :=
      [{ off := 0, bytes := leBytes 2 id }, { off := 4, bytes := [3], mask := 3 },
       { off := 32, bytes := leBytes 4 t.1.1 ++ leBytes 4 t.1.2 ++ leBytes 2 0 ++ leBytes 2 17 },
       { off := 64, bytes := leBytes 4 t.2.1 ++ leBytes 4 t.2.2 ++ leBytes 2 0 ++ leBytes 2 17 }] }

/-- An entry of the Secondary Controller List (R109, R111). -/
def secondaryEntry (pf : Nat) (kc : Nat × Ctrl) : Bytes :=
  leBytes 2 kc.1 ++ leBytes 2 pf ++ leBytes 1 kc.2.online.toNat ++ leBytes 3 0 ++ leBytes 2 kc.2.vf ++ leBytes 2 kc.2.vq ++ leBytes 2 kc.2.vi ++
    leBytes 18 0

/-- Secondary Controller List from a controller ID on (R109, R111). -/
def secondaryList (d : Dev) (p : Fin 2) (lo : Nat) : Page :=
  let l := ((vfsOf d p).filter fun kc => decide (lo ≤ kc.1)).take 127
  { size := 4096
    pieces := [{ off := 0, bytes := padTo 4096 (leBytes 1 l.length ++ leBytes 31 0 ++ (l.map (secondaryEntry (pfOf p))).flatten) }] }

/-- Command set of a namespace: 0 NVM, 1 Key Value (R102). -/
def nsCsi (n : Namespace) : Nat := if n.kind = 1 then 1 else 0

/-- Command set of a namespace identifier that is attached to a controller: 3 Subsystem Local Memory, 4 Computational Programs. -/
def csiOf (d : Dev) (ctrl nsid : Nat) : Option Nat :=
  match attachedNs d ctrl nsid, attachedAux d ctrl nsid with
  | some n, _ => some (nsCsi n)
  | none, some a => some (if a.isMemory then 3 else 4)
  | none, none => none

/-- The page that an Identify asks for; none where the part does not offer it.  `.error` is a status. -/
def identifyPage (c : Cmd) (d : Dev) (k : Ctrl) : Except Status Page :=
  let cns := bits c.cdw10 7 0
  let cntid := bits c.cdw10 31 16
  let csi := bits c.cdw11 31 24
  let p := portIdx k.port
  let blank : Page := { size := 4096, pieces := [] }
  let known := (mapGet d.media.nss c.nsid).isSome || (mapGet d.rt.aux c.nsid).isSome
  if cns = 0x01 then .ok (identifyController d c.ctrl k)
  else if d.power.phase = .recovery then .error stField
  else match cns with
    | 0x00 => match attachedNs d c.ctrl c.nsid with
      | some n => if n.kind = 1 then .error stField else .ok (identifyNamespace d n)
      | none => if known then .ok zeroPage else .error stNamespace
    | 0x02 => .ok (idList (nsidsAbove d c.nsid fun l => l.contains c.ctrl))
    | 0x03 => match csiOf d c.ctrl c.nsid with
      | some _ => .ok blank
      | none => .error stNamespace
    | 0x05 => match csiOf d c.ctrl c.nsid with
      | some x => if x = csi then .ok (match attachedNs d c.ctrl c.nsid with
          | some n => if n.kind = 1 then identifyNamespace d n else blank
          | none => blank) else .error stField
      | none => if known then .ok zeroPage else .error stNamespace
    | 0x06 => if csi = 0 ∨ csi = 1 ∨ csi = 3 ∨ csi = 4 then .ok blank else .error stField
    | 0x07 => .ok (idList ((nsidsAbove d c.nsid fun l => l.contains c.ctrl).filter fun n => csiOf d c.ctrl n = some csi))
    | 0x10 => .ok (idList (nsidsAbove d c.nsid fun _ => true))
    | 0x11 => match mapGet d.media.nss c.nsid with
      | some n => .ok (identifyNamespace d n)
      | none => if known then .ok blank else .error stNamespace
    | 0x12 => match (allNamespaces d).find? fun x => x.1 = c.nsid with
      | some x => .ok (ctrlList ((x.2.foldl (fun acc i => insNat i acc) []).filter fun i => decide (cntid ≤ i)))
      | none => .error stNamespace
    | 0x13 => .ok (ctrlList ((d.host.ctrls.map Prod.fst).filter fun i => decide (cntid ≤ i)))
    | 0x14 => if k.vf = 0 then .ok (primaryCaps d c.ctrl p) else .error stField
    | 0x15 => if k.vf = 0 then .ok (secondaryList d p cntid) else .error stField
    | 0x1C => .ok { size := 4096, pieces := [{ off := 0, bytes := padTo 4096 (leBytes 8 0x1B) }] }
    | _ => .error stField

/-- IDENTIFY: admin 06h (R100, R540). -/
def execIdentify (c : Cmd) (s : State) : Host.Outcome State Fault Refusal :=
  let c := withOp 0x06 c
  run (recoveryCmd c false (fun d => match getCtrl d c.ctrl with
    | none => d
    | some k => match identifyPage c d k with
      | .error st => done c st d
      | .ok p => withData c (fun d =>
        let (bs, d1) := pageWindow p 0 4096 d
        done c stOk (sendData c bs d1)) d)) s

end Sys2Proof.Machine
end

