-- ==== Sys2Proof/Machine/Startup.lean ====
section
/-! DEFINITION. Machine/Startup.lean: a start from reset to service, recovery, firmware images, their download, commit and activation, and
the life record (R41 to R43, R55, R349, R380, R381, R390, R473, R535 to R547). -/
namespace Sys2Proof.Machine

/-! ## Firmware images (R536, R537) -/

/-- Length of a firmware image by its header. -/
def fwLength (img : Bytes) : Nat := 256 + leField img 16 4

/-- The header fields of an image meet R536. -/
def fwHeaderOk (img : Bytes) : Bool :=
  let body := leField img 16 4
  decide (256 ≤ img.length) && leField img 0 4 = 0x46574C56 && leField img 4 2 = 1 && leField img 6 2 = 256 &&
    decide (3840 ≤ body ∧ body ≤ 16776960) && (256 + body) % 4096 = 0 && leField img 20 4 % 4 = 0 && decide (leField img 20 4 < body) &&
    leField img 24 1 / 8 = 0 && (slice img 25 135).all (· = 0) && decide (fwLength img ≤ img.length)

/-- What the signature of an image covers. -/
def fwSigned (img : Bytes) : Bytes := img.take 160 ++ slice img 256 (leField img 16 4)

/-- An image that may run on this part: header, variant, security version and signature (R537). -/
def fwValid (d : Dev) (img : Bytes) : Bool :=
  fwHeaderOk img && bit (leField img 24 1) (byVariant d.variant 0 1 2) && decide (d.fw.floor ≤ leField img 8 4) &&
    ecdsaVerify d.fuses.bootKey (fwSigned img) (slice img 160 96)

/-- NOR contents of a slot. -/
def norSlot (d : Dev) (s : Nat) : Bytes := if s = 0 then d.fw.nor[0] else d.fw.nor[1]

/-- Firmware slots changed. -/
def modifyFw (f : Firmware → Firmware) (d : Dev) : Dev := { d with fw := f d.fw }

/-! ## START (R42, R110, R116, R215, R473, R538) -/

/-- The strap latches (R43). -/
def latchStraps (id : Nat) (bifurc bootsrc : Bool) (d : Dev) : Dev :=
  setNum 0x101001 (id % 8) (setNum 0x101002 bifurc.toNat (setNum 0x101003 bootsrc.toNat d))

/-- The epoch raised, and the start recorded: cause, number, release time, JTAG locked (R473, R500, R539). -/
def recordStart (restored : List Nat) (d : Dev) : Dev :=
  let d1 := devPersist 0x202006 (objNum d 0x202006 + 1) d
  let d2 := restored.foldl (fun d k => logError 0x0A 1 4 0 (leBytes 4 k) (bump 0x200008 d)) d1
  setNum 0xF00001 d2.power.nextCause (bump 0xF00002 (setNum 0xF00003 (d2.tm % 2 ^ 64) (setNum 0xF00004 0 d2)))

/-- TotalVFs of the two ports (R116). -/
def startVfs (d : Dev) : Nat × Nat :=
  let v := byVariant d.variant 255 127 15
  if objNum d 0x101003 = 1 then (0, 0)
  else if objNum d 0x101002 = 1 then (objNum d 0x401001, v - objNum d 0x401001)
  else (v, 0)

/-- Flexible VQ or VI of the two ports: the total less the PFs' private ones, shared by TotalVFs (R109, R110). -/
def flexShare (d : Dev) (total keep : Nat) : Nat × Nat :=
  let v := byVariant d.variant 255 127 15
  if objNum d 0x101002 = 1 then
    let f := total - 2 * keep
    (f * (startVfs d).1 / v, f - f * (startVfs d).1 / v)
  else (total - keep, 0)

/-- The Host island at a start: ports, PFs and resources (R87, R91, R110, R540). -/
def startHost (perst0 perst1 : Bool) (d : Dev) : Dev :=
  let two := objNum d 0x101002 = 1 && objNum d 0x101003 = 0
  let (q0, q1) := flexShare d 4096 16
  let (i0, i1) := flexShare d 4352 17
  let p0 : Port := { perst := perst0, training := !perst0, totalVfs := (startVfs d).1 }
  let p1 : Port := { perst := perst1, training := two && !perst1, totalVfs := (startVfs d).2 }
  let pfs : AMap Ctrl := if two then [(1, { port := 0 }), (2, { port := 1 })] else [(1, { port := 0 })]
  { d with host := { d.host with ctrls := pfs, ports := #v[p0, p1], flexVq := #v[q0, q1], flexVi := #v[i0, i1] } }

/-- Estuary's units after the known-answer tests of a start (R215, R221). -/
def startEstuary (katA katB : Bool) (d : Dev) : Dev :=
  let a := if d.variant = .vl7e then 2 else if katA then 0 else 1
  let b := if d.variant = .vl7s then (if katB then 0 else 1) else 2
  let failed := (d.variant ≠ .vl7e && !katA) || (d.variant = .vl7s && !katB)
  let d1 := modifyEstuary 0 (fun e => { e with state := a }) (modifyEstuary 1 (fun e => { e with state := b }) d)
  if d.variant = .vl7e then d1 else setNum 0x58000A failed.toNat d1

/-- The membership of a start: the mode latched from 0x8001.01, and the refusal of a VL7-M whose CASC_ID is 4 to 7 (R6, R505, R509). -/
def startCascade (d : Dev) : Cascade :=
  let refused := decide (d.variant = .vl7m ∧ 4 ≤ objNum d 0x101001)
  { d.cas with
    configured := objNum d 0x800101
    state := if refused then 4 else d.cas.state
    cause := if refused then 1 else d.cas.cause }

/-- Steps 1 to 4 of R538: supervisor core 0 runs the boot ROM. -/
def startPart (id : Nat) (bifurc bootsrc perst0 perst1 katA katB : Bool) (restored : List Nat) (d : Dev) : Dev :=
  let d1 := recordStart restored (latchStraps id bifurc bootsrc d)
  let d2 := startEstuary katA katB (startHost perst0 perst1 d1)
  let d3 := { d2 with
    dram := { d2.dram with cfg := (objNum d2 0x340001, objNum d2 0x340002, objNum d2 0x340003, objNum d2 0x340004) }
    cas := startCascade d2 }
  let d4 := modifyWeir (fun w => { w with tokens := objNum d3 0x314002 }) (unwrapMgmt d3)
  modifyCore 32 (fun c => { c with run := .running })
    (modifyPower (fun p => { p with phase := if bootsrc then .recovery else .boot, xtalLocked := false }) d4)

/-- START: every rail has been good for 1 ms with SYS_RST_n high.  The operands are the strap levels, the levels of PERST_n and PERST1_n
(true while asserted), the results of Estuary's known-answer tests, and the PRA records restored from the mirror (R42, R215, R476, R538). -/
def execStart (now id : Nat) (bifurc bootsrc perst0 perst1 katA katB : Bool) (restored : List Nat) (s : State) : Host.Outcome State Fault Refusal :=
  run (fun d =>
    let d1 := advanceTo now d
    if d1.power.phase = .inReset then startPart id bifurc bootsrc perst0 perst1 katA katB restored d1 else d1) s

/-- PERST_DEASSERT: the port starts training; port 1 exists in bifurcated mode only, and not in recovery (R40, R538, R540). -/
def execPerstDeassert (port : Fin 2) (now : Nat) (s : State) : Host.Outcome State Fault Refusal :=
  run (fun d =>
    let d1 := advanceTo now d
    let live := d1.power.phase ≠ .inReset && d1.power.phase ≠ .off && d1.power.phase ≠ .flushing &&
      (port = 0 || (objNum d1 0x101002 = 1 && d1.power.phase ≠ .recovery))
    modifyPort port (fun q => { q with perst := false, training := live }) d1) s

/-! ## Boot image and DRAM training (R384, R390, R537 to R539, R547) -/

/-- Bytes of an image's body put where the firmware runs, from the first byte of its reserved GiB on, and supervisor core 0 at its entry
(R384, R538; log entry 51). -/
def enterImage (img : Bytes) (d : Dev) : Dev :=
  let base := dramCapacity d.dram.cfg - 2 ^ 30
  modifyCore 32 (fun c =>
    { c with dab0 := BitVec.ofNat 32 (base / 2 ^ 30), pc := 0x80000000 + BitVec.ofNat 32 (leField img 20 4) })
    (storeBytes (dramKey base) (slice img 256 (leField img 16 4)) .clean d)

/-- What the firmware does first: it logs the slots passed over, and makes the slot that booted active (R539). -/
def firstWork (d : Dev) : Dev :=
  let d1 := d.fw.passed.foldl (fun d s => logError 0x06 2 6 0 (leBytes 4 (s + 1)) d) d
  if d1.fw.running ≠ d1.fw.active + 1 then modifyFw (fun f => { f with active := f.running - 1 }) (noticePfs 0x01 0xC2 d1) else d1

/-- Step 9 of R538, once the image is verified and training has ended: the firmware runs, or answers from the Pool where training has failed
(R547). -/
def enterFirmware (d : Dev) : Dev :=
  if !d.power.imageUp ∨ d.power.phase ≠ .boot then d
  else if d.dram.failed then
    firstWork (logError 0x0B 3 3 0 [] (modifyPower (fun p => { p with phase := .dramFailed }) d))
  else if d.power.trained then
    firstWork (modifyCore 33 (fun c => { c with run := .running })
      (modifyPower (fun p => { p with phase := .firmware }) (enterImage (norSlot d (d.fw.running - 1)) d)))
  else d

/-- The boot ROM's choice: the active slot, then the other; with neither valid, recovery (R539, R540). -/
def verifyBoot (d : Dev) : Dev :=
  let tries := [d.fw.active, 1 - d.fw.active]
  match tries.find? fun s => fwValid d (norSlot d s) with
  | none => modifyPower (fun p => { p with phase := .recovery }) (modifyFw (fun f => { f with passed := tries }) d)
  | some s =>
    let d1 := modifyFw (fun f => { f with running := s + 1, passed := tries.takeWhile (· ≠ s) }) d
    enterFirmware (setNum 0x100005 (leField (norSlot d s) 12 4) (modifyPower (fun p => { p with imageUp := true }) d1))

/-- BOOT_IMAGE_VERIFY (R537 to R540). -/
def execBootImageVerify (now : Nat) (s : State) : Host.Outcome State Fault Refusal :=
  run (fun d =>
    let d1 := advanceTo now d
    if d1.power.phase = .boot ∧ !d1.power.imageUp then verifyBoot d1 else d1) s

/-- One lane's result of the training sweeps: sub-channel, rank * 5 + lane, passing steps of the read and of the write sweep. -/
abbrev LaneSweep := Fin 4 × Fin 10 × List Bool × List Bool

/-- A lane's delays and eyes set (R390). -/
def trainLane (l : LaneSweep) (d : Dev) : Dev :=
  modifySub l.1 (fun s =>
    { s with lanes := s.lanes.set l.2.1 (sweepLane true l.2.2.2 (sweepLane false l.2.2.1 s.lanes[l.2.1])) }) d

/-- True when every lane of the configuration has eyes of at least 19 steps (R390). -/
def eyesWide (d : Dev) : Bool :=
  (List.finRange 4).all fun i => (List.finRange 10).all fun k =>
    decide (5 * ranksOf d.dram.cfg ≤ k.val) ||
      decide (19 ≤ d.dram.sub[i].lanes[k].readEye ∧ 19 ≤ d.dram.sub[i].lanes[k].writeEye)

/-- Training ends: done, or failed by a narrow eye, a device that does not answer as configured, or a combination that R383 lacks (R384,
R390). -/
def endTraining (sweeps : List LaneSweep) (asConfigured : Bool) (temp : Word) (d : Dev) : Dev :=
  let d1 := sweeps.foldl (fun d l => trainLane l d) d
  if asConfigured && dramCapacity d1.dram.cfg ≠ 0 && eyesWide d1 then
    let (seed, d2) := drawBelow (2 ^ 64) d1
    enterFirmware (setNum 0x341001 temp.toNat (setNum 0x341005 (d2.tm % 2 ^ 64)
      (modifyWeir (fun w => { w with phyRecorded := temp }) (modifyPower (fun p => { p with trained := true })
        { d2 with dram := { d2.dram with trained := true, rng := BitVec.ofNat 64 seed } }))))
  else enterFirmware { d1 with dram := { d1.dram with failed := true } }

/-- DRAM_TRAINING_DONE: the sweeps of the lanes, whether every rank answers with the configured width and density, and the PHY sensor's
temperature (R384, R390). -/
def execDramTrainingDone (now : Nat) (sweeps : List (Fin 4 × Fin 10 × List Bool × List Bool)) (asConfigured : Bool) (temp : Word) (s : State) : Host.Outcome State Fault Refusal :=
  run (fun d =>
    let d1 := advanceTo now d
    if d1.power.phase = .boot ∧ !d1.dram.trained ∧ !d1.dram.failed then endTraining sweeps asConfigured temp d1 else d1) s

/-! ## Mount (R349, R380, R381) -/

/-- Geometry that R348 supports. -/
def geometryOk (g : Geometry) : Bool :=
  decide (1 ≤ g.ce ∧ g.ce ≤ 8 ∧ 1 ≤ g.luns ∧ g.luns ≤ 4 ∧ (g.planes = 2 ∨ g.planes = 4) ∧ (g.cell = 3 ∨ g.cell = 4) ∧
    16 * g.ce * g.luns * g.planes * g.blocks * g.pages * 16384 ≤ 2 ^ 47)

/-- True when a map entry names a unit that was programmed, or is a mark. -/
def entryHolds (d : Dev) (e : Nat × Nat) : Bool :=
  decide (0xFFFFFFF0 ≤ e.2) || match nsByIdx d (e.1 / 2 ^ 32) with
    | some (_, n) => (mapGet d.media.units (unitKey (nsClass n) e.2)).isSome
    | none => false

/-- Entries that name units which were never programmed: a block namespace's unit goes back to its newest one; an object or value with such
a unit is absent (R119, R379, R381). -/
def dropTorn (d : Dev) : Dev :=
  let torn := (d.media.store.map.filter fun e => !entryHolds d e).map Prod.fst
  let isBlock (k : Nat) : Bool := match nsByIdx d (k / 2 ^ 32) with
    | some (_, n) => n.kind = 0
    | none => false
  let hits (idx base n : Nat) : Bool := torn.any fun k => k / 2 ^ 32 = idx && decide (base ≤ k % 2 ^ 32 ∧ k % 2 ^ 32 < base + n)
  let idxOf (o : ObjRec) : Nat := match nsByTag d (keyTag o.key) with
    | some (_, n) => n.idx
    | none => 128
  let goneRuns := (d.media.store.objs.filter fun ko => hits (idxOf ko.2) ko.2.base ko.2.units).map fun ko => (idxOf ko.2, ko.2.base, ko.2.units)
  let unitsOf (len : Nat) : Nat := ceilDiv len (unitBytes 1)
  let goneKv := (d.media.store.kv.map fun kv => (kv.2.filter fun v => hits kv.1 v.base (unitsOf v.len)).map fun v => (kv.1, v.base, unitsOf v.len)).flatten
  let inGone (k : Nat) : Bool := (goneRuns ++ goneKv).any fun r => r.1 = k / 2 ^ 32 && decide (r.2.1 ≤ k % 2 ^ 32 ∧ k % 2 ^ 32 < r.2.1 + r.2.2)
  let fix (m : AMap Nat) : AMap Nat := torn.foldl (fun m k =>
    if isBlock k then
      match newestUnit d (k / 2 ^ 32) (k % 2 ^ 32) with
      | some v => mapSet m k v
      | none => mapErase m k
    else mapErase m k) (m.filter fun e => !inGone e.1 || isBlock e.1)
  modifyMedia (fun m =>
    { m with store :=
      { m.store with
        map := fix m.store.map
        objs := m.store.objs.filter fun ko => !hits (idxOf ko.2) ko.2.base ko.2.units
        kv := mapValues m.store.kv fun idx vs => vs.filter fun v => !hits idx v.base (unitsOf v.len) } }) d

/-- Orphans of an open band: programmed units to which no map entry points (R381). -/
def orphansOf (d : Dev) (k : Nat) (b : Band) : Nat :=
  (d.media.units.filter fun u => u.1 / 2 ^ 48 = b.cls && bandOfVua d b.cls (u.1 % 2 ^ 48) = k &&
    mapGet d.media.store.map (mapKey u.2.ns u.2.lu) ≠ some (u.1 % 2 ^ 48)).length

/-- A band erased at mount (R381). -/
def eraseAtMount (k : Nat) (d : Dev) : Dev :=
  match mapGet d.media.store.bands k with
  | none => d
  | some b =>
    let mine (u : Nat) : Bool := u / 2 ^ 48 = b.cls && bandOfVua d b.cls (u % 2 ^ 48) = k
    let d1 := modifyWear b.row b.block (fun w => { w with erases := min eraseMax (w.erases + 1), reads := 0 }) d
    bump 0x385006 (journal (.band k { b with state := .free, next := 0, pins := 0 })
      (modifyMedia (fun m => { m with units := m.units.filter fun u => !mine u.1, bad := m.bad.filter fun u => !mine u }) d1))

/-- Bands resolved: open ones closed, orphan-only ones and stale sources erased, other sources closed again (R381). -/
def mountBands (unwarned : Bool) (d : Dev) : Dev :=
  let open_ := d.media.store.bands.filter fun kb => kb.2.state = .open
  let d1 := if unwarned then setNum 0x385005 (open_.foldl (fun a kb => a + orphansOf d kb.1 kb.2) 0) d else d
  d1.media.store.bands.foldl (fun d kb =>
    match kb.2.state with
    | .open =>
      if unwarned && (validUnits d kb.1 kb.2).isEmpty && decide (0 < orphansOf d kb.1 kb.2) then eraseAtMount kb.1 d else closeBand kb.1 d
    | .source =>
      if (validUnits d kb.1 kb.2).isEmpty then eraseAtMount kb.1 d else journal (.band kb.1 { kb.2 with state := .closed, pins := 0 }) d
    | _ => d) d1

/-- Eddy partition 0 rebuilt from the object records in use (R261, R380). -/
def rebuildIndex (d : Dev) : Dev := d.media.store.objs.foldl (fun d ko => (writeIndex ko.2.key ko.1 ko.2 d).2) d

/-- Program images put back into the program store (R329, R380). -/
def restorePrograms (d : Dev) : Dev :=
  let held := d.rt.slots
  let d1 := modifyRt (fun r => { r with slots := mapValues r.slots fun _ s => { s with current := none } }) d
  held.foldl (fun d ks =>
    match ks.2.current with
    | none => d
    | some v =>
      match storePlace d (versionBytes v.image) with
      | none => d
      | some b =>
        let img := v.image
        let code := slice img progCodeAt (progCodeLen img) ++ slice img (progRodataAt img) (progRodataLen img) ++
          slice img (progCheckAt img) (4 * progLines img)
        storeBytes (dramKey b) code .clean (modifyProg ks.1 (fun s => { s with current := some { v with base := b } }) d)) d1

/-- A NOR slot whose check fails rewritten from the copy in the metadata, with a record (R542). -/
def repairSlot (s : Nat) (d : Dev) : Dev :=
  let copy := if s = 0 then d.fw.mirror[0] else d.fw.mirror[1]
  if !fwValid d (norSlot d s) && fwValid d copy then
    logError 0x06 1 6 0 (leBytes 4 (s + 1))
      (modifyFw (fun f => { f with nor := if s = 0 then f.nor.set 0 copy else f.nor.set 1 copy }) d)
  else d

/-- Step 11 of R538: the runtime is installed, the service cores are released, Weir's law is enabled, the Confluence ports train, the floor
rises, and each enabled controller becomes ready (R272, R453, R505, R543). -/
def enterService (mounted : Bool) (d : Dev) : Dev :=
  let d1 := (List.finRange 34).foldl (fun d n =>
    if coreExists d.variant n && !CoreId.isSupervisor n then modifyCore n (fun c => { c with run := .waiting }) d else d) d
  let d2 := if mounted then modifyFw (fun f => { f with floor := max f.floor (leField (norSlot d1 (f.running - 1)) 8 4) })
    (repairSlot 0 (repairSlot 1 d1)) else d1
  let d3 := modifyPower (fun p => { p with phase := .ready }) d2
  let d4 := if objNum d3 0x310001 = 1 then enableLaw d3 else d3
  let d5 := if d4.variant = .vl7e then d4
    else { d4 with cas := { d4.cas with ports := d4.cas.ports.map fun p => { p with state := 1 } } }
  applyRequest { d5 with host := { d5.host with ctrls := mapValues d5.host.ctrls fun _ c => { c with ready := c.enabled && c.poolState ≠ 2 } } }

/-- True when the start came of a loss of power, or a return from Off, and not of a reset (R379; 0xF000.01). -/
def powerLost (d : Dev) : Bool := objNum d 0xF00001 = 0 || objNum d 0xF00001 = 4

/-- Mount (R380, R381): the store as the committed journal leaves it, torn units dropped, bands resolved, the index and the images back.  A
loss of power without a warning counts as an unsafe shutdown (R379). -/
def mountMedia (geo : Geometry) (metaBytes : Nat) (silent : List (Fin 16 × Nat)) (ms : Nat) (d : Dev) : Dev :=
  let unwarned := d.media.shutdown = 0
  let (back, d1) := drawBelow (objNum d 0x385001 + 1) d
  let d2 := setNum 0x385002 back (setNum 0x385003 (if unwarned then 2 else d.media.shutdown - 1) (setNum 0x385004 ms
    (modifyMedia (fun m => { m with geo := geo, metaBytes := metaBytes, store := m.durable, shutdown := 0 }) d1)))
  let d3 := if unwarned && powerLost d then devPersist 0x385007 (objNum d2 0x385007 + 1) d2 else d2
  let d4 := mountBands unwarned (dropTorn d3)
  let d5 := restorePrograms (rebuildIndex d4)
  silent.foldl (fun d l => retireLun l.1.val l.2 d) (modifyMedia (fun m => { m with ready := true }) d5)

/-- MOUNT_DONE: what the LUNs report, whether those that answer agree, the silent LUNs by channel and row, the raw capacity of the metadata
bands and the duration.  Outside R348, or with differing answers, the mount stops with media state 3 (R349, R380, R545). -/
def execMountDone (now ce luns planes pages blocks cell metaBytes ms : Nat) (agree : Bool) (silent : List (Fin 16 × Nat)) (s : State) : Host.Outcome State Fault Refusal :=
  run (fun d =>
    let d1 := advanceTo now d
    let geo : Geometry := { ce := ce, luns := luns, planes := planes, pages := pages, blocks := blocks, cell := cell }
    if d1.power.phase ≠ .firmware then d1
    else if !agree ∨ !geometryOk geo then enterService false (setNum 0x385004 ms (modifyMedia (fun m => { m with state := 3 }) d1))
    else background (enterService true (mountMedia geo metaBytes silent ms d1))) s

/-! ## Download, commit and activation (R541, R542, R544) -/

/-- FIRMWARE_IMAGE_DOWNLOAD: admin 11h (R541, R544). -/
def execFirmwareImageDownload (c : Cmd) (s : State) : Host.Outcome State Fault Refusal :=
  let c := withOp 0x11 c
  run (recoveryCmd c true (fun d =>
    let len := 4 * (c.cdw10 + 1)
    let off := 4 * c.cdw11
    if len % 4096 ≠ 0 ∨ off % 4096 ≠ 0 ∨ !zeroFrom 12 c then done c stField d
    else if d.fw.commit.isSome then done c stOverlap d
    else
      let held := if off = 0 then [] else d.fw.buffer
      if off ≠ held.length then done c stOverlap d
      else if 16 * 2 ^ 20 < off + len then done c stField d
      else withData c (fun d => done c stOk (modifyFw (fun f => { f with buffer := held ++ padTo len c.data }) d)) d)) s

/-- Slot that FS names: 0 selects the slot that is not running (R542). -/
def commitSlot (d : Dev) (fs : Nat) : Nat := if fs = 0 then (if d.fw.running = 1 then 1 else 0) else fs - 1

/-- A Firmware Commit with its action. -/
def withAction (ca : Nat) (c : Cmd) : Cmd := { c with opc := 0x10, cdw10 := c.cdw10 - bits c.cdw10 5 3 * 8 + ca * 8 }

/-- Firmware Commit after its fetch; recovery takes CA 0, 1 and 3 only (R540, R542, R544). -/
def commitFirmware (c : Cmd) (ca : Nat) (d : Dev) : Dev :=
  let fs := bits c.cdw10 2 0
  let slot := commitSlot d fs
  if !(zeroBits c.cdw10 31 6 && zeroFrom 11 c) || (d.power.phase = .recovery && ca = 2) then done c stField d
  else if d.fw.commit.isSome then done c stFwProhibited d
  else if 2 < fs then done c stFwSlot d
  else if ca = 2 then
    if fwValid d (norSlot d slot) then done c stOk (modifyFw (fun f => { f with active := slot }) d) else done c stFwSlot d
  else if fwValid d d.fw.buffer && d.fw.buffer.length = fwLength d.fw.buffer then
    modifyFw (fun f => { f with commit := some { ctrl := c.ctrl, cid := c.cid, slot := slot, action := ca, image := f.buffer } }) d
  else done c stFwImage d

/-- A Firmware Commit row. -/
def commitRow (c : Cmd) (ca : Nat) : Dev → Dev := recoveryCmd (withAction ca c) true (commitFirmware (withAction ca c) ca)

/-- FIRMWARE_COMMIT_WRITE: admin 10h, CA 0 (R542). -/
def execFirmwareCommitWrite (c : Cmd) (s : State) : Host.Outcome State Fault Refusal := run (commitRow c 0) s
/-- FIRMWARE_COMMIT_ACTIVATE_NEXT: CA 1 (R542). -/
def execFirmwareCommitActivateNext (c : Cmd) (s : State) : Host.Outcome State Fault Refusal := run (commitRow c 1) s
/-- FIRMWARE_COMMIT_SELECT_SLOT: CA 2 (R542). -/
def execFirmwareCommitSelectSlot (c : Cmd) (s : State) : Host.Outcome State Fault Refusal := run (commitRow c 2) s
/-- FIRMWARE_COMMIT_RESTART: CA 3 (R542). -/
def execFirmwareCommitRestart (c : Cmd) (s : State) : Host.Outcome State Fault Refusal := run (commitRow c 3) s

/-- The slot written, its copy kept in the metadata, the slot made active where asked, and the commit completed (R542). -/
def endCommit (w : FwCommit) (d : Dev) : Dev :=
  let put (v : Vector Bytes 2) : Vector Bytes 2 := if w.slot = 0 then v.set 0 w.image else v.set 1 w.image
  let d1 := modifyFw (fun f =>
    { f with
      commit := none
      nor := put f.nor
      mirror := if d.media.ready then put f.mirror else f.mirror
      active := if w.action = 0 then f.active else w.slot
      restartDue := f.restartDue || w.action = 3 }) d
  finish { ctrl := w.ctrl, sq := 0, cid := w.cid, cdw0 := 0x10 } d1

/-- FIRMWARE_SLOT_WRITE_DONE (R542). -/
def execFirmwareSlotWriteDone (now : Nat) (s : State) : Host.Outcome State Fault Refusal :=
  run (fun d =>
    let d1 := advanceTo now d
    match d1.fw.commit with
    | some w => endCommit w d1
    | none => d1) s

/-- FIRMWARE_ACTIVATION_RESTART: what is left is abandoned, the write buffers and the journal go to flash, and the part restarts with cause
5 (R542). -/
def execFirmwareActivationRestart (now : Nat) (s : State) : Host.Outcome State Fault Refusal :=
  run (fun d =>
    let d1 := advanceTo now d
    if d1.fw.restartDue then
      let d2 := stopHost d1
      deviceReset 5 (if d2.media.ready then modifyMedia (fun m => { m with shutdown := 1 }) (flushMedia d2) else d2)
    else d1) s

/-! ## The life record (R55) -/

/-- A Q16 number as an integer. -/
def q16Int (x : Nat) : Int := (BitVec.ofNat 32 x).toInt

/-- The mean of `h` hours at `avg` and one more at `x`; an inexact mean is rounded either way (log entry 1). -/
def nextMean (h avg x : Nat) (d : Dev) : Nat × Dev :=
  let sum := q16Int avg * h + q16Int x
  let lo := sum.fdiv (h + 1)
  let (up, d1) := drawBit d
  ((BitVec.ofInt 32 (if lo * (h + 1) ≠ sum ∧ up then lo + 1 else lo)).toNat, d1)

/-- LIFE_RECORD_UPDATE: a powered hour has passed, with its mean and its highest Tj in Q16 (R55). -/
def execLifeRecordUpdate (now mean peak : Nat) (s : State) : Host.Outcome State Fault Refusal :=
  run (fun d =>
    let d1 := advanceTo now d
    if d1.power.phase = .inReset ∨ d1.power.phase = .off then d1
    else
      let h := objNum d1 0x304001
      let (avg, d2) := nextMean h (objNum d1 0x304002) mean d1
      let above (t : Int) : Nat := if t * 65536 < q16Int mean then 1 else 0
      let top := objNum d2 0x304005
      devPersist 0x304005 (if h = 0 ∨ q16Int top < q16Int peak then peak % 2 ^ 32 else top)
        (devPersist 0x304004 (objNum d2 0x304004 + above 105) (devPersist 0x304003 (objNum d2 0x304003 + above 95)
          (devPersist 0x304002 avg (devPersist 0x304001 (h + 1) d2))))) s

end Sys2Proof.Machine
end

