-- ==== Sys2Proof/Machine/UnitRows.lean ====
section
/-! DEFINITION. Machine/UnitRows.lean: the commands of Eddy's program port and scan, of Riffle's queues, of the DRAM controller and of
memory integrity (R239 to R260, R388 to R419). -/
namespace Sys2Proof.Machine

/-! ## Eddy (R258, R260) -/

/-- A CMD store of a core with the OP of its row (R258); a core that does not exist or does not run stores nothing. -/
def eddyRow (n : CoreId) (cmd op : Nat) (bad : List Nat) (d : Dev) : Dev :=
  if coreExists d.variant n && d.cores[n].run = .running then portCommand n (cmd / 16 * 16 + op) bad d else d

/-- EDDY_SEARCH: `cmd` is the word stored to CMD, `bad` the addresses whose parity fails (R258, R260). -/
def execEddySearch (n : CoreId) (cmd : Nat) (bad : List Nat) (s : State) : Host.Outcome State Fault Refusal := run (eddyRow n cmd 0 bad) s
/-- EDDY_INSERT (R258). -/
def execEddyInsert (n : CoreId) (cmd : Nat) (s : State) : Host.Outcome State Fault Refusal := run (eddyRow n cmd 1 []) s
/-- EDDY_WRITE (R258). -/
def execEddyWrite (n : CoreId) (cmd : Nat) (s : State) : Host.Outcome State Fault Refusal := run (eddyRow n cmd 2 []) s
/-- EDDY_INVALIDATE (R258). -/
def execEddyInvalidate (n : CoreId) (cmd : Nat) (s : State) : Host.Outcome State Fault Refusal := run (eddyRow n cmd 3 []) s
/-- EDDY_SETDATA (R258). -/
def execEddySetdata (n : CoreId) (cmd : Nat) (s : State) : Host.Outcome State Fault Refusal := run (eddyRow n cmd 4 []) s
/-- EDDY_READ (R258). -/
def execEddyRead (n : CoreId) (cmd : Nat) (s : State) : Host.Outcome State Fault Refusal := run (eddyRow n cmd 5 []) s
/-- EDDY_OPERATION_DONE (R258). -/
def execEddyOperationDone (n : CoreId) (s : State) : Host.Outcome State Fault Refusal := run (portDone n) s

/-- The scan: every entry whose parity fails is invalidated with its event (R260). -/
def parityScan (bad : List Nat) (d : Dev) : Dev :=
  bad.foldl (fun d a => if (eddyEntry d a).valid then parityFail a d else d) d

/-- EDDY_PARITY_SCAN: the scan of every 100 ms; `bad` names the addresses whose parity fails (R260). -/
def execEddyParityScan (now : Nat) (bad : List Nat) (s : State) : Host.Outcome State Fault Refusal :=
  run (fun d => parityScan bad (advanceTo now d)) s

/-- The firmware's rewrite of an entry from its copy in DRAM, by the three steps of a new entry (R250, R260). -/
def rewriteEntry (a : Nat) (d : Dev) : Dev :=
  let e := eddyEntry d a
  if e.rewriting then putEntry a { e with valid := true, rewriting := false } (addNum 0x600005 3 d) else d

/-- EDDY_ENTRY_REWRITE (R260). -/
def execEddyEntryRewrite (a now : Nat) (s : State) : Host.Outcome State Fault Refusal := run (fun d => rewriteEntry a (advanceTo now d)) s

/-! ## Riffle (R239 to R241) -/

/-- A queue-register store of a running core whose descriptor has the operation of its row; a full queue stalls the core, and a VL7-E has no
queue register (R239, R241). -/
def riffleRow (i : Fin 2) (n : CoreId) (addr64 op : Nat) (d : Dev) : Dev :=
  if d.variant ≠ .vl7e && coreExists d.variant n && d.cores[n].run = .running && (takeDescriptor d n addr64).op = op then
    (publishDescriptor i n addr64 d).getD d
  else d

/-- RIFFLE_DECOMPRESS (R239). -/
def execRiffleDecompress (i : Fin 2) (n : CoreId) (addr64 : Nat) (s : State) : Host.Outcome State Fault Refusal := run (riffleRow i n addr64 0) s
/-- RIFFLE_COMPRESS (R239). -/
def execRiffleCompress (i : Fin 2) (n : CoreId) (addr64 : Nat) (s : State) : Host.Outcome State Fault Refusal := run (riffleRow i n addr64 1) s
/-- RIFFLE_CHECK (R239). -/
def execRiffleCheck (i : Fin 2) (n : CoreId) (addr64 : Nat) (s : State) : Host.Outcome State Fault Refusal := run (riffleRow i n addr64 2) s
/-- RIFFLE_DESCRIPTOR_DONE: the oldest descriptor of an instance completes (R240, R241). -/
def execRiffleDescriptorDone (i : Fin 2) (s : State) : Host.Outcome State Fault Refusal := run (finishDescriptor i) s

/-! ## DRAM requests (R386, R388, R398 to R403) -/

/-- True while the controller serves requests: trained and out of self-refresh. -/
def dramServes (d : Dev) : Bool := d.dram.trained && !d.dram.sub[0].selfRefresh

/-- DRAM_READ_REQUEST: a read of the line of an address; `ecc` gives the class of each of its 16 words that is not clean, `cbBad` the beats
whose CB[7] mismatches (R387, R388, R406). -/
def execDramReadRequest (addr : Nat) (ecc : List (Nat × Ecc)) (cbBad : List Nat) (now : Nat) (s : State) : Host.Outcome State Fault Refusal :=
  run (fun d =>
    let d1 := advanceTo now d
    if dramServes d1 && decide (addr < dramCapacity d1.dram.cfg) then (readLine addr ecc cbBad d1).2 else d1) s

/-- DRAM_WRITE_REQUEST: a write within one line, with the classes that its read of the line finds (R386, R402, R415). -/
def execDramWriteRequest (addr : Nat) (bytes : Bytes) (ecc : List (Nat × Ecc)) (cbBad : List Nat) (now : Nat) (s : State) : Host.Outcome State Fault Refusal :=
  run (fun d =>
    let d1 := advanceTo now d
    if dramServes d1 && decide (addr + bytes.length ≤ dramCapacity d1.dram.cfg ∧ 0 < bytes.length ∧ addr % 64 + bytes.length ≤ 64) then
      writeLine addr bytes ecc cbBad d1
    else d1) s

/-- REAL_TIME_BURST: `n` lines read from an address, or written where `data` is given; `ns` is how long the burst took, `forced` the
sub-channel on which a fifth REFsb fell due, `metStep` that it met a retraining step (R398 to R401). -/
def execRealTimeBurst (addr n : Nat) (data : Option Bytes) (ns : Nat) (forced : Option (Fin 4)) (metStep : Bool) (now : Nat) (s : State) : Host.Outcome State Fault Refusal :=
  run (fun d =>
    let d1 := advanceTo now d
    let a := addr / 64 * 64
    if dramServes d1 && decide (a + 64 * n ≤ dramCapacity d1.dram.cfg) then
      let d2 := rtBursts n a n ns forced metStep d1
      match data with
      | some bs => storeBytes (dramKey a) (padTo (64 * n) bs) .clean d2
      | none => d2
    else d1) s

/-- Writes drained, row hits first, while the oldest has waited longer than the age limit (R402); the first argument bounds the run. -/
def drainAged (i : Fin 4) : Nat → Dev → Dev
  | 0, d => d
  | n + 1, d =>
    match d.dram.sub[i].writes with
    | [] => d
    | w :: _ =>
      if w.since + objNum d 0x343003 * 1000 < d.tm then drainAged i n (drainTo i (d.dram.sub[i].writes.length - 1) 1 d) else d

/-- WRITE_AGE_DRAIN (R402). -/
def execWriteAgeDrain (sub : Fin 4) (now : Nat) (s : State) : Host.Outcome State Fault Refusal :=
  run (fun d => drainAged sub 64 (advanceTo now d)) s

/-! ## Refresh (R393 to R397) -/

/-- Refresh slot of a rank and a bank index. -/
def refreshSlot (rank : Fin 2) (idx : Fin 4) : Fin 8 := ⟨rank.val * 4 + idx.val, by omega⟩

/-- True for a rank that the configuration has, out of self-refresh. -/
def refreshes (d : Dev) (sub : Fin 4) (rank : Fin 2) : Bool :=
  d.dram.trained && !d.dram.sub[sub].selfRefresh && decide (rank.val < ranksOf d.dram.cfg)

/-- One more REFsb owed; a fifth is issued at once (R393, R394). -/
def refsbDue (sub : Fin 4) (slot : Fin 8) (d : Dev) : Dev :=
  let d1 := modifySub sub (fun s => { s with owed := s.owed.set slot (s.owed[slot] + 1) }) d
  let d2 := if 5 ≤ d1.dram.sub[sub].owed[slot] then issueRefsb sub slot d1 else d1
  setNum 0x342003 (max (objNum d2 0x342003) (d2.dram.sub[sub].owed[slot])) d2

/-- REFSB_DUE (R393, R394). -/
def execRefsbDue (sub : Fin 4) (rank : Fin 2) (idx : Fin 4) (now : Nat) (s : State) : Host.Outcome State Fault Refusal :=
  run (fun d =>
    let d1 := advanceTo now d
    if refreshes d1 sub rank then refsbDue sub (refreshSlot rank idx) d1 else d1) s

/-- REFSB_ISSUE: the banks of an owed REFsb are idle (R394). -/
def execRefsbIssue (sub : Fin 4) (rank : Fin 2) (idx : Fin 4) (now : Nat) (s : State) : Host.Outcome State Fault Refusal :=
  run (fun d =>
    let d1 := advanceTo now d
    let slot := refreshSlot rank idx
    if refreshes d1 sub rank && decide (0 < d1.dram.sub[sub].owed[slot]) then issueRefsb sub slot d1 else d1) s

/-- RFM_ISSUE: the bank of an owed RFM is idle (R397). -/
def execRfmIssue (sub : Fin 4) (bank now : Nat) (s : State) : Host.Outcome State Fault Refusal :=
  run (fun d =>
    let d1 := advanceTo now d
    if d1.dram.sub[sub].owedRfm.contains bank then issueRfm sub bank d1 else d1) s

/-- NEIGHBOUR_REFRESH: the oldest entry of the list is served (R396). -/
def execNeighbourRefresh (sub : Fin 4) (now : Nat) (s : State) : Host.Outcome State Fault Refusal :=
  run (fun d => serveNeighbour sub (advanceTo now d)) s

/-- The interval that each rank asks for: 1.95 µs above 85 °C (R393); the object shows the shortest in use (log entry 44). -/
def setIntervals (hot : List (Fin 4 × Fin 2)) (d : Dev) : Dev :=
  let d1 := (List.finRange 4).foldl (fun d i => modifySub i (fun s =>
    { s with trefi := Vector.ofFn fun r => if hot.contains (i, r) then 1950 else 3900 }) d) d
  let shown := hot.any fun ir => decide (ir.2.val < ranksOf d.dram.cfg)
  setNum 0x342001 (if shown then 1950 else 3900) d1

/-- DRAM_TEMP_POLL: the ranks that report above 85 °C (R393). -/
def execDramTempPoll (hot : List (Fin 4 × Fin 2)) (now : Nat) (s : State) : Host.Outcome State Fault Refusal :=
  run (fun d => if d.dram.trained then setIntervals hot (advanceTo now d) else advanceTo now d) s

/-! ## Command parity and retraining (R389 to R392) -/

/-- ALERT_n: one replay, and a second assertion within 1 ms marks the sub-channel for retraining (R389). -/
def alertAsserted (sub : Fin 4) (d : Dev) : Dev :=
  let again : Bool := match (d.dram.sub[sub]).alertAt with
    | some t => decide (d.tm < t + 1000000)
    | none => false
  let d1 := bump 0x344003 (gaugeCount 0x0F8 (modifySub sub (fun s =>
    { s with
      alertAt := some d.tm
      retrainDue := s.retrainDue || again }) d))
  cond again (logError 0x0B 1 2 0 (leBytes 1 sub.val) d1) d1

/-- CA_PARITY_ALERT (R389). -/
def execCaParityAlert (sub : Fin 4) (now : Nat) (s : State) : Host.Outcome State Fault Refusal :=
  run (fun d => if d.dram.trained then alertAsserted sub (advanceTo now d) else advanceTo now d) s

/-- True while another sub-channel's retrain is under way: they take turns (R391). -/
def otherRetrains (d : Dev) (sub : Fin 4) : Bool := (List.finRange 4).any fun i => i ≠ sub && decide (0 < d.dram.sub[i].retrainStep)

/-- One step of a retrain: read and write of each lane of each rank in turn; the last one ends the retrain (R391, R392). -/
def retrainStep (sub : Fin 4) (passing : List Bool) (temp : Word) (d : Dev) : Dev :=
  let c := d.dram.sub[sub]
  let soon := match c.stepAt with
    | some t => decide (d.tm < t + 100000)
    | none => false
  if !c.retrainDue || soon || otherRetrains d sub then d
  else
    let k := c.retrainStep
    let d1 := retrainLane sub (k / 10) (k % 10 / 2) (k % 2 = 1) passing d
    if k + 1 < 10 * ranksOf d.dram.cfg then
      modifySub sub (fun s => { s with retrainStep := k + 1, stepAt := some d.tm }) d1
    else
      let d2 := modifySub sub (fun s => { s with retrainStep := 0, stepAt := some d.tm, retrainDue := false }) d1
      setNum 0x341001 temp.toNat (setNum 0x341005 (d.tm % 2 ^ 64) (bump 0x341003 (gaugeCount 0x0F7
        (modifyWeir (fun w => { w with phyRecorded := temp }) d2))))

/-- DRAM_RETRAIN_STEP: the next step of a retrain, with the passing steps of its sweep and the PHY sensor's temperature (R391). -/
def execDramRetrainStep (sub : Fin 4) (passing : List Bool) (temp : Word) (now : Nat) (s : State) : Host.Outcome State Fault Refusal :=
  run (fun d =>
    let d1 := advanceTo now d
    if dramServes d1 then retrainStep sub passing temp d1 else d1) s

/-- A degraded lane's step tried again, 1 s after its last try (R392). -/
def retryLane (sub : Fin 4) (passing : List Bool) (d : Dev) : Dev :=
  match d.dram.sub[sub].retryLanes.find? fun r => decide (r.2.2 + 1000000000 ≤ d.tm) with
  | none => d
  | some (k, write, _) => retryResult sub ⟨k % 10, by omega⟩ write passing d

/-- LANE_RETRY (R392). -/
def execLaneRetry (sub : Fin 4) (passing : List Bool) (now : Nat) (s : State) : Host.Outcome State Fault Refusal :=
  run (fun d =>
    let d1 := advanceTo now d
    if dramServes d1 then retryLane sub passing d1 else d1) s

/-! ## Write-backs (R409, R410) -/

/-- A write-back taken off the queue. -/
def takeWriteBack (b : WriteBack) (d : Dev) : Dev :=
  { d with integ := { d.integ with writeBacks := d.integ.writeBacks.erase b } }

/-- A dropped write-back counted (R409). -/
def dropWriteBack (b : WriteBack) (d : Dev) : Dev := gaugeCount 0x0BB (bump 0xA00008 (takeWriteBack b d))

/-- A queued write-back issued: a DRAM line enters the write queue, or is dropped where that is full (R409). -/
def issueWriteBack (b : WriteBack) (d : Dev) : Dev :=
  if 16 ≤ b.region ∧ b.region < 20 then
    let a := 4 * b.word - dramBase
    if 64 ≤ d.dram.sub[subOf a].writes.length then dropWriteBack b d
    else enqueueWrite a (performWriteBack b (takeWriteBack b d))
  else performWriteBack b (takeWriteBack b d)

/-- WRITE_BACK: the queued write-back at a position is issued (R409, R410). -/
def execWriteBack (i now : Nat) (s : State) : Host.Outcome State Fault Refusal :=
  run (fun d =>
    let d1 := advanceTo now d
    match d1.integ.writeBacks[i]? with
    | some b => issueWriteBack b d1
    | none => d1) s

/-- WRITE_BACK_TIMEOUT: a Pool bank has stayed busy for 100 µs (R409). -/
def execWriteBackTimeout (i now : Nat) (s : State) : Host.Outcome State Fault Refusal :=
  run (fun d =>
    let d1 := advanceTo now d
    match d1.integ.writeBacks[i]? with
    | some b => if (b.region < 16 ∨ b.region = 20) ∧ b.since + 100000 ≤ d1.tm then dropWriteBack b d1 else d1
    | none => d1) s

/-! ## Spare rows (R412, R413) -/

/-- First word (key / 4) of each part of a row: 64 words of a Pool row, 64 lines of a DRAM row. -/
def rowWords (r : Remap) : List Nat :=
  if r.region < 16 then (List.range 64).map fun i => r.row * 64 + i
  else if r.region < 20 then
    let base := r.row / 4 * 65536 + r.row % 4 * 256 + (r.region - 16) / 2 * 128 + (r.region - 16) % 2 * 64
    ((List.range 64).map fun l => (List.range 16).map fun w => (dramBase + base + 1024 * l) / 4 + w).flatten
  else []

/-- REMAP_COPY: the row of a recorded remap is copied with correction and redirected; `ecc` gives the classes its reads find, by word of the
row (R412). -/
def execRemapCopy (i : Nat) (ecc : List (Nat × Ecc)) (now : Nat) (s : State) : Host.Outcome State Fault Refusal :=
  run (fun d =>
    let d1 := advanceTo now d
    match d1.integ.remaps[i]? with
    | none => d1
    | some r =>
      if r.copied then d1
      else
        let d2 := (readWords ecc (rowWords r) 0 d1).2
        { d2 with integ := { d2.integ with remaps := d2.integ.remaps.map fun x => if x = r then { r with copied := true } else x } }) s

/-! ## Buckets and triplicated words (R417 to R419) -/

/-- Leak steps since the last one, counted in Tidemark (R417, R418). -/
def leakBuckets (d : Dev) : Dev :=
  let step := objNum d 0xA01001 * 1000000000
  let k := (d.tm - d.integ.leakAt) / step
  if k = 0 then d
  else leakRegions k (objNum d 0xA01002) { d with integ := { d.integ with leakAt := d.integ.leakAt + k * step } }

/-- BUCKET_LEAK (R417). -/
def execBucketLeak (now : Nat) (s : State) : Host.Outcome State Fault Refusal := run (fun d => leakBuckets (advanceTo now d)) s

/-- The sweep of triplicated words: single copies repaired; where all three differ, the part resets, or the remap records are reloaded from
the PRA (R419).  `repaired` is how many words were repaired; `power`, `remap`, `layout` say that a word of that group has three different
copies. -/
def voteWords (repaired : Nat) (power remap layout : Bool) (d : Dev) : Dev :=
  let d1 := gaugeAdd 0x0BC repaired (addNum 0xA00007 repaired d)
  let d2 := if power || remap || layout then logError 0x05 2 8 0x0BC [] d1 else d1
  if power || layout then deviceReset 3 d2 else d2

/-- TRIPLICATE_VOTE (R419). -/
def execTriplicateVote (repaired : Nat) (power remap layout : Bool) (now : Nat) (s : State) : Host.Outcome State Fault Refusal :=
  run (fun d =>
    let d1 := advanceTo now d
    if d1.power.phase = .inReset ∨ d1.power.phase = .off then d1 else voteWords repaired power remap layout d1) s

/-- TIDEMARK_STEP_RECOVERY: an island's Gray-code check finds lost coarse steps and recovers them (R75, R526). -/
def execTidemarkStepRecovery (steps now : Nat) (s : State) : Host.Outcome State Fault Refusal :=
  run (fun d =>
    let d1 := advanceTo now d
    if steps = 0 then d1 else logError 0x05 1 7 0 [] (addNum 0x301004 steps d1)) s

end Sys2Proof.Machine
end

