-- ==== Sys2Proof/Machine/Dispatch.lean ====
section
/-! DEFINITION. Machine/Dispatch.lean: one arm per command, in the order of the table. -/
namespace Sys2Proof.Machine

/-- The effect of a command on everything but the queue. -/
def exec (i : Instr) (s : State) : Host.Outcome State Fault Refusal :=
  match i with
  | .powerOnReset => Sys2Proof.Machine.execPowerOnReset s
  | .sysRstAssert now low => Sys2Proof.Machine.execSysRstAssert now low s
  | .start now id bifurc bootsrc perst0 perst1 katA katB restored => Sys2Proof.Machine.execStart now id bifurc bootsrc perst0 perst1 katA katB restored s
  | .bootImageVerify now => Sys2Proof.Machine.execBootImageVerify now s
  | .dramTrainingDone now sweeps asConfigured temp => Sys2Proof.Machine.execDramTrainingDone now sweeps asConfigured temp s
  | .mountDone now ce luns planes pages blocks cell metaBytes ms agree silent => Sys2Proof.Machine.execMountDone now ce luns planes pages blocks cell metaBytes ms agree silent s
  | .plpAssert now low => Sys2Proof.Machine.execPlpAssert now low s
  | .powerFailFlushDone now complete => Sys2Proof.Machine.execPowerFailFlushDone now complete s
  | .powerReturn now => Sys2Proof.Machine.execPowerReturn now s
  | .railBrownout rail now => Sys2Proof.Machine.execRailBrownout rail now s
  | .thermalTrip sensor tj now => Sys2Proof.Machine.execThermalTrip sensor tj now s
  | .enterOff v => Sys2Proof.Machine.execEnterOff v s
  | .perstAssert port now => Sys2Proof.Machine.execPerstAssert port now s
  | .linkDown port now => Sys2Proof.Machine.execLinkDown port now s
  | .linkUp port speed width now => Sys2Proof.Machine.execLinkUp port speed width now s
  | .flr ctrl now => Sys2Proof.Machine.execFlr ctrl now s
  | .vfEnableSet port now => Sys2Proof.Machine.execVfEnableSet port now s
  | .vfEnableClear port now => Sys2Proof.Machine.execVfEnableClear port now s
  | .numvfsWrite port value now => Sys2Proof.Machine.execNumvfsWrite port value now s
  | .busMasterEnableClear ctrl now => Sys2Proof.Machine.execBusMasterEnableClear ctrl now s
  | .ccEnable ctrl now => Sys2Proof.Machine.execCcEnable ctrl now s
  | .ccDisable ctrl now => Sys2Proof.Machine.execCcDisable ctrl now s
  | .sqTailDoorbell now ctrl qid value unknown => Sys2Proof.Machine.execSqTailDoorbell now ctrl qid value unknown s
  | .cqHeadDoorbell now ctrl qid value => Sys2Proof.Machine.execCqHeadDoorbell now ctrl qid value s
  | .dmaReadCompletion now ctrl sq cid list ok => Sys2Proof.Machine.execDmaReadCompletion now ctrl sq cid list ok s
  | .unexpectedCompletion now ctrl header => Sys2Proof.Machine.execUnexpectedCompletion now ctrl header s
  | .completionTimeout now ctrl sq cid list => Sys2Proof.Machine.execCompletionTimeout now ctrl sq cid list s
  | .peerFlushReadComplete tag ok => Sys2Proof.Machine.execPeerFlushReadComplete tag ok s
  | .atsInvalidate now ctrl tag page => Sys2Proof.Machine.execAtsInvalidate now ctrl tag page s
  | .pageRequestResponse ctrl tag code => Sys2Proof.Machine.execPageRequestResponse ctrl tag code s
  | .pageRequestTimeout ctrl tag now => Sys2Proof.Machine.execPageRequestTimeout ctrl tag now s
  | .registerWrite now w => Sys2Proof.Machine.execRegisterWrite now w s
  | .createIoSubmissionQueue c => Sys2Proof.Machine.execCreateIoSubmissionQueue c s
  | .deleteIoSubmissionQueue c => Sys2Proof.Machine.execDeleteIoSubmissionQueue c s
  | .createIoCompletionQueue c => Sys2Proof.Machine.execCreateIoCompletionQueue c s
  | .deleteIoCompletionQueue c => Sys2Proof.Machine.execDeleteIoCompletionQueue c s
  | .getLogPage c => Sys2Proof.Machine.execGetLogPage c s
  | .identify c => Sys2Proof.Machine.execIdentify c s
  | .abort c queued outstanding => Sys2Proof.Machine.execAbort c queued outstanding s
  | .setFeatures c => Sys2Proof.Machine.execSetFeatures c s
  | .getFeatures c => Sys2Proof.Machine.execGetFeatures c s
  | .asynchronousEventRequest c => Sys2Proof.Machine.execAsynchronousEventRequest c s
  | .namespaceCreate c origin => Sys2Proof.Machine.execNamespaceCreate c origin s
  | .namespaceDelete c => Sys2Proof.Machine.execNamespaceDelete c s
  | .namespaceAttach c => Sys2Proof.Machine.execNamespaceAttach c s
  | .namespaceDetach c => Sys2Proof.Machine.execNamespaceDetach c s
  | .firmwareImageDownload c => Sys2Proof.Machine.execFirmwareImageDownload c s
  | .firmwareCommitWrite c => Sys2Proof.Machine.execFirmwareCommitWrite c s
  | .firmwareCommitActivateNext c => Sys2Proof.Machine.execFirmwareCommitActivateNext c s
  | .firmwareCommitSelectSlot c => Sys2Proof.Machine.execFirmwareCommitSelectSlot c s
  | .firmwareCommitRestart c => Sys2Proof.Machine.execFirmwareCommitRestart c s
  | .firmwareSlotWriteDone now => Sys2Proof.Machine.execFirmwareSlotWriteDone now s
  | .firmwareActivationRestart now => Sys2Proof.Machine.execFirmwareActivationRestart now s
  | .deviceSelfTest c result => Sys2Proof.Machine.execDeviceSelfTest c result s
  | .virtualizationManagement c => Sys2Proof.Machine.execVirtualizationManagement c s
  | .nvmeMiSend c len => Sys2Proof.Machine.execNvmeMiSend c len s
  | .nvmeMiReceive c => Sys2Proof.Machine.execNvmeMiReceive c s
  | .formatNvm c lbaf ses => Sys2Proof.Machine.execFormatNvm c lbaf ses s
  | .sanitize c action => Sys2Proof.Machine.execSanitize c action s
  | .objectRead c => Sys2Proof.Machine.execObjectRead c s
  | .objectWrite c noPersist => Sys2Proof.Machine.execObjectWrite c noPersist s
  | .txnBegin v => Sys2Proof.Machine.execTxnBegin v s
  | .txnCommit v => Sys2Proof.Machine.execTxnCommit v s
  | .txnRollback v => Sys2Proof.Machine.execTxnRollback v s
  | .txnTimeout now => Sys2Proof.Machine.execTxnTimeout now s
  | .keySlotAllocate c => Sys2Proof.Machine.execKeySlotAllocate c s
  | .keySlotLoad c => Sys2Proof.Machine.execKeySlotLoad c s
  | .kekLoad c => Sys2Proof.Machine.execKekLoad c s
  | .keySlotErase c => Sys2Proof.Machine.execKeySlotErase c s
  | .generationBusyTimeout slot now => Sys2Proof.Machine.execGenerationBusyTimeout slot now s
  | .cascadeRemoveMember c => Sys2Proof.Machine.execCascadeRemoveMember c s
  | .cascadeRebalance c => Sys2Proof.Machine.execCascadeRebalance c s
  | .cascadeLoadKek1 c => Sys2Proof.Machine.execCascadeLoadKek1 c s
  | .cascadeStatus c seen => Sys2Proof.Machine.execCascadeStatus c seen s
  | .nvmRead c slba nlb dec fails mapBad => Sys2Proof.Machine.execNvmRead c slba nlb dec fails mapBad s
  | .nvmWrite c slba nlb dec fails => Sys2Proof.Machine.execNvmWrite c slba nlb dec fails s
  | .flush c => Sys2Proof.Machine.execFlush c s
  | .compare c slba nlb dec fails mapBad => Sys2Proof.Machine.execCompare c slba nlb dec fails mapBad s
  | .writeZeroes c slba nlb dec => Sys2Proof.Machine.execWriteZeroes c slba nlb dec s
  | .datasetManagement c deallocate ranges => Sys2Proof.Machine.execDatasetManagement c deallocate ranges s
  | .verify c slba nlb dec fails mapBad => Sys2Proof.Machine.execVerify c slba nlb dec fails mapBad s
  | .reservationRegister c action cptpl crkey nrkey iekey => Sys2Proof.Machine.execReservationRegister c action cptpl crkey nrkey iekey s
  | .reservationReport c len => Sys2Proof.Machine.execReservationReport c len s
  | .reservationAcquire c action crkey prkey rtype => Sys2Proof.Machine.execReservationAcquire c action crkey prkey rtype s
  | .reservationRelease c action crkey rtype => Sys2Proof.Machine.execReservationRelease c action crkey rtype s
  | .kvStore c key mustExist noOverwrite fails => Sys2Proof.Machine.execKvStore c key mustExist noOverwrite fails s
  | .kvRetrieve c key len dec fails mapBad => Sys2Proof.Machine.execKvRetrieve c key len dec fails mapBad s
  | .kvDelete c key => Sys2Proof.Machine.execKvDelete c key s
  | .kvExist c key => Sys2Proof.Machine.execKvExist c key s
  | .kvList c key len => Sys2Proof.Machine.execKvList c key len s
  | .loadProgram c slot mladide => Sys2Proof.Machine.execLoadProgram c slot mladide s
  | .loadProgramUnload c slot mladide => Sys2Proof.Machine.execLoadProgramUnload c slot mladide s
  | .activateProgram c slot => Sys2Proof.Machine.execActivateProgram c slot s
  | .deactivateProgram c slot => Sys2Proof.Machine.execDeactivateProgram c slot s
  | .executeProgram c slot set_ => Sys2Proof.Machine.execExecuteProgram c slot set_ s
  | .memoryRangeSetManagement c create id ranges => Sys2Proof.Machine.execMemoryRangeSetManagement c create id ranges s
  | .slmRead c off len ecc => Sys2Proof.Machine.execSlmRead c off len ecc s
  | .slmWrite c off ecc => Sys2Proof.Machine.execSlmWrite c off ecc s
  | .memoryCopy c off sources ecc => Sys2Proof.Machine.execMemoryCopy c off sources ecc s
  | .sessionOpen c => Sys2Proof.Machine.execSessionOpen c s
  | .sessionClose c => Sys2Proof.Machine.execSessionClose c s
  | .sessionQuery c => Sys2Proof.Machine.execSessionQuery c s
  | .sessionIdleCheck now => Sys2Proof.Machine.execSessionIdleCheck now s
  | .objectPut c => Sys2Proof.Machine.execObjectPut c s
  | .putDataArrival tag u fails data => Sys2Proof.Machine.execPutDataArrival tag u fails data s
  | .objectPutValidate tag now => Sys2Proof.Machine.execObjectPutValidate tag now s
  | .streamRead c bad mapBad fault => Sys2Proof.Machine.execStreamRead c bad mapBad fault s
  | .streamReadSize c bad mapBad => Sys2Proof.Machine.execStreamReadSize c bad mapBad s
  | .lookup c bad => Sys2Proof.Machine.execLookup c bad s
  | .objectEvict c bad => Sys2Proof.Machine.execObjectEvict c bad s
  | .fence c => Sys2Proof.Machine.execFence c s
  | .unitDecode tag u dec => Sys2Proof.Machine.execUnitDecode tag u dec s
  | .estuaryAssign tag => Sys2Proof.Machine.execEstuaryAssign tag s
  | .xtsDecryptUnit tag u same => Sys2Proof.Machine.execXtsDecryptUnit tag u same s
  | .braidLengthPass tag now poison => Sys2Proof.Machine.execBraidLengthPass tag now poison s
  | .braidAssemblyPass tag now poison => Sys2Proof.Machine.execBraidAssemblyPass tag now poison s
  | .riffleDeliveryDecode tag poison => Sys2Proof.Machine.execRiffleDeliveryDecode tag poison s
  | .estuaryEncryptRange tag i0 same => Sys2Proof.Machine.execEstuaryEncryptRange tag i0 same s
  | .outputDmaDone tag now ok => Sys2Proof.Machine.execOutputDmaDone tag now ok s
  | .lookupWindowKeyWrite now ctrl w off bytes => Sys2Proof.Machine.execLookupWindowKeyWrite now ctrl w off bytes s
  | .lookupWindowResult now ctrl w bad => Sys2Proof.Machine.execLookupWindowResult now ctrl w bad s
  | .eddyParityScan now bad => Sys2Proof.Machine.execEddyParityScan now bad s
  | .eddyEntryRewrite a now => Sys2Proof.Machine.execEddyEntryRewrite a now s
  | .eddySearch n cmd bad => Sys2Proof.Machine.execEddySearch n cmd bad s
  | .eddyInsert n cmd => Sys2Proof.Machine.execEddyInsert n cmd s
  | .eddyWrite n cmd => Sys2Proof.Machine.execEddyWrite n cmd s
  | .eddyInvalidate n cmd => Sys2Proof.Machine.execEddyInvalidate n cmd s
  | .eddySetdata n cmd => Sys2Proof.Machine.execEddySetdata n cmd s
  | .eddyRead n cmd => Sys2Proof.Machine.execEddyRead n cmd s
  | .eddyOperationDone n => Sys2Proof.Machine.execEddyOperationDone n s
  | .sessionLabelSearch v value => Sys2Proof.Machine.execSessionLabelSearch v value s
  | .partitionLayoutWrite v p word => Sys2Proof.Machine.execPartitionLayoutWrite v p word s
  | .riffleDecompress i0 n addr64 => Sys2Proof.Machine.execRiffleDecompress i0 n addr64 s
  | .riffleCompress i0 n addr64 => Sys2Proof.Machine.execRiffleCompress i0 n addr64 s
  | .riffleCheck i0 n addr64 => Sys2Proof.Machine.execRiffleCheck i0 n addr64 s
  | .riffleDescriptorDone i0 => Sys2Proof.Machine.execRiffleDescriptorDone i0 s
  | .profileImageWrite v p off last data => Sys2Proof.Machine.execProfileImageWrite v p off last data s
  | .profileUndefine v p => Sys2Proof.Machine.execProfileUndefine v p s
  | .programImageChunk v slot data => Sys2Proof.Machine.execProgramImageChunk v slot data s
  | .programActionLoad v slot => Sys2Proof.Machine.execProgramActionLoad v slot s
  | .programActionActivate v slot => Sys2Proof.Machine.execProgramActionActivate v slot s
  | .programActionDeactivate v slot => Sys2Proof.Machine.execProgramActionDeactivate v slot s
  | .programActionUnload v slot => Sys2Proof.Machine.execProgramActionUnload v slot s
  | .invocationDispatch n now => Sys2Proof.Machine.execInvocationDispatch n now s
  | .programTimeLimit n now => Sys2Proof.Machine.execProgramTimeLimit n now s
  | .haltedCoreReset n now => Sys2Proof.Machine.execHaltedCoreReset n now s
  | .estuaryReturnToService v unit => Sys2Proof.Machine.execEstuaryReturnToService v unit s
  | .knownAnswerTestDone u passed => Sys2Proof.Machine.execKnownAnswerTestDone u passed s
  | .springheadAlarm now cause => Sys2Proof.Machine.execSpringheadAlarm now cause s
  | .keyStoreUnlock now => Sys2Proof.Machine.execKeyStoreUnlock now s
  | .managementKeyWrite v key value => Sys2Proof.Machine.execManagementKeyWrite v key value s
  | .aopFrame now f full noPersist => Sys2Proof.Machine.execAopFrame now f full noPersist s
  | .mctpObjectRequest now eid packetOk type count body noPersist => Sys2Proof.Machine.execMctpObjectRequest now eid packetOk type count body noPersist s
  | .wakeLatch now ports other held levels frame toSelf => Sys2Proof.Machine.execWakeLatch now ports other held levels frame toSelf s
  | .rtcAlarm now => Sys2Proof.Machine.execRtcAlarm now s
  | .autoDoze now => Sys2Proof.Machine.execAutoDoze now s
  | .dozeEntry now wake => Sys2Proof.Machine.execDozeEntry now wake s
  | .slumberEntry now => Sys2Proof.Machine.execSlumberEntry now s
  | .slumberCommitPoint now late => Sys2Proof.Machine.execSlumberCommitPoint now late s
  | .islandStageRelease now => Sys2Proof.Machine.execIslandStageRelease now s
  | .xtal25Lock now => Sys2Proof.Machine.execXtal25Lock now s
  | .tidemarkHandover n => Sys2Proof.Machine.execTidemarkHandover n s
  | .weirSample now temps volts0 volts1 power phy late delayNs => Sys2Proof.Machine.execWeirSample now temps volts0 volts1 power phy late delayNs s
  | .weirFreeze v => Sys2Proof.Machine.execWeirFreeze v s
  | .weirUnfreeze v => Sys2Proof.Machine.execWeirUnfreeze v s
  | .weirLawEnable v noPersist => Sys2Proof.Machine.execWeirLawEnable v noPersist s
  | .weirLawDisable v noPersist => Sys2Proof.Machine.execWeirLawDisable v noPersist s
  | .lifeRecordUpdate now mean peak => Sys2Proof.Machine.execLifeRecordUpdate now mean peak s
  | .dramReadRequest addr ecc cbBad now => Sys2Proof.Machine.execDramReadRequest addr ecc cbBad now s
  | .dramWriteRequest addr bytes ecc cbBad now => Sys2Proof.Machine.execDramWriteRequest addr bytes ecc cbBad now s
  | .realTimeBurst addr n data ns forced metStep now => Sys2Proof.Machine.execRealTimeBurst addr n data ns forced metStep now s
  | .writeAgeDrain sub now => Sys2Proof.Machine.execWriteAgeDrain sub now s
  | .refsbDue sub rank idx now => Sys2Proof.Machine.execRefsbDue sub rank idx now s
  | .refsbIssue sub rank idx now => Sys2Proof.Machine.execRefsbIssue sub rank idx now s
  | .rfmIssue sub bank now => Sys2Proof.Machine.execRfmIssue sub bank now s
  | .neighbourRefresh sub now => Sys2Proof.Machine.execNeighbourRefresh sub now s
  | .dramTempPoll hot now => Sys2Proof.Machine.execDramTempPoll hot now s
  | .caParityAlert sub now => Sys2Proof.Machine.execCaParityAlert sub now s
  | .dramRetrainStep sub passing temp now => Sys2Proof.Machine.execDramRetrainStep sub passing temp now s
  | .laneRetry sub passing now => Sys2Proof.Machine.execLaneRetry sub passing now s
  | .writeBack i0 now => Sys2Proof.Machine.execWriteBack i0 now s
  | .writeBackTimeout i0 now => Sys2Proof.Machine.execWriteBackTimeout i0 now s
  | .remapCopy i0 ecc now => Sys2Proof.Machine.execRemapCopy i0 ecc now s
  | .bucketLeak now => Sys2Proof.Machine.execBucketLeak now s
  | .triplicateVote repaired power remap layout now => Sys2Proof.Machine.execTriplicateVote repaired power remap layout now s
  | .dredgeStart v => Sys2Proof.Machine.execDredgeStart v s
  | .dredgeStop v => Sys2Proof.Machine.execDredgeStop v s
  | .dredgePassDone now ecc corrected reads weak => Sys2Proof.Machine.execDredgePassDone now ecc corrected reads weak s
  | .periodicDredge now target => Sys2Proof.Machine.execPeriodicDredge now target s
  | .gaugeSnapshot v => Sys2Proof.Machine.execGaugeSnapshot v s
  | .gaugeResetAll v => Sys2Proof.Machine.execGaugeResetAll v s
  | .gaugeCounterWrite v n value => Sys2Proof.Machine.execGaugeCounterWrite v n value s
  | .gaugeSourceWrite v n source noPersist => Sys2Proof.Machine.execGaugeSourceWrite v n source noPersist s
  | .pageProgramDone p r now => Sys2Proof.Machine.execPageProgramDone p r now s
  | .foldIdleTimer now => Sys2Proof.Machine.execFoldIdleTimer now s
  | .bandEraseDone band failed now => Sys2Proof.Machine.execBandEraseDone band failed now s
  | .lunAnswerTimeout ch row now => Sys2Proof.Machine.execLunAnswerTimeout ch row now s
  | .journalCommit now n => Sys2Proof.Machine.execJournalCommit now n s
  | .mapWordRebuilt ns lu now => Sys2Proof.Machine.execMapWordRebuilt ns lu now s
  | .metadataRemirror i0 both now => Sys2Proof.Machine.execMetadataRemirror i0 both now s
  | .confluencePortTrained port lanes peer now => Sys2Proof.Machine.execConfluencePortTrained port lanes peer now s
  | .join port m now => Sys2Proof.Machine.execJoin port m now s
  | .heartbeat port src losing now => Sys2Proof.Machine.execHeartbeat port src losing now s
  | .heartbeatSend now => Sys2Proof.Machine.execHeartbeatSend now s
  | .masterLost reach now => Sys2Proof.Machine.execMasterLost reach now s
  | .electionTimeout reach now => Sys2Proof.Machine.execElectionTimeout reach now s
  | .forwardRequest port f bad mapBad now => Sys2Proof.Machine.execForwardRequest port f bad mapBad now s
  | .dataFlit port src t u fields breach now => Sys2Proof.Machine.execDataFlit port src t u fields breach now s
  | .forwardCompletion port src t sct sc dw0 dw1 now => Sys2Proof.Machine.execForwardCompletion port src t sct sc dw0 dw1 now s
  | .indexLookup port src t op a key now => Sys2Proof.Machine.execIndexLookup port src t op a key now s
  | .indexReply port src t found holder back bad mapBad now => Sys2Proof.Machine.execIndexReply port src t found holder back bad mapBad now s
  | .keyRelay port src t opc fields now => Sys2Proof.Machine.execKeyRelay port src t opc fields now s
  | .placementUpdate port src table ms now => Sys2Proof.Machine.execPlacementUpdate port src table ms now s
  | .abortFlit port src t now => Sys2Proof.Machine.execAbortFlit port src t now s
  | .forwardTimeout t now => Sys2Proof.Machine.execForwardTimeout t now s
  | .indexRebuildDone entries bad mapBad now => Sys2Proof.Machine.execIndexRebuildDone entries bad mapBad now s
  | .portRetrain v p => Sys2Proof.Machine.execPortRetrain v p s
  | .interruptTaken n => Sys2Proof.Machine.execInterruptTaken n s
  | .loadDataReturn n i0 => Sys2Proof.Machine.execLoadDataReturn n i0 s
  | .productLands n => Sys2Proof.Machine.execProductLands n s
  | .quotientLands n => Sys2Proof.Machine.execQuotientLands n s
  | .lineFillDone n glitches => Sys2Proof.Machine.execLineFillDone n glitches s
  | .storeRefused n i0 => Sys2Proof.Machine.execStoreRefused n i0 s
  | .timerCompare n => Sys2Proof.Machine.execTimerCompare n s
  | .mboxPost n value => Sys2Proof.Machine.execMboxPost n value s
  | .fxAdd n rd ra rb => Sys2Proof.Machine.execFxAdd n rd ra rb s
  | .fxAdc n rd ra rb => Sys2Proof.Machine.execFxAdc n rd ra rb s
  | .fxSub n rd ra rb => Sys2Proof.Machine.execFxSub n rd ra rb s
  | .fxSbc n rd ra rb => Sys2Proof.Machine.execFxSbc n rd ra rb s
  | .fxNeg n rd ra => Sys2Proof.Machine.execFxNeg n rd ra s
  | .fxCmp n ra rb => Sys2Proof.Machine.execFxCmp n ra rb s
  | .fxAnd n rd ra rb => Sys2Proof.Machine.execFxAnd n rd ra rb s
  | .fxOr n rd ra rb => Sys2Proof.Machine.execFxOr n rd ra rb s
  | .fxXor n rd ra rb => Sys2Proof.Machine.execFxXor n rd ra rb s
  | .fxTst n ra rb => Sys2Proof.Machine.execFxTst n ra rb s
  | .fxClz n rd ra => Sys2Proof.Machine.execFxClz n rd ra s
  | .fxBswap n rd ra => Sys2Proof.Machine.execFxBswap n rd ra s
  | .fxSextb n rd ra => Sys2Proof.Machine.execFxSextb n rd ra s
  | .fxSexth n rd ra => Sys2Proof.Machine.execFxSexth n rd ra s
  | .fxLsl n rd ra rb => Sys2Proof.Machine.execFxLsl n rd ra rb s
  | .fxLsr n rd ra rb => Sys2Proof.Machine.execFxLsr n rd ra rb s
  | .fxAsr n rd ra rb => Sys2Proof.Machine.execFxAsr n rd ra rb s
  | .fxRor n rd ra rb => Sys2Proof.Machine.execFxRor n rd ra rb s
  | .fxLsli n rd ra sh => Sys2Proof.Machine.execFxLsli n rd ra sh s
  | .fxLsri n rd ra sh => Sys2Proof.Machine.execFxLsri n rd ra sh s
  | .fxAsri n rd ra sh => Sys2Proof.Machine.execFxAsri n rd ra sh s
  | .fxRori n rd ra sh => Sys2Proof.Machine.execFxRori n rd ra sh s
  | .fxAddi n rd ra imm => Sys2Proof.Machine.execFxAddi n rd ra imm s
  | .fxAndi n rd ra imm => Sys2Proof.Machine.execFxAndi n rd ra imm s
  | .fxOri n rd ra imm => Sys2Proof.Machine.execFxOri n rd ra imm s
  | .fxXori n rd ra imm => Sys2Proof.Machine.execFxXori n rd ra imm s
  | .fxLui n rd imm => Sys2Proof.Machine.execFxLui n rd imm s
  | .fxCmpi n ra imm => Sys2Proof.Machine.execFxCmpi n ra imm s
  | .fxMul n ra rb => Sys2Proof.Machine.execFxMul n ra rb s
  | .fxMulu n ra rb => Sys2Proof.Machine.execFxMulu n ra rb s
  | .fxDiv n ra rb => Sys2Proof.Machine.execFxDiv n ra rb s
  | .fxDivu n ra rb => Sys2Proof.Machine.execFxDivu n ra rb s
  | .fxDadd n rd ra rb => Sys2Proof.Machine.execFxDadd n rd ra rb s
  | .fxDadc n rd ra rb => Sys2Proof.Machine.execFxDadc n rd ra rb s
  | .fxDsub n rd ra rb => Sys2Proof.Machine.execFxDsub n rd ra rb s
  | .fxDsbc n rd ra rb => Sys2Proof.Machine.execFxDsbc n rd ra rb s
  | .fxDadj n rd ra => Sys2Proof.Machine.execFxDadj n rd ra s
  | .fxDcvt n rd ra => Sys2Proof.Machine.execFxDcvt n rd ra s
  | .fxDtxtl n rd ra => Sys2Proof.Machine.execFxDtxtl n rd ra s
  | .fxDtxth n rd ra => Sys2Proof.Machine.execFxDtxth n rd ra s
  | .fxDlz n rd ra => Sys2Proof.Machine.execFxDlz n rd ra s
  | .fxLdb n rd ra mode off ecc => Sys2Proof.Machine.execFxLdb n rd ra mode off ecc s
  | .fxLdbu n rd ra mode off ecc => Sys2Proof.Machine.execFxLdbu n rd ra mode off ecc s
  | .fxLdh n rd ra mode off ecc => Sys2Proof.Machine.execFxLdh n rd ra mode off ecc s
  | .fxLdhu n rd ra mode off ecc => Sys2Proof.Machine.execFxLdhu n rd ra mode off ecc s
  | .fxLdw n rd ra mode off ecc => Sys2Proof.Machine.execFxLdw n rd ra mode off ecc s
  | .fxLdd n rd ra mode off ecc0 ecc1 => Sys2Proof.Machine.execFxLdd n rd ra mode off ecc0 ecc1 s
  | .fxStb n rs ra mode off ecc => Sys2Proof.Machine.execFxStb n rs ra mode off ecc s
  | .fxSth n rs ra mode off ecc => Sys2Proof.Machine.execFxSth n rs ra mode off ecc s
  | .fxStw n rs ra mode off => Sys2Proof.Machine.execFxStw n rs ra mode off s
  | .fxStd n rs ra mode off => Sys2Proof.Machine.execFxStd n rs ra mode off s
  | .fxSwp n rd rb ra ecc => Sys2Proof.Machine.execFxSwp n rd rb ra ecc s
  | .fxCas n rd rb ra ecc => Sys2Proof.Machine.execFxCas n rd rb ra ecc s
  | .fxBcc n cond off => Sys2Proof.Machine.execFxBcc n cond off s
  | .fxJ n off => Sys2Proof.Machine.execFxJ n off s
  | .fxCall n off => Sys2Proof.Machine.execFxCall n off s
  | .fxJr n ra => Sys2Proof.Machine.execFxJr n ra s
  | .fxCallr n ra => Sys2Proof.Machine.execFxCallr n ra s
  | .fxLoop n k len ra => Sys2Proof.Machine.execFxLoop n k len ra s
  | .fxLoopi n k len count => Sys2Proof.Machine.execFxLoopi n k len count s
  | .fxRep n next => Sys2Proof.Machine.execFxRep n next s
  | .fxRepi n next => Sys2Proof.Machine.execFxRepi n next s
  | .fxMfs n rd spec => Sys2Proof.Machine.execFxMfs n rd spec s
  | .fxMts n spec ra => Sys2Proof.Machine.execFxMts n spec ra s
  | .fxFenceW n => Sys2Proof.Machine.execFxFenceW n s
  | .fxFenceR n => Sys2Proof.Machine.execFxFenceR n s
  | .fxFenceRw n => Sys2Proof.Machine.execFxFenceRw n s
  | .fxFenceI n => Sys2Proof.Machine.execFxFenceI n s
  | .fxEret n => Sys2Proof.Machine.execFxEret n s
  | .fxWait n => Sys2Proof.Machine.execFxWait n s
  | .fxSys n imm => Sys2Proof.Machine.execFxSys n imm s
  | .fxBrk n imm => Sys2Proof.Machine.execFxBrk n imm s
  | .perstDeassert port now => Sys2Proof.Machine.execPerstDeassert port now s
  | .autonomousPowerStateTransition ctrl now => Sys2Proof.Machine.execAutonomousPowerStateTransition ctrl now s
  | .linkL1Entry port now => Sys2Proof.Machine.execLinkL1Entry port now s
  | .flitReplay port now => Sys2Proof.Machine.execFlitReplay port now s
  | .confluencePortDown port lost now => Sys2Proof.Machine.execConfluencePortDown port lost now s
  | .malformedTlp now ctrl header => Sys2Proof.Machine.execMalformedTlp now ctrl header s
  | .barRead now ctrl bar off len => Sys2Proof.Machine.execBarRead now ctrl bar off len s
  | .tidemarkStepRecovery steps now => Sys2Proof.Machine.execTidemarkStepRecovery steps now s
  | .undefinedInstruction n w => Sys2Proof.Machine.execUndefinedInstruction n w s

end Sys2Proof.Machine
end

