-- ==== Sys2Proof/Machine/Tick.lean ====
section
/-! DEFINITION. Machine/Tick.lean: what time alone does while no command waits. -/
namespace Sys2Proof.Machine

/-- True while the 25 MHz count of Tidemark runs (R72, R443). -/
def countRuns (d : Dev) : Bool := d.power.coasting.isNone && d.power.phase ≠ .inReset && d.power.phase ≠ .off

/-- One period of the 25 MHz count: Tidemark moves on by 40 ns, and each core's write buffer performs its oldest store (R72, R78; log entry
4). -/
def tick (d : Dev) : Dev :=
  if countRuns d then (List.finRange 34).foldl (fun d n => drainOldest n d) { d with tm := d.tm + 40 } else d

end Sys2Proof.Machine
end

