-- ==== Sys2Proof/Safety.lean ====
section
/-! DEFINITION. Safety.lean: the terms that statements about the machine use: the forms of its data, and when a command of each group meets
everything it needs to run. -/
namespace Sys2Proof.Machine

/-- Memory keeps its one form. -/
def State.MemOk (s : State) : Prop := Memory.wf s.dev.mem = true

/-! ## FX32 (R264, R273, R281, R302) -/

/-- A core after the results whose cycle has passed have landed. -/
def fxLanded (n : CoreId) (d : Dev) : Dev := modifyCore n (fun c => landDue { c with run := .running }) d

/-- The loads that the named registers wait for, returned: the address of a poisoned one, and the core after them (R264, R277). -/
def fxArrived (n : CoreId) (uses : List Reg) (d : Dev) : Option Word × FxCore :=
  returnLoads (fun l => l.dests.any fun rv => uses.contains rv.1) (fxLanded n d).cores[n]

/-- The core as an instruction finds it when its operands have come. -/
def fxCore (n : CoreId) (uses : List Reg) (d : Dev) : FxCore := (fxArrived n uses d).2

/-- A core executes, is not in a repeat of another word, fetches its word, and no load that the instruction waits for comes back
poisoned. -/
def fxReady (n : CoreId) (word : Word) (uses : List Reg) (d : Dev) : Bool :=
  coreIssues d n && !d.cores[n].rep.any (fun r => decide (r.word ≠ word)) && decide (fetchAt (fxLanded n d) n = .ok) &&
    decide ((fxArrived n uses d).1 = none)

/-- The flags listed have the values listed; every other bit of FL is as before (R302). -/
def FlagsAre (old new : Word) (fs : List (Nat × Bool)) : Prop :=
  ∀ k, k < 32 → new.getLsbD k = (fs.lookup k).getD (old.getLsbD k)

/-- An instruction that changes only its core: in every state where it is ready it answers a next state, in which its destination register
(none for a compare) holds the value, the flags are as listed, the instruction has retired, and nothing else of the machine has changed. -/
def FxDoes (i : Instr) (n : CoreId) (word : Word) (uses : List Reg) (dest : Option Reg) (value : FxCore → Word)
    (flags : FxCore → List (Nat × Bool)) (cycles : Nat) : Prop :=
  ∀ s : State, fxReady n word uses s.dev = true →
    let c := fxCore n uses s.dev
    ∃ fl : Word, FlagsAre c.fl fl (flags c) ∧
      exec i s = .next { s with dev := modifyCore n (fun _ => retire c.pc
        { (match dest with
            | some r => rset r (value c) c
            | none => c) with
          fl := fl
          cycle := c.cycle + cycles }) s.dev }

/-- The machine with one core replaced, nothing else changed. -/
def State.withCore (s : State) (n : CoreId) (c : FxCore) : State := { s with dev := modifyCore n (fun _ => c) s.dev }

/-- An instruction that changes only its core: in every state where it is ready it answers a next state in which the core is the one given
and nothing else has changed. -/
def FxCoreStep (i : Instr) (n : CoreId) (word : Word) (uses : List Reg) (after : FxCore → FxCore) : Prop :=
  ∀ s : State, fxReady n word uses s.dev = true → exec i s = .next (s.withCore n (after (fxCore n uses s.dev)))

/-- Retirement in sequence with a number of issue cycles. -/
def retired (k : Nat) (pc : Word) (c : FxCore) : FxCore := retire pc { c with cycle := c.cycle + k }

/-- Memory below DRAM that a core reads as it stands: no buffered store of the core, and no word of the bytes poisoned. -/
def fxPlain (n : CoreId) (key len : Nat) (d : Dev) : Bool :=
  decide (key + len ≤ dramBase) && d.cores[n].stores.isEmpty && !anyPoison d key len

/-- An instruction that raises an exception: in every kernel-mode state where it is ready, with EXL clear and no load poisoned, it answers a
next state with the entry of R273: EPC, ECAUSE and EVAL as given, PIE and PUM the old IE and UM, IE and UM clear, EXL set, the pc at the
vector, and every general register, FL and memory as before. -/
def FxRaises (i : Instr) (n : CoreId) (word : Word) (uses : List Reg) (allowed : FxCore → Bool) (code sub : Nat) (value : FxCore → Word) : Prop :=
  ∀ s : State, fxReady n word uses s.dev = true → allowed (fxCore n uses s.dev) = true → s.dev.cores[n].rep = none →
    ctl s.dev.cores[n] ctlEXL = false → userMode s.dev.cores[n] = false → s.dev.cores[n].loads.all (fun l => !l.poison) = true →
    let c := (returnLoads (fun _ => true) (fxCore n uses s.dev)).2
    ∃ c' : FxCore, exec i s = .next (s.withCore n c') ∧ c'.epc = c.pc ∧ c'.ecause = BitVec.ofNat 32 (code + 256 * sub) ∧
      c'.eval = value (fxCore n uses s.dev) ∧ c'.pc = c.vbr ∧ ctl c' ctlPIE = ctl c ctlIE ∧ ctl c' ctlPUM = false ∧ ctl c' ctlIE = false ∧
      ctl c' ctlUM = false ∧ ctl c' ctlEXL = true ∧ ctl c' ctlRPEND = false ∧ ctl c' ctlDZT = ctl c ctlDZT ∧ c'.g = c.g ∧ c'.fl = c.fl ∧
      c'.loops = c.loops ∧ c'.run = .running

/-! ## Commands of the host (R97, R108, R120, R125, R127) -/

/-- What the host or a command has set of a submission queue: its completion queue, size, head and tail, and the entries that an Abort hit. -/
def SubQueue.setUp (q : SubQueue) : Nat × Nat × Nat × Nat × List Nat := (q.cq, q.size, q.head, q.tail, q.doomed)

/-- What the host has set of a completion queue: its size, vector, interrupt enable and head. -/
def CompQueue.setUp (q : CompQueue) : Nat × Nat × Bool × Nat := (q.size, q.vector, q.ien, q.head)

/-- A controller without what a report touches: its queues, its events, its error log and its pending vectors. -/
def Ctrl.setUp (k : Ctrl) : Ctrl := { k with sqs := [], cqs := [], aers := [], masked := [], held := [], errorLog := [], msixPending := [] }

/-- Two states of a controller that differ at most in what a report touches: the same queues are set up in the same way. -/
structure Ctrl.Kept (k k' : Ctrl) : Prop where
  /-- Every other field is equal. -/
  rest : k'.setUp = k.setUp
  /-- Submission queues. -/
  sqs : ∀ i, (mapGet k'.sqs i).map SubQueue.setUp = (mapGet k.sqs i).map SubQueue.setUp
  /-- Completion queues. -/
  cqs : ∀ i, (mapGet k'.cqs i).map CompQueue.setUp = (mapGet k.cqs i).map CompQueue.setUp

/-- Two states of the host interface that differ at most in what a report touches of its controllers. -/
structure HostIf.Kept (h h' : HostIf) : Prop where
  /-- Every other field is equal. -/
  rest : h' = { h with ctrls := h'.ctrls }
  /-- A controller is still there, set up as it was. -/
  ctrls : ∀ id k, mapGet h.ctrls id = some k → ∃ k', mapGet h'.ctrls id = some k' ∧ Ctrl.Kept k k'
  /-- No controller has come. -/
  none : ∀ id, mapGet h.ctrls id = Option.none → mapGet h'.ctrls id = Option.none

/-- Two states of the part that differ at most in what a report touches: completions and events of the host's queues, what has been sent,
Gauge, the two logs, and the events queued for supervisor core 0. -/
structure SameWork (d d' : Dev) : Prop where
  /-- Every other field is equal. -/
  rest : d' = { d with host := d'.host, out := d'.out, gauge := d'.gauge, errLog := d'.errLog, vioLog := d'.vioLog, cores := d'.cores }
  /-- A core differs at most in its level sources. -/
  cores : ∀ n : CoreId, d'.cores[n] = { d.cores[n] with level := d'.cores[n].level }
  /-- The controllers are set up as they were. -/
  host : HostIf.Kept d.host d'.host

/-- A command that is fetched and reaches its own work: its controller and queue can give it, its identifier is not in flight, no Abort or
failing chain has hit it, its common fields are right, the part is in service and its data pointer can be used. -/
def admitted (c : Cmd) (admin : Bool) (d : Dev) : Bool :=
  match fetchable (advanceTo c.now d) c with
  | none => false
  | some q =>
    decide (admin = decide (c.sq = 0)) && !q.inflight.contains c.cid && !q.doomed.contains c.cid && !q.cancelling && fieldsOk c admin &&
      decide (d.power.phase = .ready) && decide (d.media.state ≠ 3) && decide (c.xfer = .ok)

/-- The part once the entry of a command has been taken from its queue. -/
def taken (c : Cmd) (d : Dev) : Dev :=
  match fetchable (advanceTo c.now d) c with
  | none => advanceTo c.now d
  | some q => takeEntry c q (wakeCtrl c (advanceTo c.now d))

/-- The completion queue of a command's submission queue exists. -/
def hasQueues (ctrl sq : Nat) (d : Dev) : Prop :=
  ∃ k q, getCtrl d ctrl = some k ∧ mapGet k.sqs sq = some q ∧ (mapGet k.cqs q.cq).isSome = true

/-- The entry of a command's completion has been written, or waits for the host to free an entry of a full queue. -/
def Posted (ctrl sq cid : Nat) (st : Status) (dw0 dw1 : Nat) (d : Dev) : Prop :=
  ∃ e : Cqe, e.ctrl = ctrl ∧ e.sq = sq ∧ e.cid = cid ∧ e.sct = st.1 ∧ e.sc = st.2 ∧ e.dw0 = dw0 ∧ e.dw1 = dw1 ∧ e.dnr = dnrOf d st ∧
    e.more = moreOf st ∧
    (Output.cqe e ∈ d.out ∨ ∃ k i q, getCtrl d ctrl = some k ∧ mapGet k.cqs i = some q ∧ e ∈ q.waiting)

/-- A command runs and completes: the next state holds the work given, its completion is posted with the status and the dwords given, and
nothing else but reports has changed; what is listed has been sent. -/
def Completes (i : Instr) (c : Cmd) (st : Status) (dw0 dw1 : Nat) (work : Dev) (s : State) (sent : List Output := []) : Prop :=
  ∃ t : State, exec i s = .next t ∧ t.pending = s.pending ∧ SameWork work t.dev ∧ Posted c.ctrl c.sq c.cid st dw0 dw1 t.dev ∧
    ∀ o ∈ sent, o ∈ t.dev.out

/-- The part once traffic of a port has come at a time: its link out of L1, its wake latched (R437). -/
def heard (p : Fin 2) (now : Nat) (d : Dev) : Dev := pcieActivity p (advanceTo now d)

/-- A function that configuration writes reach: its link is up, the Host island runs, and the configuration space has been loaded (R538). -/
def reached (ctrl now : Nat) (d : Dev) : Bool :=
  let p := portOf (advanceTo now d) ctrl
  linkUp d p.val && hostRuns (heard p now d) && configLoaded (heard p now d) && (getCtrl (heard p now d) ctrl).isSome

/-- A function whose BARs answer: configuration writes reach it and its Memory Space Enable is set (R120). -/
def barsOpen (ctrl now : Nat) (d : Dev) : Bool :=
  reached ctrl now d && (getCtrl (heard (portOf (advanceTo now d) ctrl) now d) ctrl).any Ctrl.memSpace

/-! ## Media (R361, R367) -/

/-- Two states that differ at most in reports and in what background reclamation does at once: bands, copies of units, their records in the
journal, and the two counters of object 0x3820.  Map, object records, values and namespaces are the same. -/
structure SameData (d d' : Dev) : Prop where
  /-- Every other field is equal. -/
  rest : d' = { d with host := d'.host, out := d'.out, gauge := d'.gauge, errLog := d'.errLog, vioLog := d'.vioLog, cores := d'.cores
                       num := d'.num, media := d'.media }
  /-- A core differs at most in its level sources. -/
  cores : ∀ n : CoreId, d'.cores[n] = { d.cores[n] with level := d'.cores[n].level }
  /-- The controllers are set up as they were. -/
  host : HostIf.Kept d.host d'.host
  /-- Objects keep their numbers. -/
  nums : ∀ k, k ≠ 0x382006 → k ≠ 0x382009 → objNum d' k = objNum d k
  /-- Media management keeps the rest. -/
  media : d'.media =
    { d.media with
      store := { d.media.store with bands := d'.media.store.bands }
      journal := d'.media.journal
      seq := d'.media.seq
      journalSince := d'.media.journalSince
      units := d'.media.units
      jobs := d'.media.jobs
      refreshDue := d'.media.refreshDue
      folding := d'.media.folding }

/-- A command that runs and completes, with background reclamation behind it. -/
def CompletesMedia (i : Instr) (c : Cmd) (st : Status) (dw0 dw1 : Nat) (work : Dev) (s : State) (sent : List Output := []) : Prop :=
  ∃ t : State, exec i s = .next t ∧ t.pending = s.pending ∧ SameData work t.dev ∧ Posted c.ctrl c.sq c.cid st dw0 dw1 t.dev ∧
    ∀ o ∈ sent, o ∈ t.dev.out

/-! ## The dictionary (R464 to R482) -/

/-- No path has a message or an acknowledgement that waits. -/
def pathsClear (d : Dev) : Bool :=
  d.aop.job.isNone && d.aop.mctpJob.isNone && d.aop.queue.isEmpty && d.aop.mctpQueue.isEmpty && !d.power.offDue

/-- A write of a whole value that passes checks 1 to 9 of R474 but for the transaction's rules. -/
def wellWritten (op : ObjOp) (d : Dev) : Bool :=
  match firstChecks d op with
  | .error _ => false
  | .ok r =>
    op.write && op.idx ≠ 0x1100 && !d.txn.formers.contains op.who && d.txn.partials.isEmpty && !isSegment r op && !isWorn d r op.key &&
      ownRangeOk d r op.key op.data && !(op.key = 0xA03006 && leNat op.data = 1 && !passStartOk d) && (imageCheck op.key op.data d).isNone &&
      !stateRefuses d op.key op.data

/-- A write that takes effect at once: no transaction is open, and its cells pass their verify (R474, R476). -/
def takesWrite (op : ObjOp) (np : List Nat) (d : Dev) : Bool :=
  wellWritten op d && d.txn.state = 0 && relationOk d (withValue d op.key (leNat op.data)) op.key && !np.contains op.key &&
    !((anyRow op.idx op.sub).any fun r => r.acc = .rwt) && !(op.key = 0x310003 && leNat op.data = 0 && d.weir.staged.isSome)

/-- A write that the open transaction of its path stages (R479). -/
def stagesWrite (op : ObjOp) (d : Dev) : Bool :=
  wellWritten op d && d.txn.state = 1 && decide (d.txn.owner = some op.who) && !stagingFull d op.key op.data

/-- The part once a direct write has been counted and its value is in force (R476, R477). -/
def writtenBy (op : ObjOp) (d : Dev) : Dev :=
  match anyRow op.idx op.sub with
  | none => d
  | some r =>
    putInForce (some op.who) r op.key op.data (if r.acc = .rwp && isPra r && !toStagedLaw d op.key then countPersist op.key d else d)

/-- The write that a row makes on a path. -/
def rowOp (who : Path) (i sub : Nat) (ty : ObjType) (data : Bytes) : ObjOp :=
  { who := who, write := true, idx := i, sub := sub, ty := ty.code, data := data }

/-- A row that writes a value to an object: in-band it completes and otherwise it is done, with the effect given on a part that takes the write
directly, and with the value staged where the path's own transaction is open. -/
def WritesObject (row : Via → Instr) (i sub : Nat) (ty : ObjType) (data : Bytes) (np : List Nat) (effect : Path → Dev → Dev) : Prop :=
  (∀ (c : Cmd) (s : State), admitted c true s.dev = true →
    let d := taken c s.dev
    let op := rowOp (.inband c.ctrl) i sub ty data
    isPf d c.ctrl = true → pathsClear d = true →
    (takesWrite op np d = true → Completes (row (.inband c)) c stOk 0 0 (effect op.who d) s) ∧
    (stagesWrite op (touchTxn op.who d) = true → Completes (row (.inband c)) c stOk 0 0 (stageValue op.key data (touchTxn op.who d)) s)) ∧
  (∀ (who : Path) (now : Nat) (s : State),
    let d := advanceTo now s.dev
    let op := rowOp who i sub ty data
    pathsAwake d = true → pathsClear d = true →
    (takesWrite op np d = true → exec (row (.other who now)) s = .next { s with dev := effect who d }) ∧
    (stagesWrite op (touchTxn op.who d) = true → exec (row (.other who now)) s = .next { s with dev := stageValue op.key data (touchTxn op.who d) }))

/-! ## Cascade (R502, R503, R519) -/

/-- A port of a running Confluence island that is up, so that flits are received on it. -/
def listens (p : Fin 2) (d : Dev) : Bool := cflRuns d && decide (d.cas.ports[p].state = 2)

/-- The part once a flit of a member has been received on a port at a time: its sequence number taken, its source heard. -/
def received (p : Fin 2) (src now : Nat) (d : Dev) : Dev :=
  let d0 := advanceTo now d
  modifyCas (fun c => { c with members := mapUpdate c.members src fun k => { k with lastFlit := d0.tm } })
    (modifyCfl p (fun q => { q with rxSeq := (q.rxSeq + 1) % 4096, fails := 0 }) d0)

/-- A member that this one takes work from: it has joined, or this one takes part in no cascade. -/
def knows (src : Nat) (d : Dev) : Bool := !(d.cas.state = 2 || d.cas.state = 3) || (joinedOthers d).contains src

end Sys2Proof.Machine
end

