-- ==== Sys2Proof/WellFormed.lean ====
section
/-! DEFINITION. WellFormed.lean: the commands whose operands lie in the ranges the spec gives them. -/
namespace Sys2Proof
open Sys2Proof.Machine

/-- A Tidemark or another 64-bit number (R73). -/
def time64 (n : Nat) : Bool := decide (n < 2 ^ 64)

/-- A dword. -/
def dword (n : Nat) : Bool := decide (n < 2 ^ 32)

/-- A word of 16 bits: a controller, queue or command identifier (R123). -/
def half (n : Nat) : Bool := decide (n < 65536)

/-- A submission queue entry whose fields have the widths of R123. -/
def Cmd.wf (c : Cmd) : Bool :=
  time64 c.now && half c.ctrl && half c.sq && half c.cid && decide (c.opc < 256 ∧ c.fuse < 4 ∧ c.psdt < 4) && dword c.nsid && dword c.cdw2 &&
    dword c.cdw3 && dword c.cdw10 && dword c.cdw11 && dword c.cdw12 && dword c.cdw13 && dword c.cdw14 && dword c.cdw15

/-- A path: management keys 0 to 3 and IPv6 addresses (R466, R467), endpoint identifiers of a byte (R472). -/
def Path.wf : Path → Bool
  | .inband ctrl => half ctrl
  | .aop key src => decide (key < 4 ∧ src < 2 ^ 128)
  | .aopUnauth => true
  | .mctp eid => decide (eid < 256)

/-- How an operation comes in: an in-band one is a command of the host, never a bare path (R462). -/
def Via.wf : Via → Bool
  | .inband c => c.wf
  | .other (.inband _) _ => false
  | .other who now => who.wf && time64 now

/-- A decode: retry levels 1 to 15, soft decisions of 2 or 3 bits (R373). -/
def Decode.wf : Decode → Bool
  | .hard => true
  | .retry l => decide (1 ≤ l ∧ l ≤ 15)
  | .soft b => decide (b = 2 ∨ b = 3)
  | .fail => true

/-- Decodes of units. -/
def decWf (l : List (Nat × Decode)) : Bool := l.all fun x => x.2.wf

/-- Verdicts of a shadow compare that can matter: none, one or two failures (R213). -/
def failsWf (n : Nat) : Bool := decide (n ≤ 2)

/-- A member identifier (R43). -/
def memberId (n : Nat) : Bool := decide (n < 8)

/-- A metadata item: firmware slots 1 and 2, profiles 0 to 63, programs 0 to 31 (R181, R325, R366, R541). -/
def MetaItem.wf : MetaItem → Bool
  | .mapChunk ns c => dword ns && dword c
  | .journalPage cs => cs.all fun c => dword c.1 && dword c.2
  | .firmware slot => decide (slot = 1 ∨ slot = 2)
  | .profile p => decide (p < 64)
  | .program slot => decide (slot < 32)
  | .other => true

/-- A frame: ports of 16 bits, addresses of 128, a hop limit of 8 (R466). -/
def AopFrame.wf (f : AopFrame) : Bool := decide (f.src < 2 ^ 128 ∧ f.dst < 2 ^ 128 ∧ f.hop < 256) && half f.srcPort && half f.dstPort

/-- What a join flit says: variant codes 0 to 2 and modes 0 to 3 (R494, R505). -/
def JoinMsg.wf : JoinMsg → Bool
  | .request id variant mode _ => memberId id && decide (variant < 3 ∧ mode < 4)
  | .answer master mode cause => memberId master && decide (mode < 4 ∧ cause ≤ 4)

/-- A forward request: its kinds are those of R513 to R515, its key has 128 bits. -/
def FwdReq.wf (f : FwdReq) : Bool :=
  memberId f.src && decide (f.kind = 0 ∨ f.kind = 1 ∨ f.kind = 2 ∨ f.kind = 3 ∨ f.kind = 5) && dword f.nsid && dword f.len &&
    decide (f.cls < 16 ∧ f.key < 2 ^ 128)

/-- Where a creation comes from. -/
def NsOrigin.wf : NsOrigin → Bool
  | .host tags => tags.all half
  | .master nsid tag => dword nsid && half tag

/-- A write without a row of its own: objects of 16-bit index and 8-bit subindex, the three BARs (R86, R464). -/
def RegWrite.wf : RegWrite → Bool
  | .object v idx sub ty _ _ _ _ => v.wf && half idx && decide (sub < 256 ∧ ty < 256)
  | .bar ctrl b _ _ _ => half ctrl && decide (b = 0 ∨ b = 2 ∨ b = 4)
  | .config ctrl _ _ => half ctrl
  | .mctpEid old => decide (old < 256)

/-- A Key Value key (R102). -/
def kvKey (key : Bytes) : Bool := decide (key.length ≤ 16)

/-- A load: mode 3 is no mode, and a register that is written back is not the one loaded (R300, R313). -/
def loadWf (rd ra : Reg) (mode : BitVec 2) : Bool := mode ≠ 3 && !(mode ≠ 0 && rd = ra)

/-- The commands whose operands lie in the ranges the spec gives them. -/
def Instr.wf : Instr → Bool
  | .powerOnReset => true
  | .sysRstAssert now low => time64 now && time64 low
  | .start now id _ _ _ _ _ _ _ => time64 now && memberId id
  | .bootImageVerify now => time64 now
  | .dramTrainingDone now _ _ _ => time64 now
  | .mountDone now _ _ _ _ _ _ _ _ _ _ => time64 now
  | .plpAssert now low => time64 now && time64 low
  | .powerFailFlushDone now _ => time64 now
  | .powerReturn now => time64 now
  | .railBrownout _ now => time64 now
  | .thermalTrip _ _ now => time64 now
  | .enterOff v => v.wf
  | .perstAssert _ now => time64 now
  | .linkDown _ now => time64 now
  | .linkUp _ speed width now => time64 now && decide (1 ≤ speed ∧ speed ≤ 5) && decide (width = 1 ∨ width = 2 ∨ width = 4 ∨ width = 8)
  | .flr ctrl now => half ctrl && time64 now
  | .vfEnableSet _ now => time64 now
  | .vfEnableClear _ now => time64 now
  | .numvfsWrite _ value now => half value && time64 now
  | .busMasterEnableClear ctrl now => half ctrl && time64 now
  | .ccEnable ctrl now => half ctrl && time64 now
  | .ccDisable ctrl now => half ctrl && time64 now
  | .sqTailDoorbell now ctrl qid value unknown => time64 now && half ctrl && half qid && dword value && unknown.all Cmd.wf
  | .cqHeadDoorbell now ctrl qid value => time64 now && half ctrl && half qid && dword value
  | .dmaReadCompletion now ctrl sq cid _ _ => time64 now && half ctrl && half sq && half cid
  | .unexpectedCompletion now ctrl _ => time64 now && half ctrl
  | .completionTimeout now ctrl sq cid _ => time64 now && half ctrl && half sq && half cid
  | .peerFlushReadComplete _ _ => true
  | .atsInvalidate now ctrl _ _ => time64 now && half ctrl
  | .pageRequestResponse ctrl _ code => half ctrl && decide (code < 16)
  | .pageRequestTimeout ctrl _ now => half ctrl && time64 now
  | .registerWrite now w => time64 now && w.wf
  | .createIoSubmissionQueue c => c.wf
  | .deleteIoSubmissionQueue c => c.wf
  | .createIoCompletionQueue c => c.wf
  | .deleteIoCompletionQueue c => c.wf
  | .getLogPage c => c.wf
  | .identify c => c.wf
  | .abort c _ _ => c.wf
  | .setFeatures c => c.wf
  | .getFeatures c => c.wf
  | .asynchronousEventRequest c => c.wf
  | .namespaceCreate c origin => c.wf && origin.wf
  | .namespaceDelete c => c.wf
  | .namespaceAttach c => c.wf
  | .namespaceDetach c => c.wf
  | .firmwareImageDownload c => c.wf
  | .firmwareCommitWrite c => c.wf
  | .firmwareCommitActivateNext c => c.wf
  | .firmwareCommitSelectSlot c => c.wf
  | .firmwareCommitRestart c => c.wf
  | .firmwareSlotWriteDone now => time64 now
  | .firmwareActivationRestart now => time64 now
  | .deviceSelfTest c result => c.wf && decide (result < 16)
  | .virtualizationManagement c => c.wf
  | .nvmeMiSend c len => c.wf && dword len
  | .nvmeMiReceive c => c.wf
  | .formatNvm c lbaf ses => c.wf && decide (lbaf < 64 ∧ ses < 8)
  | .sanitize c action => c.wf && decide (action < 8)
  | .objectRead c => c.wf
  | .objectWrite c _ => c.wf
  | .txnBegin v => v.wf
  | .txnCommit v => v.wf
  | .txnRollback v => v.wf
  | .txnTimeout now => time64 now
  | .keySlotAllocate c => c.wf
  | .keySlotLoad c => c.wf
  | .kekLoad c => c.wf
  | .keySlotErase c => c.wf
  | .generationBusyTimeout slot now => decide (slot < 8192) && time64 now
  | .cascadeRemoveMember c => c.wf
  | .cascadeRebalance c => c.wf
  | .cascadeLoadKek1 c => c.wf
  | .cascadeStatus c seen => c.wf && seen.all fun x => memberId x.1
  | .nvmRead c slba nlb dec fails _ => c.wf && time64 slba && half nlb && decWf dec && failsWf fails
  | .nvmWrite c slba nlb dec fails => c.wf && time64 slba && half nlb && decWf dec && failsWf fails
  | .flush c => c.wf
  | .compare c slba nlb dec fails _ => c.wf && time64 slba && half nlb && decWf dec && failsWf fails
  | .writeZeroes c slba nlb dec => c.wf && time64 slba && half nlb && decWf dec
  | .datasetManagement c _ ranges => c.wf && ranges.all fun r => time64 r.1 && dword r.2
  | .verify c slba nlb dec fails _ => c.wf && time64 slba && half nlb && decWf dec && failsWf fails
  | .reservationRegister c action cptpl crkey nrkey _ => c.wf && decide (action < 8 ∧ cptpl < 4) && time64 crkey && time64 nrkey
  | .reservationReport c len => c.wf && dword len
  | .reservationAcquire c action crkey prkey rtype => c.wf && decide (action < 8 ∧ rtype < 256) && time64 crkey && time64 prkey
  | .reservationRelease c action crkey rtype => c.wf && decide (action < 8 ∧ rtype < 256) && time64 crkey
  | .kvStore c key _ _ fails => c.wf && kvKey key && failsWf fails
  | .kvRetrieve c key len dec fails _ => c.wf && kvKey key && dword len && decWf dec && failsWf fails
  | .kvDelete c key => c.wf && kvKey key
  | .kvExist c key => c.wf && kvKey key
  | .kvList c key len => c.wf && kvKey key && dword len
  | .loadProgram c slot _ => c.wf && half slot
  | .loadProgramUnload c slot _ => c.wf && half slot
  | .activateProgram c slot => c.wf && half slot
  | .deactivateProgram c slot => c.wf && half slot
  | .executeProgram c slot set_ => c.wf && half slot && half set_
  | .memoryRangeSetManagement c _ id ranges => c.wf && half id && ranges.all fun r => dword r.1 && time64 r.2.1 && dword r.2.2
  | .slmRead c off len _ => c.wf && time64 off && dword len
  | .slmWrite c off _ => c.wf && time64 off
  | .memoryCopy c off sources _ => c.wf && time64 off && sources.all fun r => dword r.1 && time64 r.2.1 && dword r.2.2
  | .sessionOpen c => c.wf
  | .sessionClose c => c.wf
  | .sessionQuery c => c.wf
  | .sessionIdleCheck now => time64 now
  | .objectPut c => c.wf
  | .putDataArrival _ _ fails data => failsWf fails && decide (data.length ≤ 4096)
  | .objectPutValidate _ now => time64 now
  | .streamRead c _ _ _ => c.wf
  | .streamReadSize c _ _ => c.wf
  | .lookup c _ => c.wf
  | .objectEvict c _ => c.wf
  | .fence c => c.wf
  | .unitDecode _ _ dec => dec.wf
  | .estuaryAssign _ => true
  | .xtsDecryptUnit _ _ _ => true
  | .braidLengthPass _ now _ => time64 now
  | .braidAssemblyPass _ now _ => time64 now
  | .riffleDeliveryDecode _ _ => true
  | .estuaryEncryptRange _ _ _ => true
  | .outputDmaDone _ now _ => time64 now
  | .lookupWindowKeyWrite now ctrl w _ _ => time64 now && half ctrl && decide (w < 1024)
  | .lookupWindowResult now ctrl w _ => time64 now && half ctrl && decide (w < 1024)
  | .eddyParityScan now bad => time64 now && bad.all fun a => decide (a < 65536)
  | .eddyEntryRewrite a now => decide (a < 65536) && time64 now
  | .eddySearch _ cmd _ => dword cmd
  | .eddyInsert _ cmd => dword cmd
  | .eddyWrite _ cmd => dword cmd
  | .eddyInvalidate _ cmd => dword cmd
  | .eddySetdata _ cmd => dword cmd
  | .eddyRead _ cmd => dword cmd
  | .eddyOperationDone _ => true
  | .sessionLabelSearch v value => v.wf && time64 value
  | .partitionLayoutWrite v _ word => v.wf && dword word
  | .riffleDecompress _ _ addr64 => dword addr64
  | .riffleCompress _ _ addr64 => dword addr64
  | .riffleCheck _ _ addr64 => dword addr64
  | .riffleDescriptorDone _ => true
  | .profileImageWrite v _ _ _ _ => v.wf
  | .profileUndefine v _ => v.wf
  | .programImageChunk v _ _ => v.wf
  | .programActionLoad v _ => v.wf
  | .programActionActivate v _ => v.wf
  | .programActionDeactivate v _ => v.wf
  | .programActionUnload v _ => v.wf
  | .invocationDispatch n now => decide (n.val < 32) && time64 now
  | .programTimeLimit n now => decide (n.val < 32) && time64 now
  | .haltedCoreReset n now => decide (n.val < 32) && time64 now
  | .estuaryReturnToService v unit => v.wf && decide (unit < 256)
  | .knownAnswerTestDone _ _ => true
  | .springheadAlarm now cause => time64 now && decide (cause < 256)
  | .keyStoreUnlock now => time64 now
  | .managementKeyWrite v _ _ => v.wf
  | .aopFrame now f _ _ => time64 now && f.wf
  | .mctpObjectRequest now eid _ type count _ _ => time64 now && decide (eid < 256 ∧ type < 256) && half count
  | .wakeLatch now ports other held levels _ _ =>
    time64 now && decide (ports < 4 ∧ other < 256 ∧ held < 256 ∧ levels < 2 ^ 32)
  | .rtcAlarm now => time64 now
  | .autoDoze now => time64 now
  | .dozeEntry now wake => time64 now && decide (wake < 256)
  | .slumberEntry now => time64 now
  | .slumberCommitPoint now late => time64 now && decide (late < 256)
  | .islandStageRelease now => time64 now
  | .xtal25Lock now => time64 now
  | .tidemarkHandover _ => true
  | .weirSample now _ _ _ _ _ _ _ => time64 now
  | .weirFreeze v => v.wf
  | .weirUnfreeze v => v.wf
  | .weirLawEnable v _ => v.wf
  | .weirLawDisable v _ => v.wf
  | .lifeRecordUpdate now mean peak => time64 now && dword mean && dword peak
  | .dramReadRequest _ _ _ now => time64 now
  | .dramWriteRequest _ _ _ _ now => time64 now
  | .realTimeBurst _ _ _ _ _ _ now => time64 now
  | .writeAgeDrain _ now => time64 now
  | .refsbDue _ _ _ now => time64 now
  | .refsbIssue _ _ _ now => time64 now
  | .rfmIssue _ bank now => decide (bank < 64) && time64 now
  | .neighbourRefresh _ now => time64 now
  | .dramTempPoll _ now => time64 now
  | .caParityAlert _ now => time64 now
  | .dramRetrainStep _ passing _ now => decide (passing.length ≤ 64) && time64 now
  | .laneRetry _ passing now => decide (passing.length ≤ 64) && time64 now
  | .writeBack _ now => time64 now
  | .writeBackTimeout _ now => time64 now
  | .remapCopy _ _ now => time64 now
  | .bucketLeak now => time64 now
  | .triplicateVote _ _ _ _ now => time64 now
  | .dredgeStart v => v.wf
  | .dredgeStop v => v.wf
  | .dredgePassDone now _ _ reads _ => time64 now && decWf reads
  | .periodicDredge now _ => time64 now
  | .gaugeSnapshot v => v.wf
  | .gaugeResetAll v => v.wf
  | .gaugeCounterWrite v _ value => v.wf && time64 value
  | .gaugeSourceWrite v _ source _ => v.wf && half source
  | .pageProgramDone _ _ now => time64 now
  | .foldIdleTimer now => time64 now
  | .bandEraseDone _ failed now => time64 now && failed.all fun p => decide (p < 64)
  | .lunAnswerTimeout _ _ now => time64 now
  | .journalCommit now _ => time64 now
  | .mapWordRebuilt ns lu now => dword ns && dword lu && time64 now
  | .metadataRemirror i _ now => i.wf && time64 now
  | .confluencePortTrained _ lanes peer now => decide (lanes = 1 ∨ lanes = 2 ∨ lanes = 4) && memberId peer && time64 now
  | .join _ m now => m.wf && time64 now
  | .heartbeat _ src _ now => memberId src && time64 now
  | .heartbeatSend now => time64 now
  | .masterLost reach now => time64 now && reach.all fun x => memberId x.1
  | .electionTimeout reach now => time64 now && reach.all fun x => memberId x.1
  | .forwardRequest _ f _ _ now => f.wf && time64 now
  | .dataFlit _ src _ _ fields _ now => memberId src && time64 now && fields.all fun x => dword x
  | .forwardCompletion _ src _ sct sc dw0 dw1 now => memberId src && decide (sct < 8 ∧ sc < 256) && dword dw0 && dword dw1 && time64 now
  | .indexLookup _ src _ op _ key now => memberId src && decide (op ≤ 2 ∧ key < 2 ^ 128) && time64 now
  | .indexReply _ src _ _ holder _ _ _ now => memberId src && memberId holder && time64 now
  | .keyRelay _ src _ opc _ now => memberId src && decide (opc = 0xC4 ∨ opc = 0xC5) && time64 now
  | .placementUpdate _ src table ms now => memberId src && decide (table.length = 64) && (ms.all fun x => memberId x.1) && time64 now
  | .abortFlit _ src _ now => memberId src && time64 now
  | .forwardTimeout _ now => time64 now
  | .indexRebuildDone entries _ _ now => time64 now && entries.all fun e => memberId e.2.1
  | .portRetrain v _ => v.wf
  | .interruptTaken _ => true
  | .loadDataReturn _ _ => true
  | .productLands _ => true
  | .quotientLands _ => true
  | .lineFillDone _ _ => true
  | .storeRefused _ _ => true
  | .timerCompare _ => true
  | .mboxPost _ _ => true
  | .fxAdd _ _ _ _ => true
  | .fxAdc _ _ _ _ => true
  | .fxSub _ _ _ _ => true
  | .fxSbc _ _ _ _ => true
  | .fxNeg _ _ _ => true
  | .fxCmp _ _ _ => true
  | .fxAnd _ _ _ _ => true
  | .fxOr _ _ _ _ => true
  | .fxXor _ _ _ _ => true
  | .fxTst _ _ _ => true
  | .fxClz _ _ _ => true
  | .fxBswap _ _ _ => true
  | .fxSextb _ _ _ => true
  | .fxSexth _ _ _ => true
  | .fxLsl _ _ _ _ => true
  | .fxLsr _ _ _ _ => true
  | .fxAsr _ _ _ _ => true
  | .fxRor _ _ _ _ => true
  | .fxLsli _ _ _ _ => true
  | .fxLsri _ _ _ _ => true
  | .fxAsri _ _ _ _ => true
  | .fxRori _ _ _ _ => true
  | .fxAddi _ _ _ _ => true
  | .fxAndi _ _ _ _ => true
  | .fxOri _ _ _ _ => true
  | .fxXori _ _ _ _ => true
  | .fxLui _ _ _ => true
  | .fxCmpi _ _ _ => true
  | .fxMul _ _ _ => true
  | .fxMulu _ _ _ => true
  | .fxDiv _ _ _ => true
  | .fxDivu _ _ _ => true
  | .fxDadd _ _ _ _ => true
  | .fxDadc _ _ _ _ => true
  | .fxDsub _ _ _ _ => true
  | .fxDsbc _ _ _ _ => true
  | .fxDadj _ _ _ => true
  | .fxDcvt _ _ _ => true
  | .fxDtxtl _ _ _ => true
  | .fxDtxth _ _ _ => true
  | .fxDlz _ _ _ => true
  | .fxLdb _ rd ra mode _ _ => loadWf rd ra mode
  | .fxLdbu _ rd ra mode _ _ => loadWf rd ra mode
  | .fxLdh _ rd ra mode _ _ => loadWf rd ra mode
  | .fxLdhu _ rd ra mode _ _ => loadWf rd ra mode
  | .fxLdw _ rd ra mode _ _ => loadWf rd ra mode
  | .fxLdd _ rd ra mode _ _ _ => loadWf rd ra mode && decide (rd.val % 2 = 0) && !(mode ≠ 0 && rd.val + 1 = ra.val)
  | .fxStb _ _ _ mode _ _ => mode ≠ 3
  | .fxSth _ _ _ mode _ _ => mode ≠ 3
  | .fxStw _ _ _ mode _ => mode ≠ 3
  | .fxStd _ rs _ mode _ => mode ≠ 3 && decide (rs.val % 2 = 0)
  | .fxSwp _ _ _ _ _ => true
  | .fxCas _ _ _ _ _ => true
  | .fxBcc _ _ _ => true
  | .fxJ _ _ => true
  | .fxCall _ _ => true
  | .fxJr _ _ => true
  | .fxCallr _ _ => true
  | .fxLoop _ _ _ _ => true
  | .fxLoopi _ _ _ _ => true
  | .fxRep _ _ => true
  | .fxRepi _ _ => true
  | .fxMfs _ _ _ => true
  | .fxMts _ _ _ => true
  | .fxFenceW _ => true
  | .fxFenceR _ => true
  | .fxFenceRw _ => true
  | .fxFenceI _ => true
  | .fxEret _ => true
  | .fxWait _ => true
  | .fxSys _ _ => true
  | .fxBrk _ _ => true
  | .perstDeassert _ now => time64 now
  | .autonomousPowerStateTransition ctrl now => half ctrl && time64 now
  | .linkL1Entry _ now => time64 now
  | .flitReplay _ now => time64 now
  | .confluencePortDown _ lost now => time64 now && lost.all memberId
  | .malformedTlp now ctrl _ => time64 now && half ctrl
  | .barRead now ctrl b _ len => time64 now && half ctrl && decide (b = 0 ∨ b = 2 ∨ b = 4) && decide (1 ≤ len ∧ len ≤ 8)
  | .tidemarkStepRecovery _ now => time64 now
  | .undefinedInstruction _ w => !fxDefined w

end Sys2Proof
end

