-- ==== Sys2Proof/Certificates/Slice0/Obligations.lean ====
section
/-! DEFINITION. Certificates/Slice0/Obligations.lean: the statements for the provers, grouped as the spec's chapters are. -/

open Sys2Proof Sys2Proof.Machine

/-- The queue of the block model: the front command runs on the part, the rest of the queue stays. -/
def Obligations.StepRunsFront : Prop :=
  ∀ (c : Instr) (s : State), step { s with pending := c :: s.pending } = exec c s

/-- R302, R304, R305: the additive operations, each with its word, its result, its flags and nothing else changed. -/
def Obligations.IntegerArithmeticResults : Prop :=
  ∀ (n : CoreId) (rd ra rb : Reg) (imm : BitVec 16),
    (FxDoes (.fxAdd n rd ra rb) n (encR 0 rd.val ra.val rb.val 0 1) [rd, ra, rb] (some rd)
      (fun c => rget c ra + rget c rb)
      (fun c => 
        let r := rget c ra + rget c rb
        [(flZ, r == 0), (flN, r.msb), (flC, decide (2 ^ 32 ≤ (rget c ra).toNat + (rget c rb).toNat + 0)),
          (flV, decide (r.toInt ≠ (rget c ra).toInt + (rget c rb).toInt + (0 : Nat)))]) 1) ∧
    (FxDoes (.fxAdc n rd ra rb) n (encR 0 rd.val ra.val rb.val 0 2) [rd, ra, rb] (some rd)
      (fun c => rget c ra + rget c rb + BitVec.ofNat 32 (if flag c.fl flC then 1 else 0))
      (fun c => 
        let r := rget c ra + rget c rb + BitVec.ofNat 32 (if flag c.fl flC then 1 else 0)
        [(flZ, r == 0), (flN, r.msb), (flC, decide (2 ^ 32 ≤ (rget c ra).toNat + (rget c rb).toNat + (if flag c.fl flC then 1 else 0))),
          (flV, decide (r.toInt ≠ (rget c ra).toInt + (rget c rb).toInt + ((if flag c.fl flC then 1 else 0) : Nat)))]) 1) ∧
    (FxDoes (.fxSub n rd ra rb) n (encR 0 rd.val ra.val rb.val 0 3) [rd, ra, rb] (some rd)
      (fun c => rget c ra - rget c rb)
      (fun c => 
        let r := rget c ra - rget c rb
        [(flZ, r == 0), (flN, r.msb), (flC, decide ((rget c ra).toNat < (rget c rb).toNat + 0)),
          (flV, decide (r.toInt ≠ (rget c ra).toInt - (rget c rb).toInt - (0 : Nat)))]) 1) ∧
    (FxDoes (.fxSbc n rd ra rb) n (encR 0 rd.val ra.val rb.val 0 4) [rd, ra, rb] (some rd)
      (fun c => rget c ra - rget c rb - BitVec.ofNat 32 (if flag c.fl flC then 1 else 0))
      (fun c => 
        let r := rget c ra - rget c rb - BitVec.ofNat 32 (if flag c.fl flC then 1 else 0)
        [(flZ, r == 0), (flN, r.msb), (flC, decide ((rget c ra).toNat < (rget c rb).toNat + (if flag c.fl flC then 1 else 0))),
          (flV, decide (r.toInt ≠ (rget c ra).toInt - (rget c rb).toInt - ((if flag c.fl flC then 1 else 0) : Nat)))]) 1) ∧
    (FxDoes (.fxNeg n rd ra) n (encR 0 rd.val ra.val 0 0 5) [rd, ra] (some rd)
      (fun c => 0 - rget c ra)
      (fun c => 
        let r := (0 : Word) - rget c ra
        [(flZ, r == 0), (flN, r.msb), (flC, decide (((0 : Word)).toNat < (rget c ra).toNat + 0)),
          (flV, decide (r.toInt ≠ ((0 : Word)).toInt - (rget c ra).toInt - (0 : Nat)))]) 1) ∧
    (FxDoes (.fxCmp n ra rb) n (encR 0 0 ra.val rb.val 0 6) [ra, rb] none (fun _ => 0)
      (fun c => 
        let r := rget c ra - rget c rb
        [(flZ, r == 0), (flN, r.msb), (flC, decide ((rget c ra).toNat < (rget c rb).toNat + 0)),
          (flV, decide (r.toInt ≠ (rget c ra).toInt - (rget c rb).toInt - (0 : Nat)))]) 1) ∧
    (FxDoes (.fxAddi n rd ra imm) n (encI 4 rd.val ra.val imm) [rd, ra] (some rd) (fun c => rget c ra + imm.signExtend 32)
      (fun _ => []) 1) ∧
    (FxDoes (.fxCmpi n ra imm) n (encI 9 0 ra.val imm) [ra] none (fun _ => 0)
      (fun c => 
        let r := rget c ra - imm.signExtend 32
        [(flZ, r == 0), (flN, r.msb), (flC, decide ((rget c ra).toNat < (imm.signExtend 32).toNat + 0)),
          (flV, decide (r.toInt ≠ (rget c ra).toInt - (imm.signExtend 32).toInt - (0 : Nat)))]) 1)

/-- R304 and R305: the logical, byte and immediate operations. -/
def Obligations.LogicalAndMoveResults : Prop :=
  ∀ (n : CoreId) (rd ra rb : Reg) (imm : BitVec 16),
    (FxDoes (.fxAnd n rd ra rb) n (encR 0 rd.val ra.val rb.val 0 7) [rd, ra, rb] (some rd)
      (fun c => rget c ra &&& rget c rb)
      (fun c => 
        let r := rget c ra &&& rget c rb
        [(flZ, r == 0), (flN, r.msb)]) 1) ∧
    (FxDoes (.fxOr n rd ra rb) n (encR 0 rd.val ra.val rb.val 0 8) [rd, ra, rb] (some rd)
      (fun c => rget c ra ||| rget c rb)
      (fun c => 
        let r := rget c ra ||| rget c rb
        [(flZ, r == 0), (flN, r.msb)]) 1) ∧
    (FxDoes (.fxXor n rd ra rb) n (encR 0 rd.val ra.val rb.val 0 9) [rd, ra, rb] (some rd)
      (fun c => rget c ra ^^^ rget c rb)
      (fun c => 
        let r := rget c ra ^^^ rget c rb
        [(flZ, r == 0), (flN, r.msb)]) 1) ∧
    (FxDoes (.fxTst n ra rb) n (encR 0 0 ra.val rb.val 0 10) [ra, rb] none (fun _ => 0)
      (fun c => 
        let r := rget c ra &&& rget c rb
        [(flZ, r == 0), (flN, r.msb)]) 1) ∧
    (∃ clz : Word → Nat, (∀ x : Word, clz x ≤ 32 ∧ (∀ k, 32 - clz x ≤ k → x.getLsbD k = false) ∧ (clz x < 32 → x.getLsbD (31 - clz x) = true)) ∧
      FxDoes (.fxClz n rd ra) n (encR 0 rd.val ra.val 0 0 11) [rd, ra] (some rd) (fun c => BitVec.ofNat 32 (clz (rget c ra))) (fun _ => []) 1) ∧
    (∃ swap : Word → Word, (∀ (x : Word) (k : Nat), k < 8 → (swap x).getLsbD k = x.getLsbD (24 + k) ∧ (swap x).getLsbD (8 + k) = x.getLsbD (16 + k) ∧
        (swap x).getLsbD (16 + k) = x.getLsbD (8 + k) ∧ (swap x).getLsbD (24 + k) = x.getLsbD k) ∧
      FxDoes (.fxBswap n rd ra) n (encR 0 rd.val ra.val 0 0 12) [rd, ra] (some rd) (fun c => swap (rget c ra)) (fun _ => []) 1) ∧
    (FxDoes (.fxSextb n rd ra) n (encR 0 rd.val ra.val 0 0 13) [rd, ra] (some rd)
      (fun c => ((rget c ra).setWidth 8).signExtend 32) (fun _ => []) 1) ∧
    (FxDoes (.fxSexth n rd ra) n (encR 0 rd.val ra.val 0 0 14) [rd, ra] (some rd)
      (fun c => ((rget c ra).setWidth 16).signExtend 32) (fun _ => []) 1) ∧
    (FxDoes (.fxAndi n rd ra imm) n (encI 5 rd.val ra.val imm) [rd, ra] (some rd) (fun c => rget c ra &&& imm.setWidth 32) (fun _ => []) 1) ∧
    (FxDoes (.fxOri n rd ra imm) n (encI 6 rd.val ra.val imm) [rd, ra] (some rd) (fun c => rget c ra ||| imm.setWidth 32) (fun _ => []) 1) ∧
    (FxDoes (.fxXori n rd ra imm) n (encI 7 rd.val ra.val imm) [rd, ra] (some rd) (fun c => rget c ra ^^^ imm.setWidth 32) (fun _ => []) 1) ∧
    (FxDoes (.fxLui n rd imm) n (encI 8 rd.val 0 imm) [rd] (some rd) (fun _ => imm ++ 0#16) (fun _ => []) 1)

/-- R306: counts and carries of the shifts.  A BitVec shift by 32 or more gives 0, or the sign fill, as the rule says. -/
def Obligations.ShiftResults : Prop :=
  ∀ (n : CoreId) (rd ra rb : Reg) (sh : BitVec 5),
    (FxDoes (.fxLsl n rd ra rb) n (encR 0 rd.val ra.val rb.val 0 16) [rd, ra, rb] (some rd)
      (fun c => let a := rget c ra; let n := (rget c rb).toNat % 64; a <<< n)
      (fun c => 
        let a := rget c ra
        let n := (rget c rb).toNat % 64
        let r : Word := a <<< n
        [(flZ, r == 0), (flN, r.msb)] ++ (if n = 0 then [] else [(flC, if n ≤ 32 then a.getLsbD (32 - n) else false)])) 1) ∧
    (FxDoes (.fxLsr n rd ra rb) n (encR 0 rd.val ra.val rb.val 0 17) [rd, ra, rb] (some rd)
      (fun c => let a := rget c ra; let n := (rget c rb).toNat % 64; a >>> n)
      (fun c => 
        let a := rget c ra
        let n := (rget c rb).toNat % 64
        let r : Word := a >>> n
        [(flZ, r == 0), (flN, r.msb)] ++ (if n = 0 then [] else [(flC, if n ≤ 32 then a.getLsbD (n - 1) else false)])) 1) ∧
    (FxDoes (.fxAsr n rd ra rb) n (encR 0 rd.val ra.val rb.val 0 18) [rd, ra, rb] (some rd)
      (fun c => let a := rget c ra; let n := (rget c rb).toNat % 64; a.sshiftRight n)
      (fun c => 
        let a := rget c ra
        let n := (rget c rb).toNat % 64
        let r : Word := a.sshiftRight n
        [(flZ, r == 0), (flN, r.msb)] ++ (if n = 0 then [] else [(flC, if n ≤ 32 then a.getLsbD (n - 1) else a.msb)])) 1) ∧
    (FxDoes (.fxRor n rd ra rb) n (encR 0 rd.val ra.val rb.val 0 19) [rd, ra, rb] (some rd)
      (fun c => let a := rget c ra; let n := (rget c rb).toNat % 32; a.rotateRight n)
      (fun c => 
        let a := rget c ra
        let n := (rget c rb).toNat % 32
        let r : Word := a.rotateRight n
        [(flZ, r == 0), (flN, r.msb)] ++ (if n = 0 then [] else [(flC, r.msb)])) 1) ∧
    (FxDoes (.fxLsli n rd ra sh) n (encR 0 rd.val ra.val 0 sh.toNat 20) [rd, ra] (some rd)
      (fun c => let a := rget c ra; let n := sh.toNat; a <<< n)
      (fun c => 
        let a := rget c ra
        let n := sh.toNat
        let r : Word := a <<< n
        [(flZ, r == 0), (flN, r.msb)] ++ (if n = 0 then [] else [(flC, if n ≤ 32 then a.getLsbD (32 - n) else false)])) 1) ∧
    (FxDoes (.fxLsri n rd ra sh) n (encR 0 rd.val ra.val 0 sh.toNat 21) [rd, ra] (some rd)
      (fun c => let a := rget c ra; let n := sh.toNat; a >>> n)
      (fun c => 
        let a := rget c ra
        let n := sh.toNat
        let r : Word := a >>> n
        [(flZ, r == 0), (flN, r.msb)] ++ (if n = 0 then [] else [(flC, if n ≤ 32 then a.getLsbD (n - 1) else false)])) 1) ∧
    (FxDoes (.fxAsri n rd ra sh) n (encR 0 rd.val ra.val 0 sh.toNat 22) [rd, ra] (some rd)
      (fun c => let a := rget c ra; let n := sh.toNat; a.sshiftRight n)
      (fun c => 
        let a := rget c ra
        let n := sh.toNat
        let r : Word := a.sshiftRight n
        [(flZ, r == 0), (flN, r.msb)] ++ (if n = 0 then [] else [(flC, if n ≤ 32 then a.getLsbD (n - 1) else a.msb)])) 1) ∧
    (FxDoes (.fxRori n rd ra sh) n (encR 0 rd.val ra.val 0 sh.toNat 23) [rd, ra] (some rd)
      (fun c => let a := rget c ra; let n := sh.toNat; a.rotateRight n)
      (fun c => 
        let a := rget c ra
        let n := sh.toNat
        let r : Word := a.rotateRight n
        [(flZ, r == 0), (flN, r.msb)] ++ (if n = 0 then [] else [(flC, r.msb)])) 1)

/-- R296 and R307: the exposed latency of the multiplier. -/
def Obligations.MultiplyLandsAtItsLatency : Prop :=
  (∀ (n : CoreId) (ra rb : Reg) (s : State),
    (fxReady n (encR 2 0 ra.val rb.val 0 1) [ra, rb] s.dev = true →
      let c := fxCore n [ra, rb] s.dev
      ∃ hi lo : Word, (hi ++ lo : BitVec 64).toInt = (rget c ra).toInt * (rget c rb).toInt ∧
        exec (.fxMul n ra rb) s = .next (s.withCore n (retired 1 c.pc { c with products := c.products ++ [(c.cycle + 2, hi, lo)] }))) ∧
    (fxReady n (encR 2 0 ra.val rb.val 0 2) [ra, rb] s.dev = true →
      let c := fxCore n [ra, rb] s.dev
      ∃ hi lo : Word, (hi ++ lo : BitVec 64).toNat = (rget c ra).toNat * (rget c rb).toNat ∧
        exec (.fxMulu n ra rb) s = .next (s.withCore n (retired 1 c.pc { c with products := c.products ++ [(c.cycle + 2, hi, lo)] })))) ∧
  (∀ (c : FxCore) (l : Nat) (hi lo : Word), c.products = [(l, hi, lo)] →
    (landProducts c).ph = (if l < c.cycle then hi else c.ph) ∧ (landProducts c).pl = (if l < c.cycle then lo else c.pl)) ∧
  (∀ (n : CoreId) (s : State) (l : Nat) (hi lo : Word) (rest : List (Nat × Word × Word)), s.dev.cores[n].products = (l, hi, lo) :: rest →
    exec (.productLands n) s = .next (s.withCore n { s.dev.cores[n] with
      products := rest, ph := hi, pl := lo, cycle := max s.dev.cores[n].cycle (l + 1) }))

/-- R308 with the latency of R297: every division and every corner. -/
def Obligations.DivideResultsAndFlags : Prop :=
  (∀ (n : CoreId) (ra rb : Reg) (s : State), fxReady n (encR 2 0 ra.val rb.val 0 3) [ra, rb] s.dev = true →
    let c := awaitDivider (fxCore n [ra, rb] s.dev)
    let x := rget c ra
    let y := rget c rb
    (y ≠ 0 ∨ ctl c ctlDZT = false) →
    ∃ q r fl : Word,
      exec (.fxDiv n ra rb) s = .next (s.withCore n (retired 1 c.pc { c with divide := some (c.cycle + 19, q, r), fl := fl })) ∧
      (y ≠ 0 → ¬(x = 0x80000000 ∧ y = 0xFFFFFFFF) → q.toInt = x.toInt.tdiv y.toInt ∧ r.toInt = x.toInt.tmod y.toInt ∧
        FlagsAre c.fl fl [(flV, false)]) ∧
      (x = 0x80000000 → y = 0xFFFFFFFF → q = 0x80000000 ∧ r = 0 ∧ FlagsAre c.fl fl [(flV, true)]) ∧
      (y = 0 → q = (if x.msb then 0x80000000 else 0x7FFFFFFF) ∧ r = x ∧ FlagsAre c.fl fl [(flV, false), (flDZ, true)])) ∧
  (∀ (n : CoreId) (ra rb : Reg) (s : State), fxReady n (encR 2 0 ra.val rb.val 0 4) [ra, rb] s.dev = true →
    let c := awaitDivider (fxCore n [ra, rb] s.dev)
    let x := rget c ra
    let y := rget c rb
    (y ≠ 0 ∨ ctl c ctlDZT = false) →
    ∃ q r fl : Word,
      exec (.fxDivu n ra rb) s = .next (s.withCore n (retired 1 c.pc { c with divide := some (c.cycle + 19, q, r), fl := fl })) ∧
      (y ≠ 0 → q.toNat = x.toNat / y.toNat ∧ r.toNat = x.toNat % y.toNat ∧ fl = c.fl) ∧
      (y = 0 → q = 0xFFFFFFFF ∧ r = x ∧ FlagsAre c.fl fl [(flDZ, true)])) ∧
  (∀ (n : CoreId) (s : State) (l : Nat) (q r : Word), s.dev.cores[n].divide = some (l, q, r) → s.dev.cores[n].products = [] →
    exec (.quotientLands n) s = .next (s.withCore n { s.dev.cores[n] with
      qt := q, rm := r, divide := none, cycle := max s.dev.cores[n].cycle (l + 1) }))

/-- R310 and R311: the decimal operations that write a decimal word. -/
def Obligations.DecimalArithmeticResults : Prop :=
  ∀ (n : CoreId) (rd ra rb : Reg),
    (∀ s : State, fxReady n (encR 3 rd.val ra.val rb.val 0 1) [rd, ra, rb] s.dev = true →
      let c := fxCore n [rd, ra, rb] s.dev
      let x := bcdValue (rget c ra)
      let y := bcdValue (rget c rb) + 0
      ∃ r fl : Word, bcdValue r = (x + y) % 10 ^ 8 ∧ hasNonBcd r = false ∧
        FlagsAre c.fl fl [(flZ, r == 0), (flV, hasNonBcd (rget c ra) || hasNonBcd (rget c rb)), (flDC, decide (10 ^ 8 ≤ x + y))] ∧
        exec (.fxDadd n rd ra rb) s = .next (s.withCore n (retired 1 c.pc { rset rd r c with fl := fl }))) ∧
    (∀ s : State, fxReady n (encR 3 rd.val ra.val rb.val 0 2) [rd, ra, rb] s.dev = true →
      let c := fxCore n [rd, ra, rb] s.dev
      let x := bcdValue (rget c ra)
      let y := bcdValue (rget c rb) + (if flag c.fl flDC then 1 else 0)
      ∃ r fl : Word, bcdValue r = (x + y) % 10 ^ 8 ∧ hasNonBcd r = false ∧
        FlagsAre c.fl fl [(flZ, r == 0), (flV, hasNonBcd (rget c ra) || hasNonBcd (rget c rb)), (flDC, decide (10 ^ 8 ≤ x + y))] ∧
        exec (.fxDadc n rd ra rb) s = .next (s.withCore n (retired 1 c.pc { rset rd r c with fl := fl }))) ∧
    (∀ s : State, fxReady n (encR 3 rd.val ra.val rb.val 0 3) [rd, ra, rb] s.dev = true →
      let c := fxCore n [rd, ra, rb] s.dev
      let x := bcdValue (rget c ra)
      let y := bcdValue (rget c rb) + 0
      ∃ r fl : Word, bcdValue r = (if x < y then 10 ^ 8 + x - y else x - y) ∧ hasNonBcd r = false ∧
        FlagsAre c.fl fl [(flZ, r == 0), (flV, hasNonBcd (rget c ra) || hasNonBcd (rget c rb)), (flDC, decide (x < y))] ∧
        exec (.fxDsub n rd ra rb) s = .next (s.withCore n (retired 1 c.pc { rset rd r c with fl := fl }))) ∧
    (∀ s : State, fxReady n (encR 3 rd.val ra.val rb.val 0 4) [rd, ra, rb] s.dev = true →
      let c := fxCore n [rd, ra, rb] s.dev
      let x := bcdValue (rget c ra)
      let y := bcdValue (rget c rb) + (if flag c.fl flDC then 1 else 0)
      ∃ r fl : Word, bcdValue r = (if x < y then 10 ^ 8 + x - y else x - y) ∧ hasNonBcd r = false ∧
        FlagsAre c.fl fl [(flZ, r == 0), (flV, hasNonBcd (rget c ra) || hasNonBcd (rget c rb)), (flDC, decide (x < y))] ∧
        exec (.fxDsbc n rd ra rb) s = .next (s.withCore n (retired 1 c.pc { rset rd r c with fl := fl }))) ∧
    (∀ s : State, fxReady n (encR 3 rd.val ra.val 0 0 5) [rd, ra] s.dev = true →
      let c := fxCore n [rd, ra] s.dev
      let v := (List.range 8).foldl (fun acc k => acc + nibble (rget c ra) k * 10 ^ k) 0
      ∃ r fl : Word, bcdValue r = v % 10 ^ 8 ∧ hasNonBcd r = false ∧ FlagsAre c.fl fl [(flZ, r == 0), (flV, false), (flDC, decide (10 ^ 8 ≤ v))] ∧
        exec (.fxDadj n rd ra) s = .next (s.withCore n (retired 1 c.pc { rset rd r c with fl := fl }))) ∧
    (∀ s : State, fxReady n (encR 3 rd.val ra.val 0 0 6) [rd, ra] s.dev = true →
      let c := fxCore n [rd, ra] s.dev
      let v := (rget c ra).toNat
      ∃ r fl : Word, bcdValue r = v % 10 ^ 8 ∧ hasNonBcd r = false ∧ FlagsAre c.fl fl [(flZ, r == 0), (flV, false), (flDC, decide (10 ^ 8 ≤ v))] ∧
        exec (.fxDcvt n rd ra) s = .next (s.withCore n (retired 6 c.pc { rset rd r c with fl := fl })))

/-- R312, with the DLZ row of R311. -/
def Obligations.DecimalTextResults : Prop :=
  ∀ (n : CoreId) (rd ra : Reg) (s : State),
    (∀ (i : Instr) (fn low : Nat), (i = .fxDtxtl n rd ra ∧ fn = 7 ∧ low = 0) ∨ (i = .fxDtxth n rd ra ∧ fn = 8 ∧ low = 4) →
      fxReady n (encR 3 rd.val ra.val 0 0 fn) [rd, ra] s.dev = true →
      let c := fxCore n [rd, ra] s.dev
      ∃ r fl : Word, (∀ k, k < 4 → (r.toNat / 256 ^ k) % 256 =
          (if 9 < nibble (rget c ra) (low + 3 - k) then 0x3F else 0x30 + nibble (rget c ra) (low + 3 - k))) ∧
        FlagsAre c.fl fl [(flV, (List.range 4).any fun k => decide (9 < nibble (rget c ra) (low + k)))] ∧
        exec i s = .next (s.withCore n (retired 1 c.pc { rset rd r c with fl := fl }))) ∧
    (fxReady n (encR 3 rd.val ra.val 0 0 9) [rd, ra] s.dev = true →
      let c := fxCore n [rd, ra] s.dev
      ∃ (z : Nat) (fl : Word), z ≤ 8 ∧ (∀ k, k < z → nibble (rget c ra) (7 - k) = 0) ∧ (z < 8 → nibble (rget c ra) (7 - z) ≠ 0) ∧
        FlagsAre c.fl fl [(flV, hasNonBcd (rget c ra))] ∧
        exec (.fxDlz n rd ra) s = .next (s.withCore n (retired 1 c.pc { rset rd (BitVec.ofNat 32 z) c with fl := fl })))

/-- R313 to R315: the loads, what they read, and their return (R264). -/
def Obligations.LoadsCompleteAndLandOnReturn : Prop :=
  (∀ (n : CoreId) (rd ra : Reg) (mode : BitVec 2) (off : BitVec 14),
    (∀ (ecc : Ecc) (s : State),
      let w := encM 0x10 rd.val ra.val mode off
      let d := (s.withCore n (fxCore n [rd, ra] s.dev)).dev
      let addr := memAddr (rget d.cores[n] ra) mode off
      fxReady n w [rd, ra] s.dev = true → mode ≠ 3 → ¬(mode ≠ 0 ∧ rd = ra) → accessTrap d n addr 1 true false = none →
      let (bs, p, d1) := loadTarget n addr 1 [(0, ecc)] d
      exec (.fxLdb n rd ra mode off ecc) s = .next { s with
        dev := modifyCore n (fun c => retired 1 d.cores[n].pc
          (pushLoad { dests := [(rd, signExt32 8 (leNat bs))], poison := p, addr := addr } (writeback ra mode off c))) d1 }) ∧
    (∀ (ecc : Ecc) (s : State),
      let w := encM 0x11 rd.val ra.val mode off
      let d := (s.withCore n (fxCore n [rd, ra] s.dev)).dev
      let addr := memAddr (rget d.cores[n] ra) mode off
      fxReady n w [rd, ra] s.dev = true → mode ≠ 3 → ¬(mode ≠ 0 ∧ rd = ra) → accessTrap d n addr 1 true false = none →
      let (bs, p, d1) := loadTarget n addr 1 [(0, ecc)] d
      exec (.fxLdbu n rd ra mode off ecc) s = .next { s with
        dev := modifyCore n (fun c => retired 1 d.cores[n].pc
          (pushLoad { dests := [(rd, BitVec.ofNat 32 (leNat bs))], poison := p, addr := addr } (writeback ra mode off c))) d1 }) ∧
    (∀ (ecc : Ecc) (s : State),
      let w := encM 0x12 rd.val ra.val mode off
      let d := (s.withCore n (fxCore n [rd, ra] s.dev)).dev
      let addr := memAddr (rget d.cores[n] ra) mode off
      fxReady n w [rd, ra] s.dev = true → mode ≠ 3 → ¬(mode ≠ 0 ∧ rd = ra) → accessTrap d n addr 2 true false = none →
      let (bs, p, d1) := loadTarget n addr 2 [(0, ecc)] d
      exec (.fxLdh n rd ra mode off ecc) s = .next { s with
        dev := modifyCore n (fun c => retired 1 d.cores[n].pc
          (pushLoad { dests := [(rd, signExt32 16 (leNat bs))], poison := p, addr := addr } (writeback ra mode off c))) d1 }) ∧
    (∀ (ecc : Ecc) (s : State),
      let w := encM 0x13 rd.val ra.val mode off
      let d := (s.withCore n (fxCore n [rd, ra] s.dev)).dev
      let addr := memAddr (rget d.cores[n] ra) mode off
      fxReady n w [rd, ra] s.dev = true → mode ≠ 3 → ¬(mode ≠ 0 ∧ rd = ra) → accessTrap d n addr 2 true false = none →
      let (bs, p, d1) := loadTarget n addr 2 [(0, ecc)] d
      exec (.fxLdhu n rd ra mode off ecc) s = .next { s with
        dev := modifyCore n (fun c => retired 1 d.cores[n].pc
          (pushLoad { dests := [(rd, BitVec.ofNat 32 (leNat bs))], poison := p, addr := addr } (writeback ra mode off c))) d1 }) ∧
    (∀ (ecc : Ecc) (s : State),
      let w := encM 0x14 rd.val ra.val mode off
      let d := (s.withCore n (fxCore n [rd, ra] s.dev)).dev
      let addr := memAddr (rget d.cores[n] ra) mode off
      fxReady n w [rd, ra] s.dev = true → mode ≠ 3 → ¬(mode ≠ 0 ∧ rd = ra) → accessTrap d n addr 4 true false = none →
      let (bs, p, d1) := loadTarget n addr 4 [(0, ecc)] d
      exec (.fxLdw n rd ra mode off ecc) s = .next { s with
        dev := modifyCore n (fun c => retired 1 d.cores[n].pc
          (pushLoad { dests := [(rd, BitVec.ofNat 32 (leNat bs))], poison := p, addr := addr } (writeback ra mode off c))) d1 }) ∧
    (∀ (ecc0 ecc1 : Ecc) (s : State),
      let w := encM 0x15 rd.val ra.val mode off
      let d := (s.withCore n (fxCore n [rd, oddOf rd, ra] s.dev)).dev
      let addr := memAddr (rget d.cores[n] ra) mode off
      fxReady n w [rd, oddOf rd, ra] s.dev = true → mode ≠ 3 → ¬(mode ≠ 0 ∧ (rd = ra ∨ oddOf rd = ra)) → rd.val % 2 = 0 →
      accessTrap d n addr 8 true false = none →
      let (bs, p, d1) := loadTarget n addr 8 [(0, ecc0), (1, ecc1)] d
      exec (.fxLdd n rd ra mode off ecc0 ecc1) s = .next { s with
        dev := modifyCore n (fun c => retired 1 d.cores[n].pc
          (pushLoad
            { dests := [(rd, BitVec.ofNat 32 (leNat (bs.take 4))), (oddOf rd, BitVec.ofNat 32 (leNat (bs.drop 4)))], poison := p, addr := addr } (writeback ra mode off c))) d1 })) ∧
  (∀ (n : CoreId) (addr : Word) (size key : Nat) (d : Dev), coreTarget d n addr = .mem key → fxPlain n key size d = true →
    loadTarget n addr size [(0, .clean), (1, .clean)] d = (memGet d key size, false, d)) ∧
  (∀ (n : CoreId) (k : Nat) (l : CoreLoad) (s : State), s.dev.cores[n].loads[k]? = some l → l.poison = false →
    exec (.loadDataReturn n k) s = .next (s.withCore n (l.dests.foldl (fun c rv => rset rv.1 rv.2 c)
      { s.dev.cores[n] with loads := s.dev.cores[n].loads.eraseIdx k })))

/-- R313 to R315, R78 and FENCE.W of R84: a store, its place in the buffer and the byte frame of its way to memory. -/
def Obligations.StoresCompleteIntoTheWriteBuffer : Prop :=
  (∀ (n : CoreId) (rs ra : Reg) (mode : BitVec 2) (off : BitVec 14),
    (∀ (ecc : Ecc) (s : State),
      let w := encM 0x18 rs.val ra.val mode off
      let d := (s.withCore n (fxCore n [rs, ra] s.dev)).dev
      let addr := memAddr (rget d.cores[n] ra) mode off
      ∀ key, fxReady n w [rs, ra] s.dev = true → mode ≠ 3 → accessTrap d n addr 1 false true = none → coreTarget d n addr = .mem key →
      exec (.fxStb n rs ra mode off ecc) s = .next { s with
        dev := modifyCore n (fun c => retired 1 d.cores[n].pc (writeback ra mode off c)) (bufferStore n
          { addr := addr, key := some key, bytes := leBytes 1 (rget d.cores[n] rs).toNat, ecc := ecc } d) }) ∧
    (∀ (ecc : Ecc) (s : State),
      let w := encM 0x19 rs.val ra.val mode off
      let d := (s.withCore n (fxCore n [rs, ra] s.dev)).dev
      let addr := memAddr (rget d.cores[n] ra) mode off
      ∀ key, fxReady n w [rs, ra] s.dev = true → mode ≠ 3 → accessTrap d n addr 2 false true = none → coreTarget d n addr = .mem key →
      exec (.fxSth n rs ra mode off ecc) s = .next { s with
        dev := modifyCore n (fun c => retired 1 d.cores[n].pc (writeback ra mode off c)) (bufferStore n
          { addr := addr, key := some key, bytes := leBytes 2 (rget d.cores[n] rs).toNat, ecc := ecc } d) }) ∧
    (∀ (s : State),
      let w := encM 0x1A rs.val ra.val mode off
      let d := (s.withCore n (fxCore n [rs, ra] s.dev)).dev
      let addr := memAddr (rget d.cores[n] ra) mode off
      ∀ key, fxReady n w [rs, ra] s.dev = true → mode ≠ 3 → accessTrap d n addr 4 false true = none → coreTarget d n addr = .mem key →
      exec (.fxStw n rs ra mode off) s = .next { s with
        dev := modifyCore n (fun c => retired 1 d.cores[n].pc (writeback ra mode off c)) (bufferStore n
          { addr := addr, key := some key, bytes := leBytes 4 (rget d.cores[n] rs).toNat, ecc := .clean } d) }) ∧
    (∀ s : State,
      let w := encM 0x1B rs.val ra.val mode off
      let d := (s.withCore n (fxCore n [rs, oddOf rs, ra] s.dev)).dev
      let addr := memAddr (rget d.cores[n] ra) mode off
      ∀ key, fxReady n w [rs, oddOf rs, ra] s.dev = true → mode ≠ 3 → rs.val % 2 = 0 → accessTrap d n addr 8 false true = none →
      coreTarget d n addr = .mem key →
      exec (.fxStd n rs ra mode off) s = .next { s with
        dev := modifyCore n (fun c => retired 1 d.cores[n].pc (writeback ra mode off c)) (bufferStore n
          { addr := addr, key := some key, bytes := leBytes 4 (rget d.cores[n] rs).toNat ++ leBytes 4 (rget d.cores[n] (oddOf rs)).toNat } d) })) ∧
  (∀ (n : CoreId) (e : CoreStore) (d : Dev), d.cores[n].stores.length < 16 →
    bufferStore n e d = modifyCore n (fun c => { c with stores := c.stores ++ [e] }) d) ∧
  (∀ (n : CoreId) (s : State), fxReady n (encS 0 0 0 2) [] s.dev = true → (fxCore n [] s.dev).stores = [] →
    exec (.fxFenceW n) s = .next (s.withCore n (retired 1 (fxCore n [] s.dev).pc (fxCore n [] s.dev)))) ∧
  (∀ (n : CoreId) (e : CoreStore) (key : Nat) (s : State), fxReady n (encS 0 0 0 2) [] s.dev = true →
    (fxCore n [] s.dev).stores = [e] → e.key = some key → key % 4 = 0 → e.bytes.length = 4 → key + 4 ≤ dramBase → s.MemOk →
    ∃ t, exec (.fxFenceW n) s = .next t ∧ t.dev.cores[n].stores = [] ∧ memGet t.dev key 4 = e.bytes ∧
      (∀ a, (a < key ∨ key + 4 ≤ a) → cellGet t.dev.mem a = cellGet s.dev.mem a))

/-- R288 and R316: the atomics and their byte frame. -/
def Obligations.AtomicsReadAndWriteOneWord : Prop :=
  ∀ (n : CoreId) (rd rb ra : Reg) (s : State) (key : Nat),
    let d := (s.withCore n (fxCore n [rd, rb, ra] s.dev)).dev
    let c := d.cores[n]
    let addr := rget c ra
    let old := BitVec.ofNat 32 (leNat (memGet d key 4))
    accessTrap d n addr 4 true true = none → coreTarget d n addr = .mem key → fxPlain n key 4 d = true → s.dev.integ.writeBacks = [] →
    s.MemOk →
    (fxReady n (encR 0x1C rd.val ra.val rb.val 0 1) [rd, rb, ra] s.dev = true →
      ∃ t, exec (.fxSwp n rd rb ra .clean) s = .next t ∧ memGet t.dev key 4 = leBytes 4 (rget c rb).toNat ∧
        (∀ a, (a < key ∨ key + 4 ≤ a) → cellGet t.dev.mem a = cellGet s.dev.mem a) ∧
        t.dev.cores[n] = retired 1 c.pc (pushLoad { dests := [(rd, old)], poison := false, addr := addr } c)) ∧
    (fxReady n (encR 0x1C rd.val ra.val rb.val 0 2) [rd, rb, ra] s.dev = true →
      ∃ t, exec (.fxCas n rd rb ra .clean) s = .next t ∧
        memGet t.dev key 4 = (if old = rget c rd then leBytes 4 (rget c rb).toNat else memGet d key 4) ∧
        (∀ a, (a < key ∨ key + 4 ≤ a) → cellGet t.dev.mem a = cellGet s.dev.mem a) ∧
        t.dev.cores[n] = retired 1 c.pc
          (let c1 := pushLoad { dests := [(rd, old)], poison := false, addr := addr } c
           { c1 with fl := putBit c1.fl flZ (decide (old = rget c rd)) }))

/-- R303 row by row, with the targets of R317. -/
def Obligations.BranchConditionsAndTargets : Prop :=
  (∀ fl : Word, condHolds 0 fl = (fl.getLsbD 0) ∧ condHolds 1 fl = (!fl.getLsbD 0) ∧ condHolds 2 fl = (fl.getLsbD 1 != fl.getLsbD 3) ∧ condHolds 3 fl = (fl.getLsbD 1 == fl.getLsbD 3) ∧ condHolds 4 fl = ((fl.getLsbD 0 || fl.getLsbD 1 != fl.getLsbD 3)) ∧ condHolds 5 fl = ((!fl.getLsbD 0 && fl.getLsbD 1 == fl.getLsbD 3)) ∧ condHolds 6 fl = (fl.getLsbD 2) ∧ condHolds 7 fl = (!fl.getLsbD 2) ∧ condHolds 8 fl = ((fl.getLsbD 2 || fl.getLsbD 0)) ∧ condHolds 9 fl = ((!fl.getLsbD 2 && !fl.getLsbD 0)) ∧ condHolds 10 fl = (fl.getLsbD 1) ∧ condHolds 11 fl = (!fl.getLsbD 1) ∧ condHolds 12 fl = (fl.getLsbD 3) ∧ condHolds 13 fl = (!fl.getLsbD 3) ∧ condHolds 14 fl = (fl.getLsbD 5) ∧ condHolds 15 fl = (true)) ∧
  (∀ (n : CoreId) (cond : BitVec 4) (off : BitVec 22), FxCoreStep (.fxBcc n cond off) n (encB cond off) [] fun c =>
    if condHolds cond c.fl then { c with pc := c.pc + (off.signExtend 32 <<< 2), cycle := c.cycle + 2 } else retired 1 c.pc c) ∧
  (∀ (n : CoreId) (off : BitVec 26), FxCoreStep (.fxJ n off) n (encJ 0x21 off) [] fun c =>
    { c with pc := c.pc + (off.signExtend 32 <<< 2), cycle := c.cycle + 2 }) ∧
  (∀ (n : CoreId) (off : BitVec 26), FxCoreStep (.fxCall n off) n (encJ 0x22 off) [30] fun c =>
    { rset 30 (c.pc + 4) c with pc := c.pc + (off.signExtend 32 <<< 2), cycle := c.cycle + 2 }) ∧
  (∀ (n : CoreId) (ra : Reg), FxCoreStep (.fxJr n ra) n (encR 0x23 0 ra.val 0 0 1) [ra] fun c =>
    { c with pc := rget c ra &&& 0xFFFFFFFC, cycle := c.cycle + 2 }) ∧
  (∀ (n : CoreId) (ra : Reg), FxCoreStep (.fxCallr n ra) n (encR 0x23 0 ra.val 0 0 2) [ra, 30] fun c =>
    { rset 30 (c.pc + 4) c with pc := rget c ra &&& 0xFFFFFFFC, cycle := c.cycle + 2 })

/-- R290 as the two ways its loop over k ends. -/
def Obligations.LoopCheckClosesInnermostFirst : Prop :=
  ∀ (a : Word) (c : FxCore),
    let ends := fun (k : Fin 4) => c.loops[k].count ≠ 0 ∧ c.loops[k].stop = a
    let closed := fun (k : Fin 4) (j : Fin 4) => if k < j ∧ ends j then { c.loops[j] with count := 0 } else c.loops[j]
    (∀ k : Fin 4, (∀ j, k < j → ends j → c.loops[j].count = 1) → ends k → c.loops[k].count ≠ 1 →
      retireSeq a c = { c with
        pc := c.loops[k].start
        loops := Vector.ofFn fun j => if j = k then { c.loops[k] with count := c.loops[k].count - 1 } else closed k j }) ∧
    ((∀ j, ends j → c.loops[j].count = 1) →
      retireSeq a c = { c with
        pc := a + 4
        loops := Vector.ofFn fun j => if ends j then { c.loops[j] with count := 0 } else c.loops[j] })

/-- R318. -/
def Obligations.LoopInstructionsSetTheirLevel : Prop :=
  ∀ (n : CoreId) (k : LoopLevel) (len : BitVec 11),
    let after := fun (count : Word) (c : FxCore) =>
      let last := c.pc + BitVec.ofNat 32 (4 * (len.toNat + 1))
      let c1 := { c with loops := c.loops.set k { start := c.pc + 4, stop := last, count := count } }
      if count = 0 then { c1 with pc := last + 4, cycle := c.cycle + 1 } else retired 1 c.pc c1
    (∀ ra : Reg, FxCoreStep (.fxLoop n k len ra) n (encL 0x28 k.val len (ra.val * 256)) [ra] fun c => after (rget c ra) c) ∧
    (∀ count : BitVec 13, FxCoreStep (.fxLoopi n k len count) n (encL 0x29 k.val len count.toNat) [] fun c => after (count.setWidth 32) c)

/-- R292, R293 and R295: the latched count and the retirement of a repetition. -/
def Obligations.RepeatPrefixLatchesAndCounts : Prop :=
  (∀ (n : CoreId) (interruptible : Bool) (next : Word) (s : State),
    let w : Word := if interruptible then 0xA8000001 else 0xA8000000
    let i : Instr := if interruptible then .fxRepi n next else .fxRep n next
    let c := fxCore n [] s.dev
    let count := if ctl c ctlRPEND then c.erc else c.rc
    let c1 := { c with ctl := putBit c.ctl ctlRPEND false }
    fxReady n w [] s.dev = true → s.dev.cores[n].rep = none → CoreId.isSupervisor n = true → userMode c = false →
    fxUnrepeatable next = false → (interruptible = true ∨ count.toNat ≤ 4096) →
    exec i s = .next (s.withCore n
      (if count = 0 then { retireSeq (c.pc + 4) c1 with cycle := c.cycle + 1 }
       else { c1 with
        pc := c.pc + 4, cycle := c.cycle + 1
        rep := some { interruptible := interruptible, prefixAt := c.pc, word := next, left := count.toNat } }))) ∧
  (∀ (a : Word) (c : FxCore) (r : CoreRepeat), c.rep = some r →
    retire a c = if r.left ≤ 1 then retireSeq a { c with rep := none } else { c with rep := some { r with left := r.left - 1 } })

/-- R267 to R270 and R320: the special registers. -/
def Obligations.SpecialRegistersReadAndWrite : Prop :=
  (∀ (n : CoreId) (rd ra : Reg) (spec : BitVec 6) (s : State),
    let k := spec.toNat
    (fxReady n (encS rd.val 0 spec 0) [rd] s.dev = true → specListed n k = true → k ≠ 8 →
      (specKernel k = false ∨ userMode (fxCore n [rd] s.dev) = false) →
      exec (.fxMfs n rd spec) s = .next (s.withCore n (retired 1 (fxCore n [rd] s.dev).pc
        (rset rd (specRead (s.withCore n (fxCore n [rd] s.dev)).dev n k) (fxCore n [rd] s.dev))))) ∧
    (fxReady n (encS 0 ra.val spec 1) [ra] s.dev = true → specListed n k = true → k ∉ [6, 0x20, 0x21, 0x24, 0x27] →
      (specKernel k = false ∨ k = 1 ∨ userMode (fxCore n [ra] s.dev) = false) →
      exec (.fxMts n spec ra) s = .next (s.withCore n (retired 1 (fxCore n [ra] s.dev).pc
        (specWrite k (rget (fxCore n [ra] s.dev) ra) (fxCore n [ra] s.dev)))))) ∧
  (∀ (c : FxCore) (v : Word) (j : Nat), userMode c = true → j < 32 →
    (specWrite 1 v c).ctl.getLsbD j = if j = 5 then v.getLsbD 5 else c.ctl.getLsbD j) ∧
  (∀ (n : CoreId) (v : Word) (s : State) (k : Nat), userMode s.dev.cores[n] = false → specListed n k = true → k ∉ [6, 8, 0x20, 0x21, 0x24, 0x27] →
    let kept : Word := if k = 0 then 0x3F else if k = 1 then 0x7F else if k = 3 then 0x8000FFFF else if k = 5 then 0xFFFFFC00
      else if 0x10 ≤ k ∧ k < 0x18 then 0xFFFFFFFC else 0xFFFFFFFF
    let t := s.withCore n (specWrite k v s.dev.cores[n])
    specRead t.dev n k = v &&& kept ∧ ∀ j, j ≠ k → j ≠ 6 → specListed n j = true → specRead t.dev n j = specRead s.dev n j) ∧
  (∀ (n : CoreId) (d : Dev), specRead d n 0x20 = BitVec.ofNat 32 d.tm ∧ specRead d n 0x21 = BitVec.ofNat 32 (d.tm / 2 ^ 32) ∧
    specRead d n 0x24 = BitVec.ofNat 32 (n.val + if 32 ≤ n.val then 64 else 0))

/-- R84, R273, R275 and R320.  The level conditions that ERET clears are the model's choice (log entry 10). -/
def Obligations.FencesEretAndWaitComplete : Prop :=
  (∀ (n : CoreId) (i : Instr) (fn : Nat) (s : State), (i = .fxFenceR n ∧ fn = 3) ∨ (i = .fxFenceRw n ∧ fn = 4 ∧ s.dev.cores[n].stores = []) →
    fxReady n (encS 0 0 0 fn) [] s.dev = true → s.dev.cores[n].loads.all (fun l => !l.poison) = true →
    exec i s = .next (s.withCore n (retired 1 (fxCore n [] s.dev).pc (returnLoads (fun _ => true) (fxCore n [] s.dev)).2)) ∧
      (returnLoads (fun _ => true) (fxCore n [] s.dev)).2.loads = []) ∧
  (∀ (n : CoreId) (s : State), fxReady n (encS 0 0 0 5) [] s.dev = true → s.dev.cores[n].stores = [] →
    (∀ l ∈ s.dev.lineBufs, l.2.1 < 2 ^ 40) →
    ∃ t, exec (.fxFenceI n) s = .next t ∧ t.dev.cores[n] = retired 1 (fxCore n [] s.dev).pc (fxCore n [] s.dev) ∧ t.dev.mem = s.dev.mem ∧
      (∀ l ∈ t.dev.lineBufs, l ∈ s.dev.lineBufs ∧ (l.1 = clusterOf n →
        ∃ key, coreTarget s.dev n s.dev.cores[n].pc = .mem key ∧ dramBase ≤ key ∧ l.2.1 = (key - dramBase) / 64))) ∧
  (∀ (n : CoreId) (s : State), fxReady n (encS 0 0 0 6) [] s.dev = true → userMode s.dev.cores[n] = false →
    let c := fxCore n [] s.dev
    ∃ c' : FxCore, exec (.fxEret n) s = .next (s.withCore n c') ∧ c'.pc = c.epc ∧ ctl c' ctlUM = ctl c ctlPUM ∧ ctl c' ctlIE = ctl c ctlPIE ∧
      ctl c' ctlEXL = false ∧ ctl c' ctlRPEND = ctl c ctlRPEND ∧ ctl c' ctlDZT = ctl c ctlDZT ∧ c'.g = c.g ∧ c'.fl = c.fl ∧ c'.loops = c.loops ∧
      c'.epc = c.epc ∧ c'.ecause = c.ecause ∧ c'.eval = c.eval) ∧
  (∀ (n : CoreId) (s : State), fxReady n (encS 0 0 0 7) [] s.dev = true →
    exec (.fxWait n) s = .next (s.withCore n (retired 1 (fxCore n [] s.dev).pc
      (if enabledPending (s.withCore n (fxCore n [] s.dev)).dev n = 0 then { fxCore n [] s.dev with run := .waiting } else fxCore n [] s.dev))))

/-- R273 and R276: taking an exception, once for each code that an instruction of kernel mode raises. -/
def Obligations.ExceptionsEnterByTheirCause : Prop :=
  ∀ (n : CoreId),
    (∀ imm : BitVec 16, FxRaises (.fxSys n imm) n (encI 0x31 0 0 imm) [] (fun _ => true) 0x09 0 (fun _ => imm.setWidth 32)) ∧
    (∀ imm : BitVec 16, FxRaises (.fxBrk n imm) n (encI 0x32 0 0 imm) [] (fun _ => true) 0x0A 0 (fun _ => imm.setWidth 32)) ∧
    (∀ w : Word, fxDefined w = false → FxRaises (.undefinedInstruction n w) n w [] (fun _ => true) 0x01 0 (fun _ => w)) ∧
    (∀ next : Word, CoreId.isSupervisor n = false → FxRaises (.fxRep n next) n 0xA8000000 [] (fun _ => true) 0x01 0 (fun _ => 0xA8000000) ∧
      FxRaises (.fxRepi n next) n 0xA8000001 [] (fun _ => true) 0x01 0 (fun _ => 0xA8000001)) ∧
    (∀ next : Word, CoreId.isSupervisor n = true → fxUnrepeatable next = true →
      FxRaises (.fxRep n next) n 0xA8000000 [] (fun _ => true) 0x01 0 (fun _ => 0xA8000000)) ∧
    (∀ next : Word, CoreId.isSupervisor n = true → fxUnrepeatable next = false →
      FxRaises (.fxRep n next) n 0xA8000000 [] (fun c => decide (4096 < (if ctl c ctlRPEND then c.erc else c.rc).toNat)) 0x0B 0
        (fun c => if ctl c ctlRPEND then c.erc else c.rc)) ∧
    (∀ (spec : BitVec 6) (ra : Reg), spec.toNat ∈ [6, 0x20, 0x21, 0x24, 0x27] →
      FxRaises (.fxMts n spec ra) n (encS 0 ra.val spec 1) [ra] (fun _ => true) 0x01 0 (fun _ => encS 0 ra.val spec 1)) ∧
    (∀ rd : Reg, FxRaises (.fxMfs n rd 8) n (encS rd.val 0 8 0) [rd] (fun _ => true) 0x01 0 (fun _ => encS rd.val 0 8 0)) ∧
    (∀ ra rb : Reg, FxRaises (.fxDiv n ra rb) n (encR 2 0 ra.val rb.val 0 3) [ra, rb]
      (fun c => rget c rb == 0 && ctl c ctlDZT && c.divide.isNone) 0x08 0 (fun c => rget c ra)) ∧
    (∀ (rd ra : Reg) (off : BitVec 14) (ecc : Ecc), FxRaises (.fxLdw n rd ra 0 off ecc) n (encM 0x14 rd.val ra.val 0 off) [rd, ra]
      (fun c => decide ((memAddr (rget c ra) 0 off).toNat % 4 ≠ 0)) 0x06 0 (fun c => memAddr (rget c ra) 0 off)) ∧
    (∀ (rd ra : Reg) (off : BitVec 14) (ecc : Ecc), FxRaises (.fxLdw n rd ra 0 off ecc) n (encM 0x14 rd.val ra.val 0 off) [rd, ra]
      (fun c => decide ((memAddr (rget c ra) 0 off).toNat % 4 = 0 ∧ 0x20000000 ≤ (memAddr (rget c ra) 0 off).toNat ∧
        (memAddr (rget c ra) 0 off).toNat < 0x80000000)) 0x07 4 (fun c => memAddr (rget c ra) 0 off))

/-- R267, R272, R273 and R276: PRIVILEGE. -/
def Obligations.UserModeMeetsPrivilege : Prop :=
  ∀ (n : CoreId) (i : Instr) (w : Word) (uses : List Reg) (s : State),
    ((i = .fxEret n ∧ w = encS 0 0 0 6 ∧ uses = []) ∨
      (∃ next, (i = .fxRep n next ∧ w = 0xA8000000 ∨ i = .fxRepi n next ∧ w = 0xA8000001) ∧ uses = [] ∧ CoreId.isSupervisor n = true) ∨
      (∃ rd spec, i = .fxMfs n rd spec ∧ w = encS rd.val 0 spec 0 ∧ uses = [rd] ∧ specListed n spec.toNat = true ∧ specKernel spec.toNat = true) ∨
      (∃ spec ra, i = .fxMts n spec ra ∧ w = encS 0 ra.val spec 1 ∧ uses = [ra] ∧ specListed n spec.toNat = true ∧
        specKernel spec.toNat = true ∧ spec.toNat ≠ 1)) →
    fxReady n w uses s.dev = true → userMode s.dev.cores[n] = true → callOn s.dev n = none → ctl s.dev.cores[n] ctlEXL = false →
    s.dev.cores[n].rep = none → s.dev.cores[n].loads.all (fun l => !l.poison) = true →
    let c := (returnLoads (fun _ => true) (fxCore n uses s.dev)).2
    ∃ c' : FxCore, exec i s = .next (s.withCore n c') ∧ c'.ecause = 0x02 ∧ c'.epc = c.pc ∧ c'.eval = w ∧ c'.pc = c.vbr ∧
      ctl c' ctlPUM = true ∧ ctl c' ctlUM = false ∧ ctl c' ctlEXL = true ∧ c'.vbr = c.vbr ∧ c'.imask = c.imask ∧ c'.rc = c.rc ∧ c'.tcl = c.tcl ∧
      c'.tch = c.tch ∧ c'.dab0 = c.dab0 ∧ c'.dab1 = c.dab1 ∧ c'.dwin = c.dwin ∧ c'.cwin = c.cwin ∧ c'.g = c.g

/-- R271, R273, R278, R283 and R284: what happens to a core from outside its instructions. -/
def Obligations.CoreEventsChangeTheirCore : Prop :=
  (∀ (n : CoreId) (s : State) (src : Nat), coreIssues s.dev n = true → ctl s.dev.cores[n] ctlIE = true → ctl s.dev.cores[n] ctlEXL = false →
    s.dev.cores[n].rep = none → s.dev.cores[n].loads.all (fun l => !l.poison) = true → src < 8 → (enabledPending s.dev n).getLsbD src = true →
    (∀ k, k < src → (enabledPending s.dev n).getLsbD k = false) →
    let c := (returnLoads (fun _ => true) s.dev.cores[n]).2
    ∃ c' : FxCore, exec (.interruptTaken n) s = .next (s.withCore n c') ∧ c'.ecause = BitVec.ofNat 32 (0x20 + src) ∧ c'.epc = c.pc ∧
      c'.eval = 0 ∧ c'.pc = c.vbr + 0x100 ∧ ctl c' ctlIE = false ∧ ctl c' ctlPIE = true ∧ ctl c' ctlUM = false ∧ ctl c' ctlPUM = ctl c ctlUM ∧
      ctl c' ctlEXL = true ∧ ctl c' ctlRPEND = false ∧ c'.g = c.g ∧ c'.fl = c.fl) ∧
  (∀ (n : CoreId) (s : State) (key : Nat) (w : CodeWindow), coreIssues s.dev n = true → coreTarget s.dev n s.dev.cores[n].pc = .mem key →
    dramBase ≤ key → codeWindow s.dev.cores[n] s.dev.cores[n].pc = some w → anyPoison s.dev (key / 64 * 64) 64 = false →
    checkWordAt s.dev n w (s.dev.cores[n].pc.toNat / 64 * 64) = some (crc32c (memGet s.dev (key / 64 * 64) 64)) →
    ∃ t, exec (.lineFillDone n 0) s = .next t ∧ lineBuffered t.dev n ((key - dramBase) / 64) = true ∧ t.dev.cores = s.dev.cores ∧
      t.dev.mem = s.dev.mem) ∧
  (∀ (n : CoreId) (k : Nat) (st : CoreStore) (s : State), s.dev.cores[n].stores[k]? = some st →
    ∃ t, exec (.storeRefused n k) s = .next t ∧ t.dev.cores[n].stores = s.dev.cores[n].stores.eraseIdx k ∧ t.dev.cores[n].serr = st.addr ∧
      (ipend t.dev n).getLsbD 1 = true ∧ t.dev.mem = s.dev.mem) ∧
  (∀ (n : CoreId) (s : State), s.dev.tm < 2 ^ 64 → ∃ t, exec (.timerCompare n) s = .next t ∧ (ipend t.dev n).getLsbD 2 = true ∧
    s.dev.tm ≤ t.dev.tm ∧ t.dev.cores = s.dev.cores) ∧
  (∀ (n target : CoreId) (v : Word) (s : State), coreIssues s.dev n = true → userMode s.dev.cores[n] = false →
    coreExists s.dev.variant target = true →
    ∃ t, exec (.mboxPost n (BitVec.ofNat 64 (target.val * 2 ^ 32 + v.toNat))) s = .next t ∧ t.dev.cores[target].mboxIn = v ∧
      (ipend t.dev target).getLsbD 3 = true ∧ ∀ m : CoreId, m ≠ target → t.dev.cores[m] = s.dev.cores[m])

/-- R245 for what matches, and R246 for the winner. -/
def Obligations.EddySearchPicksHighestThenLowest : Prop :=
  ∀ (d : Dev) (p mask : Nat) (key : BitVec 128), mapWf d.eddy.entries = true → (∀ ae ∈ d.eddy.entries, ae.2.rewriting = false) →
    let isMatch := fun (a : Nat) (e : EddyEntry) =>
      (a, e) ∈ d.eddy.entries ∧ e.valid = true ∧ inPartition d p a = true ∧ (e.key ^^^ key) &&& eddyMask d mask = 0
    (eddyFind d p mask key = none ↔ ∀ a e, ¬isMatch a e) ∧
    (∀ h, eddyFind d p mask key = some h → isMatch h.addr h.entry ∧
      (∀ a e, isMatch a e → a ≠ h.addr → e.prio < h.entry.prio ∨ (e.prio = h.entry.prio ∧ h.addr < a)) ∧
      (h.multi = true ↔ ∃ a e, isMatch a e ∧ a ≠ h.addr))

/-- R257 and R258, with the update steps of R250. -/
def Obligations.EddyPortOperationsComplete : Prop :=
  (∀ (n : CoreId) (cmd : Nat) (s : State), coreExists s.dev.variant n = true → s.dev.cores[n].run = .running →
    s.dev.cores[n].eddy.pending = none → s.dev.cores[n].eddy.part ≠ 1 → ownsPart s.dev n s.dev.cores[n].eddy.part.toNat = true →
    let port := s.dev.cores[n].eddy
    let p := port.part.toNat
    let a := bits cmd 31 16
    let prio := BitVec.ofNat 8 (bits cmd 15 8)
    (∀ x, partFree s.dev p = some x → ∃ t, exec (.eddyInsert n cmd) s = .next t ∧
      t.dev.eddy.entries = mapSet s.dev.eddy.entries x { key := port.key, prio := prio, valid := true, data := port.data } ∧
      t.dev.cores[n].eddy.result = 0 ∧
      t.dev.cores[n].eddy.pending = some { result := BitVec.ofNat 32 (x * 65536) }) ∧
    (inPartition s.dev p a = true →
      (∃ t, exec (.eddyWrite n cmd) s = .next t ∧ t.dev.mem = s.dev.mem ∧
        t.dev.eddy.entries = mapSet s.dev.eddy.entries a { key := port.key, prio := prio, valid := true, data := port.data } ∧
        t.dev.cores[n].eddy.pending = some { result := BitVec.ofNat 32 (a * 65536) }) ∧
      (∃ t, exec (.eddyInvalidate n cmd) s = .next t ∧ t.dev.mem = s.dev.mem ∧
        t.dev.eddy.entries = mapSet s.dev.eddy.entries a { eddyEntry s.dev a with valid := false, rewriting := false } ∧
        t.dev.cores[n].eddy.pending = some { result := BitVec.ofNat 32 (a * 65536) }) ∧
      (∃ t, exec (.eddySetdata n cmd) s = .next t ∧ t.dev.mem = s.dev.mem ∧
        t.dev.eddy.entries = mapSet s.dev.eddy.entries a { eddyEntry s.dev a with data := port.data, poison := false } ∧
        t.dev.cores[n].eddy.pending = some { result := BitVec.ofNat 32 (a * 65536) }) ∧
      ((eddyEntry s.dev a).poison = false → ∃ t, exec (.eddyRead n cmd) s = .next t ∧ t.dev.eddy = s.dev.eddy ∧
        t.dev.cores[n].eddy.pending = some { key := some (eddyEntry s.dev a).key, data := some (eddyEntry s.dev a).data
                                             result := BitVec.ofNat 32 (a * 65536 + (eddyEntry s.dev a).prio.toNat * 256 +
                                               if (eddyEntry s.dev a).valid then 2 else 0) })) ∧
    (∀ h, p ≠ 0 → eddyFind s.dev p (bits cmd 7 4) port.key = some h → h.entry.poison = false →
      ∃ t, exec (.eddySearch n cmd []) s = .next t ∧ t.dev.eddy = s.dev.eddy ∧
        t.dev.cores[n].eddy.pending = some { data := some h.entry.data
                                             result := BitVec.ofNat 32 (h.addr * 65536 + h.entry.prio.toNat * 256 +
                                               (if h.multi then 4 else 0) + 2) })) ∧
  (∀ (n : CoreId) (r : EddyPending) (s : State), s.dev.cores[n].eddy.pending = some r →
    exec (.eddyOperationDone n) s = .next (s.withCore n { s.dev.cores[n] with
      eddy := { s.dev.cores[n].eddy with
        key := r.key.getD s.dev.cores[n].eddy.key
        data := r.data.getD s.dev.cores[n].eddy.data
        result := r.result ||| 1
        pending := none } }))

/-- R260: parity. -/
def Obligations.EddyParityFailureAndRewrite : Prop :=
  (∀ (now a : Nat) (s : State), (eddyEntry s.dev a).valid = true →
    ∃ t, exec (.eddyParityScan now [a]) s = .next t ∧
      t.dev.eddy.entries = mapSet s.dev.eddy.entries a { eddyEntry s.dev a with
        valid := false, rewriting := inPartition s.dev 0 a || inPartition s.dev 1 a } ∧
      objNum t.dev 0x600006 = objNum s.dev 0x600006 + 1 ∧ t.dev.mem = s.dev.mem) ∧
  (∀ (now a : Nat) (s : State), (eddyEntry s.dev a).rewriting = true →
    ∃ t, exec (.eddyEntryRewrite a now) s = .next t ∧
      t.dev.eddy.entries = mapSet s.dev.eddy.entries a { eddyEntry s.dev a with valid := true, rewriting := false } ∧ t.dev.mem = s.dev.mem)

/-- R224, R225, R227 and R230: the decoder's promises about blocks. -/
def Obligations.RiffleBlocksDecodeToTheirLength : Prop :=
  (∀ (fuel : Nat) (bs : Bytes) (pos : Nat) (rev : Bytes) (want room : Nat) (out : Bytes) (pos' term : Nat),
    rev.length ≤ want → want ≤ 65536 → riffleTokens fuel bs pos rev rev.length want room = .good out pos' term →
    out.length = want ∧ (term = 0xFD ∨ term = 0xFE ∨ term = 0xFF) ∧ (term = 0xFE → want = 65536)) ∧
  (∀ bs : Bytes, 1 ≤ bs.length → bs.length ≤ 65536 →
    let h := leBytes 3 (bs.length % 65536 + 65536)
    let r := riffleDecode (h ++ [crc8 h] ++ bs ++ [0xFF]) false none
    r.code = 0 ∧ r.out = bs ∧ r.consumed = bs.length + 5) ∧
  (∀ bs : Bytes, bs.length < 4 → (riffleDecode bs false none).code = 4 ∧ (riffleDecode bs false none).out = []) ∧
  (∀ b0 b1 b2 b3 : Byte, ∀ bs : Bytes, (crc8 [b0, b1, b2] ≠ b3 ∨ 2 ≤ b2.toNat) →
    (riffleDecode (b0 :: b1 :: b2 :: b3 :: bs) false none).code = 5 ∧ (riffleDecode (b0 :: b1 :: b2 :: b3 :: bs) false none).block = 0 ∧
      (riffleDecode (b0 :: b1 :: b2 :: b3 :: bs) false none).out = [])

/-- R239 to R241. -/
def Obligations.RiffleDescriptorsQueueAndComplete : Prop :=
  (∀ (k : Fin 2) (n : CoreId) (addr64 : Nat) (cmd : Instr) (op : Nat) (s : State),
    (cmd = .riffleDecompress k n addr64 ∧ op = 0) ∨ (cmd = .riffleCompress k n addr64 ∧ op = 1) ∨ (cmd = .riffleCheck k n addr64 ∧ op = 2) →
    s.dev.variant ≠ .vl7e → coreExists s.dev.variant n = true → s.dev.cores[n].run = .running → (takeDescriptor s.dev n addr64).op = op →
    s.dev.riffle[k].jobs.length < 64 →
    exec cmd s = .next { s with dev := { s.dev with
      riffle := s.dev.riffle.set k { s.dev.riffle[k] with jobs := s.dev.riffle[k].jobs ++ [takeDescriptor s.dev n addr64] } } }) ∧
  (∀ (k : Fin 2) (j : RiffleJob) (rest : List RiffleJob) (desc : Nat) (s : State), s.dev.riffle[k].jobs = j :: rest → j.desc = some desc →
    desc % 64 = 0 → desc + 64 ≤ dramBase → (∀ out, j.dst = some out → out + 2 ^ 23 ≤ dramBase) → s.MemOk →
    let d0 := modifyRiffle k (fun u => { u with jobs := rest }) s.dev
    ∃ t, exec (.riffleDescriptorDone k) s = .next t ∧ t.dev.riffle[k].jobs = rest ∧ t.dev.riffle[1 - k].jobs = s.dev.riffle[1 - k].jobs ∧
      memGet t.dev (desc + 32) 4 = leBytes 4 ((runJob d0 j).status + 2 ^ 31) ∧ (t.dev.cores[j.core].latched).getLsbD 4 = true)

/-- R385, field by field, with no two addresses at one place. -/
def Obligations.DramAddressMapping : Prop :=
  ∀ (cfg : Nat × Nat × Nat × Nat) (a : Nat),
    ((cfg.1, cfg.2.1, cfg.2.2.1) ∈ [(8, 16, 1), (8, 16, 2), (8, 32, 1), (4, 16, 1)]) → a < dramCapacity cfg →
    let group := bits a 9 8 + 4 * bits a 16 16
    let rank := if cfg.2.2.1 = 2 then bits a 35 35 else 0
    a < (if (cfg.1, cfg.2.1, cfg.2.2.1) = (8, 16, 1) then 2 ^ 35 else 2 ^ 36) ∧
    (subOf a).val = 2 * bits a 7 7 + bits a 6 6 ∧ bankOf cfg a = rank * 32 + group * 4 + bits a 18 17 ∧
    dramRow cfg a = (if cfg.2.1 = 16 ∧ cfg.1 = 8 then bits a 34 19 else bits a 35 19) ∧
    (∀ b, b < dramCapacity cfg → subOf b = subOf a → bankOf cfg b = bankOf cfg a → dramRow cfg b = dramRow cfg a → bits b 15 10 = bits a 15 10 →
      bits b 5 0 = bits a 5 0 → b = a)

/-- R386, R388 and R398: requests and their byte frame. -/
def Obligations.DramRequestsReadAndWriteLines : Prop :=
  ∀ (addr now : Nat) (s : State), s.dev.dram.trained = true → s.dev.dram.sub[0].selfRefresh = false → s.MemOk →
    (∀ (ecc : List (Nat × Ecc)) (cbBad : List Nat), addr < dramCapacity s.dev.dram.cfg →
      ∃ t, exec (.dramReadRequest addr ecc cbBad now) s = .next t ∧ t.dev.mem = s.dev.mem ∧
        objNum t.dev 0x344001 = objNum s.dev 0x344001 + (if (List.range 16).all (cbBad.contains ·) then 1 else 0)) ∧
    (∀ (bs : Bytes) (ecc : List (Nat × Ecc)) (cbBad : List Nat), 0 < bs.length → addr % 64 + bs.length ≤ 64 →
      addr + bs.length ≤ dramCapacity s.dev.dram.cfg →
      ∃ t, exec (.dramWriteRequest addr bs ecc cbBad now) s = .next t ∧ memGet t.dev (dramKey addr) bs.length = bs ∧
        ∀ a, (a < dramKey addr ∨ dramKey addr + bs.length ≤ a) → cellGet t.dev.mem a = cellGet s.dev.mem a) ∧
    (∀ (n ns : Nat) (forced : Option (Fin 4)) (metStep : Bool), addr / 64 * 64 + 64 * n ≤ dramCapacity s.dev.dram.cfg →
      (∃ t, exec (.realTimeBurst addr n none ns forced metStep now) s = .next t ∧ t.dev.mem = s.dev.mem) ∧
      (∀ bs : Bytes, bs.length = 64 * n →
        ∃ t, exec (.realTimeBurst addr n (some bs) ns forced metStep now) s = .next t ∧ memGet t.dev (dramKey (addr / 64 * 64)) (64 * n) = bs ∧
          ∀ a, (a < dramKey (addr / 64 * 64) ∨ dramKey (addr / 64 * 64) + 64 * n ≤ a) → cellGet t.dev.mem a = cellGet s.dev.mem a))

/-- R393, R394, R396 and R397: no refresh is skipped. -/
def Obligations.RefreshIsOwedAndIssued : Prop :=
  ∀ (k : Fin 4) (now : Nat) (s : State), s.dev.dram.trained = true → s.dev.dram.sub[k].selfRefresh = false →
    (∀ (rank : Fin 2) (idx : Fin 4), rank.val < ranksOf s.dev.dram.cfg →
      let slot := refreshSlot rank idx
      let owed := s.dev.dram.sub[k].owed[slot]
      (owed ≤ 4 → ∃ t, exec (.refsbDue k rank idx now) s = .next t ∧ t.dev.dram.sub[k].owed[slot] = (if owed = 4 then 4 else owed + 1) ∧
        objNum t.dev 0x342002 = objNum s.dev 0x342002 + (if owed = 4 then 1 else 0) ∧ t.dev.mem = s.dev.mem) ∧
      (0 < owed → ∃ t, exec (.refsbIssue k rank idx now) s = .next t ∧ t.dev.dram.sub[k].owed[slot] = owed - 1 ∧
        objNum t.dev 0x342002 = objNum s.dev 0x342002 + 1 ∧ t.dev.mem = s.dev.mem)) ∧
    (∀ bank, s.dev.dram.sub[k].owedRfm.contains bank = true → ∃ t, exec (.rfmIssue k bank now) s = .next t ∧
      t.dev.dram.sub[k].owedRfm = s.dev.dram.sub[k].owedRfm.filter (· ≠ bank) ∧
      mapGetD t.dev.dram.sub[k].raa bank 0 = mapGetD s.dev.dram.sub[k].raa bank 0 - Config.raaimt ∧ t.dev.mem = s.dev.mem) ∧
    (∀ e rest, s.dev.dram.sub[k].neighbours = e :: rest → ∃ t, exec (.neighbourRefresh k now) s = .next t ∧
      t.dev.dram.sub[k].neighbours = rest ∧ objNum t.dev 0x342006 = objNum s.dev 0x342006 + 1 ∧ t.dev.mem = s.dev.mem) ∧
    (∀ hot, ∃ t, exec (.dramTempPoll hot now) s = .next t ∧ (∀ r : Fin 2, t.dev.dram.sub[k].trefi[r] = if hot.contains (k, r) then 1950 else 3900) ∧
      t.dev.mem = s.dev.mem)

/-- R389, R391, R392 and R402. -/
def Obligations.DramAlertsAndRetraining : Prop :=
  ∀ (k : Fin 4) (now : Nat) (s : State), s.dev.dram.trained = true → s.dev.dram.sub[0].selfRefresh = false →
    (∃ t, exec (.caParityAlert k now) s = .next t ∧ objNum t.dev 0x344003 = objNum s.dev 0x344003 + 1 ∧ t.dev.mem = s.dev.mem ∧
      (∀ t0, s.dev.dram.sub[k].alertAt = some t0 → max s.dev.tm now < t0 + 1000000 → t.dev.dram.sub[k].retrainDue = true)) ∧
    (∀ (passing : List Bool) (temp : Word), s.dev.dram.sub[k].retrainDue = true → s.dev.dram.sub[k].retrainStep = 0 →
      s.dev.dram.sub[k].stepAt = none → otherRetrains s.dev k = false → 0 < ranksOf s.dev.dram.cfg →
      let r := longestRun passing
      let old := s.dev.dram.sub[k].lanes[(0 : Fin 10)]
      ∃ t, exec (.dramRetrainStep k passing temp now) s = .next t ∧ t.dev.dram.sub[k].retrainStep = 1 ∧ t.dev.mem = s.dev.mem ∧
        t.dev.dram.sub[k].lanes[(0 : Fin 10)].readDelay = (if r.2 < 13 then old.readDelay else runCentre r) ∧
        t.dev.dram.sub[k].lanes[(0 : Fin 10)].writeDelay = old.writeDelay ∧
        objNum t.dev 0x341004 = objNum s.dev 0x341004 + (if r.2 < 13 then 1 else 0)) ∧
    (∀ (passing : List Bool) (lane : Fin 10) (at_ : Nat), s.dev.dram.sub[k].retryLanes = [(lane.val, true, at_)] →
      at_ + 1000000000 ≤ max s.dev.tm now → 13 ≤ (longestRun passing).2 →
      ∃ t, exec (.laneRetry k passing now) s = .next t ∧ t.dev.dram.sub[k].retryLanes = [] ∧
        t.dev.dram.sub[k].lanes[lane].writeDelay = runCentre (longestRun passing) ∧ t.dev.mem = s.dev.mem) ∧
    (∀ w : DramWrite, s.dev.dram.sub[k].writes = [w] → w.since + objNum s.dev 0x343003 * 1000 < max s.dev.tm now →
      ∃ t, exec (.writeAgeDrain k now) s = .next t ∧ t.dev.dram.sub[k].writes = [] ∧ t.dev.mem = s.dev.mem)

/-- R406, R407, R410 and R415: who clears poison. -/
def Obligations.PoisonIsKeptUntilAWholeWrite : Prop :=
  ∀ (w : Nat) (ecc : Ecc) (d : Dev),
    ((readWord (4 * w) ecc d).1 = (isPoisoned d w || decide (ecc = .uncorrectable)) ∧ (readWord (4 * w) ecc d).2.poisoned = d.poisoned ∧
      (readWord (4 * w) ecc d).2.mem = d.mem) ∧
    (∀ full : Bool,
      let d1 := writeWordClass w full ecc d
      isPoisoned d1 w = (!full && (isPoisoned d w || decide (ecc = .uncorrectable))) ∧ d1.mem = d.mem ∧
      (∀ x, x ≠ w → isPoisoned d1 x = isPoisoned d x) ∧
      (full = false → (isPoisoned d w = true ∨ ecc = .uncorrectable) → objNum d1 0xA00005 = objNum d 0xA00005 + 1) ∧
      (4 * w < dramBase → ecc ≠ .corrected → d1.integ.writeBacks.all (fun b => decide (b.word ≠ w)) = true))

/-- R407, R409 and R411. -/
def Obligations.WriteBacksAreIssuedOrDropped : Prop :=
  ∀ (k now : Nat) (b : WriteBack) (s : State), s.dev.integ.writeBacks[k]? = some b →
    (∃ t, exec (.writeBack k now) s = .next t ∧ t.dev.integ.writeBacks = s.dev.integ.writeBacks.erase b ∧ t.dev.mem = s.dev.mem ∧
      ((b.region < 16 ∨ 20 ≤ b.region) → b.poison = true → isPoisoned t.dev b.word = true) ∧
      (b.poison = false → t.dev.poisoned = s.dev.poisoned) ∧
      (16 ≤ b.region → b.region < 20 → 64 ≤ s.dev.dram.sub[subOf (4 * b.word - dramBase)].writes.length →
        objNum t.dev 0xA00008 = objNum s.dev 0xA00008 + 1)) ∧
    ((b.region < 16 ∨ b.region = 20) → b.since + 100000 ≤ max s.dev.tm now →
      ∃ t, exec (.writeBackTimeout k now) s = .next t ∧ t.dev.integ.writeBacks = s.dev.integ.writeBacks.erase b ∧
        objNum t.dev 0xA00008 = objNum s.dev 0xA00008 + 1 ∧ t.dev.poisoned = s.dev.poisoned ∧ t.dev.mem = s.dev.mem)

/-- R75, R412, R417 and R419. -/
def Obligations.RemapsLeaksVotesAndSteps : Prop :=
  (∀ (k now : Nat) (ecc : List (Nat × Ecc)) (r : Remap) (s : State), s.dev.integ.remaps[k]? = some r → r.copied = false →
    ∃ t, exec (.remapCopy k ecc now) s = .next t ∧ { r with copied := true } ∈ t.dev.integ.remaps ∧ t.dev.mem = s.dev.mem) ∧
  (∀ (now : Nat) (s : State), ∃ t, exec (.bucketLeak now) s = .next t ∧ t.dev.mem = s.dev.mem ∧
    ∀ r, r < 21 → (getRegion t.dev r).level =
      (getRegion s.dev r).level - (max s.dev.tm now - s.dev.integ.leakAt) / (objNum s.dev 0xA01001 * 1000000000)) ∧
  (∀ (repaired now : Nat) (s : State), s.dev.power.phase ≠ .inReset → s.dev.power.phase ≠ .off →
    ∃ t, exec (.triplicateVote repaired false false false now) s = .next t ∧ objNum t.dev 0xA00007 = objNum s.dev 0xA00007 + repaired ∧
      t.dev.mem = s.dev.mem) ∧
  (∀ (steps now : Nat) (s : State), 0 < steps → ∃ t, exec (.tidemarkStepRecovery steps now) s = .next t ∧
    objNum t.dev 0x301004 = objNum s.dev 0x301004 + steps ∧ t.dev.mem = s.dev.mem)

/-- R421, R423 and R424. -/
def Obligations.DredgePassesEndAndRecur : Prop :=
  (∀ (now corrected : Nat) (ecc : List (Nat × Ecc)) (reads : List (Nat × Decode)) (weak : List (Nat × Nat)) (s : State),
    s.dev.integ.dredge.state = 1 → s.dev.integ.dredge.suspended = false → s.dev.integ.periodicDue = [] →
    (s.dev.integ.dredge.target < 2 ∨ s.dev.media.store.bands = []) →
    ∃ t, exec (.dredgePassDone now ecc corrected reads weak) s = .next t ∧ t.dev.integ.dredge.state = 2 ∧
      t.dev.integ.dredge.endedAt = max s.dev.tm now ∧ t.dev.integ.dredge.progress = s.dev.integ.dredge.length ∧
      t.dev.integ.dredge.target = s.dev.integ.dredge.target ∧ t.dev.mem = s.dev.mem) ∧
  (∀ (now : Nat) (target : Fin 3) (s : State), s.dev.power.phase = .ready → s.dev.integ.dredge.state ≠ 1 → s.dev.integ.periodicDue = [] →
    objNum s.dev (0xA03201 + target.val) ≠ 0 →
    s.dev.integ.periodicAt[target] + objNum s.dev (0xA03201 + target.val) * 3600000000000 ≤ max s.dev.tm now →
    ∃ t, exec (.periodicDredge now target) s = .next t ∧ t.dev.integ.dredge.state = 1 ∧ t.dev.integ.dredge.origin = 1 ∧
      t.dev.integ.dredge.target = target.val ∧ t.dev.integ.dredge.start = 0 ∧ t.dev.integ.periodicAt[target] = max s.dev.tm now ∧
      t.dev.mem = s.dev.mem)

/-- R130, R132, R133 and R134 over the table of R18 and R19. -/
def Obligations.SessionsOpenCloseAndAnswer : Prop :=
  (∀ (c : Cmd) (s : State), admitted c false s.dev = true → c.nsid = 0 → c.cdw2 = 0 → c.cdw3 = 0 →
    let d := taken c s.dev
    (zeroBits c.cdw10 14 13 = true → zeroBits c.cdw10 30 29 = true → zeroBits c.cdw12 31 16 = true → zeroFrom 13 c = true →
      (∀ x ∈ openSlots c, (keySlot d x.1).allocated = true ∧ (keySlot d x.1).owner = c.ctrl ∧ (keySlot d x.1).type = x.2) →
      withinLimit d .sessions c.ctrl = true → ∀ (i : Nat) (t : Sessions), takeIndex d = some (i, t) →
      let inc := nextInc (mapGetD t.incs i 0)
      let ses : Session :=
        { inc := inc, ctrl := c.ctrl, content := if bit c.cdw10 15 then some (bits c.cdw10 12 0) else none
          transport := if bit c.cdw10 31 then some (bits c.cdw10 28 16) else none, label := c.cdw11, idle := bits c.cdw12 15 0
          opened := d.tm }
      Completes (.sessionOpen c) c stOk (inc * 65536 + i) 0
        (labelSession c.ctrl c.cdw11 (inc * 65536 + i) { d with sess := { t with tab := mapSet t.tab i ses, incs := mapSet t.incs i inc } }) s) ∧
    (zeroFrom 11 c = true → ∀ ses : Session, sessionFor d c.ctrl c.cdw10 = some ses →
      Completes (.sessionClose c) c stOk ses.inFlight 0 (closeSession (c.cdw10 % 65536) d) s ∧
      Completes (.sessionQuery c) c stOk 0 0 d s [.data c.ctrl c.cid (sessionRecord c.cdw10 ses)])) ∧
  (∀ (d : Dev) (i : Nat) (ses : Session), mapGet d.sess.tab i = some ses → ses.isOpen = true →
    let tab := mapSet d.sess.tab i { ses with isOpen := false }
    (closeSession i d).sess = (if ses.inFlight = 0 then { d.sess with tab := mapErase tab i, freed := d.sess.freed ++ [i] }
      else { d.sess with tab := tab })) ∧
  (∀ (now : Nat) (s : State),
    let d := advanceTo now s.dev
    let idle := (d.sess.tab.filter fun ks =>
      ks.2.isOpen && ks.2.idle ≠ 0 && decide (max ks.2.lastAdm ks.2.opened + ks.2.idle * 1000000000 ≤ d.tm)).map Prod.fst
    exec (.sessionIdleCheck now) s =
      .next { s with dev := idle.foldl (fun d i => closeSession i (gaugeCount 0x008 (bump 0x501003 d))) d })

/-- R135 to R138 for a Put, R145 for Evict, R146 for Lookup. -/
def Obligations.PutLookupAndEvictComplete : Prop :=
  (∀ (c : Cmd) (s : State) (n : Namespace), admitted c false s.dev = true → c.cdw3 = 0 →
    let d := taken c s.dev
    let key := withTag (cmdKey c) n.tag
    attachedNs d c.ctrl c.nsid = some n → n.kind = 2 → keyClean (cmdKey c) = true → keyKind (cmdKey c) < 6 → placedOn d key = none →
    (∀ slot : Nat, lengthOk c.cdw2 = true → zeroBits c.cdw10 14 13 = true → zeroBits c.cdw10 31 17 = true →
      (bit c.cdw10 16 = true → 2 ≤ keyKind (cmdKey c) ∧ d.variant ≠ .vl7e) →
      putSlot d key (bit c.cdw10 15) (bits c.cdw10 12 0) = .ok slot → storageLoaded d slot = true → putFits d c.ctrl key n c.cdw2 = true →
      ∃ (t : State) (r : Req), exec (.objectPut c) s = .next t ∧ mapGet t.dev.reqs d.host.nextTag = some r ∧
        t.dev.host.nextTag = d.host.nextTag + 1 ∧ r.op = 2 ∧ r.step = .arriving ∧ (r.ctrl, r.sq, r.cid) = (c.ctrl, c.sq, c.cid) ∧ r.key = key ∧
        r.len = c.cdw2 ∧ r.obj = putRecord key n.iu c.cdw2 c.cdw11 slot c.ctrl (bit c.cdw10 16) ∧
        r.store = (keySlot d slot).current.map (fun g => (slot, g.gen)) ∧ r.storeUse = true ∧
        (mapGet t.dev.media.titles (keyTag key * 2 ^ 32 + keyTitle key)).map TitleBinding.slot = some slot ∧ t.dev.media.store = d.media.store) ∧
    (c.cdw2 = 0 → c.cdw10 = 0 → c.cdw11 = 0 → ∀ bad : List Nat,
      (∀ h rec o d1, findObject key bad (gaugeCount 0x005 d) = (some (h, rec, o), d1) → h.entry.poison = false →
        Completes (.lookup c bad) c stOk (if o.withdrawn then 1 else 0) 0 d1 s [.data c.ctrl c.cid (lookupRecord o)]) ∧
      (∀ d1, findObject key bad (gaugeCount 0x005 d) = (none, d1) → Completes (.lookup c bad) c stAbsent 0 0 d1 s) ∧
      (∀ h rec o d1, findObject key bad d = (some (h, rec, o), d1) →
        CompletesMedia (.objectEvict c bad) c stOk 0 (if o.withdrawn then 1 else 0) (evictObject key rec o d1) s) ∧
      (∀ d1, findObject key bad d = (none, d1) → Completes (.objectEvict c bad) c stAbsent 0 0 d1 s))) ∧
  (∀ (d : Dev) (key rec x : Nat) (o : ObjRec) (n : Namespace), nsByTag d (keyTag key) = some (x, n) →
    (evictObject key rec o d).media.store.objs = mapErase d.media.store.objs rec ∧
    (evictObject key rec o d).media.store.map = putEntries n.idx d.media.store.map o.base (List.replicate o.units none)) ∧
  (∀ (tag u : Nat) (data : Bytes) (s : State) (r : Req) (p : Nat × Nat) (g : KeyGen), mapGet s.dev.reqs tag = some r → r.op = 2 →
    r.step = .arriving → r.ctrl ≠ 0 → r.remote = none → r.obj.compressed = false → u < unitCount r.len → mapGet r.putUnits u = none →
    mapGet r.cipher u = none → (∀ kv ∈ r.putUnits, (mapGet r.cipher kv.1).isSome = true) → r.unit.isSome = true → holdsUnit s.dev tag r = true →
    r.store = some p → slotGen s.dev p.1 p.2 = some g →
    let b := padTo (min 4096 (r.len - 4096 * u)) data
    ∃ (t : State) (r' : Req), exec (.putDataArrival tag u 0 data) s = .next t ∧ mapGet t.dev.reqs tag = some r' ∧
      r'.putUnits = mapSet r.putUnits u b ∧ mapGet r'.cipher u = some (xtsEnc g.key (objTweak r.key u) (padTo (roundUp b.length 16) b)) ∧
      r'.step = .arriving ∧ t.dev.media.store.objs = s.dev.media.store.objs) ∧
  (∀ (tag now x k dw1 : Nat) (s : State) (r r1 : Req) (n : Namespace) (d2 : Dev), mapGet s.dev.reqs tag = some r → r.op = 2 →
    r.step = .arriving → unitCount r.len ≤ r.cipher.length → (r.ctrl = 0 ∨ r.remote = none) →
    let d := advanceTo now s.dev
    nsByTag d (keyTag r.key) = some (x, n) →
    let d1 := placePut tag n.iu n.idx r.obj.units d
    mapGet d1.reqs tag = some r1 → r1.obj.units ≤ r1.entries.length → storeObject tag r1 n d1 = (some (k, dw1), d2) →
    (∃ o, mapGet d2.media.store.objs k = some o ∧ o.key = r1.obj.key ∧ o.version = r1.obj.version ∧ o.stored = r1.obj.stored ∧ o.slot = r1.obj.slot ∧
      o.storedAt = d1.tm) ∧
    exec (.objectPutValidate tag now) s = .next { s with dev := background (completePut tag k dw1 r1 d2) })

/-- R22 and R23 for admission, R373, R187, R189, and R26, R83 and R143 for the end. -/
def Obligations.StreamReadPathCompletes : Prop :=
  (∀ (c : Cmd) (s : State) (n : Namespace) (img : Bytes) (size : Bool) (bad : List Nat) (mapBad : Option Nat),
    admitted c false s.dev = true → c.cdw3 = 0 →
    let d := taken c s.dev
    let c' := withSize size c
    let key := withTag (cmdKey c) n.tag
    zeroBits c'.cdw11 7 6 = true → zeroBits c'.cdw11 31 10 = true → bit c'.cdw11 9 = size → (size = true ∨ lengthOk c.cdw2 = true) →
    keyClean (cmdKey c) = true → keyKind (cmdKey c) < 6 → attachedNs d c.ctrl c.nsid = some n → n.kind = 2 →
    profileImage d (c'.cdw11 % 64) = some img → handleOk d c' (some img) = true → unitMissing d img = false → sessionKeyMissing d c' img = false →
    let slot := if imgScheme img = 0 then none else schemeSlot d c' img
    let e := enterRead (readRequest c' key (c'.cdw11 % 64) img (mapGetD d.profiles (c'.cdw11 % 64) {}).version) slot d
    placedOn e.2 key = none → e.1 = d.host.nextTag ∧
      exec (if size then .streamReadSize c bad mapBad else .streamRead c bad mapBad false) s =
        .next { s with dev := admitHere e.1 bad mapBad e.2 }) ∧
  (∀ (tag rec x : Nat) (bad : List Nat) (back : Bool) (d d1 : Dev) (r : Req) (h : EddyHit) (o : ObjRec) (n : Namespace),
    mapGet d.reqs tag = some r → classSearch r.key (imgClass r.image) bad d = (some (h, rec, o), back, d1) → h.entry.poison = false →
    o.withdrawn = false → 0 < o.stored → storageLoaded d1 o.slot = true → nsByTag d1 (keyTag r.key) = some (x, n) →
    (∀ u < o.units, mapKey n.idx (o.base + u) ∉ d1.media.badWords ∧ chunkRebuilding d1 n.idx (o.base + u) = false) →
    let es := (List.range o.units).map fun u => entryOf d1 n.idx (o.base + u)
    ∃ r' : Req, mapGet (admitHere tag bad none d).reqs tag = some r' ∧ r'.obj = o ∧ r'.recNo = rec ∧ r'.fallback = back ∧ r'.entries = es ∧
      r'.pins = entryBands d1 n.iu es ∧ r'.store = (keySlot d1 o.slot).current.map (fun g => (o.slot, g.gen)) ∧ r'.storeUse = true ∧
      r'.key = r.key ∧ r'.step = r.step ∧ r'.sess = r.sess) ∧
  (∀ (tag u v : Nat) (dec : Decode) (s : State) (r : Req), mapGet s.dev.reqs tag = some r → r.op < 2 → r.step = .path → r.ctrl ≠ 0 →
    r.remote = none → unitNeeded r u = true → mapGet r.cipher u = none → r.entries[u]? = some (some v) → v ≠ uncorrectable →
    let held := s.dev.media.buffer.contains (unitKey (objClass s.dev r.key) v)
    ((held = true ∨ dec ≠ .fail) → ∃ t, exec (.unitDecode tag u dec) s = .next t ∧ mapGet t.dev.reqs tag =
      some { r with cipher := mapSet r.cipher u (unitData s.dev (objClass s.dev r.key) v), readRetry := r.readRetry || (!held && dec ≠ .hard) }) ∧
    (held = false → dec = .fail → r.recNo ≠ recGone → ∀ o, mapGet s.dev.media.store.objs r.recNo = some o → o.withdrawn = false →
      ∃ t o', exec (.unitDecode tag u dec) s = .next t ∧ mapGet t.dev.media.store.objs r.recNo = some o' ∧ o'.withdrawn = true ∧ o'.key = o.key)) ∧
  (∀ (tag : Nat) (i : Fin 2) (s : State) (r : Req), mapGet s.dev.reqs tag = some r → r.op < 2 → r.ctrl ≠ 0 → r.cipher ≠ [] → r.unit = none →
    chooseUnit s.dev false = i.val →
    let e := s.dev.keys.estuary[i]
    ∃ t, exec (.estuaryAssign tag) s = .next t ∧ mapGet t.dev.reqs tag = some { r with unit := some i.val } ∧
      t.dev.keys.estuary[i] = (if e.held.contains tag then e
        else if e.held.length < 48 then { e with held := e.held ++ [tag], waiting := e.waiting.filter (· ≠ tag) }
        else if e.waiting.contains tag then e else { e with waiting := e.waiting ++ [tag] })) ∧
  (∀ (tag u : Nat) (s : State) (r : Req) (ct : Bytes) (p : Nat × Nat) (g : KeyGen), mapGet s.dev.reqs tag = some r → r.op < 2 → r.step = .path →
    r.ctrl ≠ 0 → holdsUnit s.dev tag r = true → mapGet r.plain u = none → u < unitCount r.obj.stored → cipherUnit s.dev r u = some ct →
    r.store = some p → slotGen s.dev p.1 p.2 = some g →
    (∃ t r', exec (.xtsDecryptUnit tag u true) s = .next t ∧ mapGet t.dev.reqs tag = some r' ∧
      r'.plain = mapSet r.plain u (xtsDec g.key (objTweak r.obj.key u) ct)) ∧
    exec (.xtsDecryptUnit tag u false) s = .next { s with dev := readCompareFail tag 0 (256 * u) r s.dev }) ∧
  (∀ (tag now : Nat) (s : State) (r : Req), mapGet s.dev.reqs tag = some r → r.op = 0 → r.ctrl ≠ 0 → hasQueues r.ctrl r.sq s.dev →
    (r.step = .dma → r.pageTag = none →
      (r.toPeer = false → ∃ t, exec (.outputDmaDone tag now true) s = .next t ∧ Output.data r.ctrl r.cid r.output ∈ t.dev.out ∧
        Posted r.ctrl r.sq r.cid stOk r.output.length (readDword1 r) t.dev) ∧
      (r.toPeer = true → ∃ t, exec (.outputDmaDone tag now true) s = .next t ∧ Output.data r.ctrl r.cid r.output ∈ t.dev.out ∧
        Output.peerRead r.ctrl r.cid ∈ t.dev.out ∧ mapGet t.dev.reqs tag = some { r with step := .peer }) ∧
      (∃ t, exec (.outputDmaDone tag now false) s = .next t ∧ Posted r.ctrl r.sq r.cid stTransfer 0 0 t.dev)) ∧
    (r.step = .peer →
      (∃ t, exec (.peerFlushReadComplete tag true) s = .next t ∧ Posted r.ctrl r.sq r.cid stOk r.output.length (readDword1 r) t.dev) ∧
      (∃ t, exec (.peerFlushReadComplete tag false) s = .next t ∧ Posted r.ctrl r.sq r.cid stTransfer 0 0 t.dev)))

/-- R167, R177, R142 and R25 for the passes, R237 for Riffle, R189 and R193 to R196 for encryption. -/
def Obligations.BraidRiffleAndEncryptionAdvanceARead : Prop :=
  (∀ (tag now : Nat) (s : State) (r : Req) (res : BrResult), mapGet s.dev.reqs tag = some r → r.op < 2 → r.step = .path → r.ctrl ≠ 0 →
    r.asmLen = none → r.calling = false → tableReady s.dev r = true → (r.inBraid = true ∨ contextsBusy s.dev < 32) →
    bit (imgKinds r.image) (keyKind r.obj.key) = true → imgAssisted r.image = false → objectRefused r.image (stagedData r) r.obj.stored = none →
    brPass (brCtx s.dev tag r false) = .ok res →
    let out := res.len + brOverhead (imgScheme r.image) res.len
    (r.op = 0 → out ≤ r.len → ∃ t, exec (.braidLengthPass tag now false) s = .next t ∧
      mapGet t.dev.reqs tag = some { r with inBraid := true, passAt := none, asmLen := some res.len }) ∧
    (hasQueues r.ctrl r.sq s.dev →
      (r.op = 0 → r.len < out → ∃ t, exec (.braidLengthPass tag now false) s = .next t ∧ Posted r.ctrl r.sq r.cid stSmall out 0 t.dev) ∧
      (r.op = 1 → ∃ t, exec (.braidLengthPass tag now false) s = .next t ∧ Posted r.ctrl r.sq r.cid stOk out (readDword1 r) t.dev))) ∧
  (∀ (tag now : Nat) (s : State) (r : Req) (res : BrResult), mapGet s.dev.reqs tag = some r → r.op = 0 → r.step = .path → r.asmLen.isSome = true →
    r.asm = none → r.calling = false → (if r.obj.compressed then r.inflated.isSome else allPlain r) = true → brPass (brCtx s.dev tag r true) = .ok res →
    ∃ t r', exec (.braidAssemblyPass tag now false) s = .next t ∧ mapGet t.dev.reqs tag = some r' ∧ r'.asm = some res.out ∧
      r'.ranges = res.ranges.map (fun x => { off := x.1, len := x.2.len, prot := x.2.prot, restart := x.2.restart, sample := x.2.sample }) ∧
      (imgScheme r.image = 0 → r'.output = res.out ∧ r'.step = .dma) ∧ (imgScheme r.image ≠ 0 → r'.output = [] ∧ r'.step = .path)) ∧
  (∀ (tag : Nat) (s : State) (r : Req), mapGet s.dev.reqs tag = some r → r.op = 0 → r.step = .path → r.obj.compressed = true → r.riffle.isSome = true →
    r.inflated = none →
    let bs := (putPrefix r.plain (unitCount r.obj.stored) 0).take r.obj.stored
    bs.length = r.obj.stored → (riffleDecode bs false (some r.obj.decoded)).code = 0 →
    ∃ t, exec (.riffleDeliveryDecode tag false) s = .next t ∧
      mapGet t.dev.reqs tag = some { r with inflated := some (riffleDecode bs false (some r.obj.decoded)).out }) ∧
  (∀ (tag i : Nat) (same : Bool) (s : State) (r : Req) (a : Bytes) (b : BraidRange), mapGet s.dev.reqs tag = some r → r.asm = some a →
    r.ranges[i]? = some b → r.op = 0 → r.step = .path → i = r.rangesDone → imgScheme r.image ≠ 0 → holdsUnit s.dev tag r = true →
    (b.prot = true → same = true) → (imgScheme r.image = 4 → r.gcm = none → ∃ p, r.sess = some p ∧ (slotGen s.dev p.1 p.2).isSome = true) →
    let drawn := if imgScheme r.image = 4 ∧ r.gcm = none then (r.sess.bind fun p => (slotGen s.dev p.1 p.2).map KeyGen.gcmNext) else r.gcm
    ∃ t r', exec (.estuaryEncryptRange tag i same) s = .next t ∧ mapGet t.dev.reqs tag = some r' ∧ r'.rangesDone = i + 1 ∧ r'.gcm = drawn ∧
      r'.output = r.output ++ encryptRange s.dev { r with gcm := drawn } i b (slice a b.off b.len) ∧
      r'.step = (if i + 1 = r.ranges.length then .dma else .path))

/-- R147 to R150 for Fence, R152 to R154 for the windows. -/
def Obligations.FencesAndLookupWindowsComplete : Prop :=
  (∀ (c : Cmd) (s : State) (k : Ctrl) (q : SubQueue), admitted c false s.dev = true → c.nsid = 0 → c.cdw2 = 0 → c.cdw3 = 0 →
    zeroBits c.cdw10 31 1 = true → zeroFrom 11 c = true →
    let d := taken c s.dev
    getCtrl d c.ctrl = some k → mapGet k.sqs c.sq = some q →
    let chain := bit c.cdw10 0
    (q.inflight.all (fun i => i = c.cid || q.earlier.contains i) = true → ∃ t, exec (.fence c) s = .next t ∧
      Posted c.ctrl c.sq c.cid (if chain = true ∧ q.spanFails ≠ 0 then stFenceAborted else stOk) (q.spanFirst + 65536 * q.spanFails) 0 t.dev) ∧
    (q.inflight.all (fun i => i = c.cid || q.earlier.contains i) = false → ∃ t k', exec (.fence c) s = .next t ∧ SameWork d t.dev ∧ getCtrl t.dev c.ctrl = some k' ∧
      mapGet k'.sqs c.sq = some { q with fence := some (c.cid, chain), cancelling := false } ∧
      ∀ c' : Cmd, c'.ctrl = c.ctrl → c'.sq = c.sq → fetchable t.dev c' = none)) ∧
  (∀ (now ctrl w : Nat) (off : Fin 16) (bytes : Bytes) (s : State) (k : Ctrl), getCtrl s.dev ctrl = some k → k.memSpace = true → k.port < 2 →
    linkUp s.dev k.port = true → s.dev.power.phase = .ready → s.dev.power.state < 2 → w < 1024 → 4 ≤ bytes.length → off.val + bytes.length ≤ 64 →
    let y := windowPut off.val bytes (mapGetD k.windows w {})
    ∃ t, exec (.lookupWindowKeyWrite now ctrl w off bytes) s = .next t ∧ y.valid = false ∧ y.job = none ∧
      lookupWindow t.dev ctrl w = (if off.val ≤ 12 ∧ 16 ≤ off.val + bytes.length then
        { y with seq := (y.seq + 1) % 65536, job := some (y.key, y.ctl, y.nsid) } else y) ∧
      t.dev.sess = s.dev.sess ∧ t.dev.reqs = s.dev.reqs ∧ t.dev.media = s.dev.media ∧ t.dev.mem = s.dev.mem) ∧
  (∀ (now ctrl w ctl nsid : Nat) (kb : Bytes) (bad : List Nat) (s : State), w < 1024 → (lookupWindow s.dev ctrl w).job = some (kb, ctl, nsid) →
    let d := advanceTo now s.dev
    let x := lookupWindow d ctrl w
    let answer := fun (st : Nat) (o : Option ObjRec) => { x with job := none, valid := true, status := st, result := windowResult d.tm o }
    let hit := fun (o : ObjRec) => 2 + (if o.withdrawn then 4 else 0) + (if o.compressed then 8 else 0) + keyClass o.key * 16
    let ns := (attachedNs d ctrl nsid).filter (·.kind = 2)
    (ns = none → ∃ t, exec (.lookupWindowResult now ctrl w bad) s = .next t ∧ lookupWindow t.dev ctrl w = answer (1 * 256) none) ∧
    (∀ n, ns = some n → keyClean (leNat kb) = false →
      ∃ t, exec (.lookupWindowResult now ctrl w bad) s = .next t ∧ lookupWindow t.dev ctrl w = answer (2 * 256) none) ∧
    (∀ n, ns = some n → keyClean (leNat kb) = true →
      (bit ctl 6 = true → profileImage d (ctl % 64) = none →
        ∃ t, exec (.lookupWindowResult now ctrl w bad) s = .next t ∧ lookupWindow t.dev ctrl w = answer (3 * 256) none) ∧
      (bit ctl 6 = true → ∀ img, profileImage d (ctl % 64) = some img →
        (∀ h rec o back d1, classSearch (withTag (leNat kb) n.tag) (imgClass img) bad d = (some (h, rec, o), back, d1) →
          ∃ t, exec (.lookupWindowResult now ctrl w bad) s = .next t ∧ lookupWindow t.dev ctrl w = answer (hit o) (some o)) ∧
        (∀ back d1, classSearch (withTag (leNat kb) n.tag) (imgClass img) bad d = (none, back, d1) →
          ∃ t, exec (.lookupWindowResult now ctrl w bad) s = .next t ∧ lookupWindow t.dev ctrl w = answer 0 none)) ∧
      (bit ctl 6 = false →
        (∀ h rec o d1, findObject (withTag (leNat kb) n.tag) bad d = (some (h, rec, o), d1) →
          ∃ t, exec (.lookupWindowResult now ctrl w bad) s = .next t ∧ lookupWindow t.dev ctrl w = answer (hit o) (some o)) ∧
        (∀ d1, findObject (withTag (leNat kb) n.tag) bad d = (none, d1) →
          ∃ t, exec (.lookupWindowResult now ctrl w bad) s = .next t ∧ lookupWindow t.dev ctrl w = answer 0 none))))

/-- R97, R98 and R107 for queues, R101, R120 and R151 for Abort, R534 for Asynchronous Event Request; layouts of log entry 12. -/
def Obligations.QueuesAreCreatedDeletedAndAborted : Prop :=
  ∀ (c : Cmd) (s : State) (k : Ctrl), admitted c true s.dev = true →
    let d := taken c s.dev
    getCtrl d c.ctrl = some k →
    let qid := bits c.cdw10 15 0
    let size := bits c.cdw10 31 16
    let hi := bits c.cdw11 31 16
    (1 ≤ qid → 1 ≤ size → size ≤ 0xFFF → bit c.cdw11 0 = true →
      (qid ≤ granted k true → mapGet k.sqs qid = none → hi ≠ 0 → (mapGet k.cqs hi).isSome = true →
        Completes (.createIoSubmissionQueue c) c stOk 0 0
          (modifyCtrl c.ctrl (fun k => { k with ioCreated := true, sqs := mapSet k.sqs qid { cq := hi, size := size + 1 } }) d) s) ∧
      (qid ≤ granted k false → mapGet k.cqs qid = none → hi < k.vi →
        Completes (.createIoCompletionQueue c) c stOk 0 0
          (modifyCtrl c.ctrl (fun k =>
            { k with ioCreated := true, cqs := mapSet k.cqs qid { size := size + 1, vector := hi, ien := bit c.cdw11 1 } }) d) s)) ∧
    (qid = 0 ∨ granted k true < qid ∨ (mapGet k.sqs qid).isSome = true → Completes (.createIoSubmissionQueue c) c stQid 0 0 d s) ∧
    (qid = 0 ∨ granted k false < qid ∨ (mapGet k.cqs qid).isSome = true → Completes (.createIoCompletionQueue c) c stQid 0 0 d s) ∧
    (qid ≠ 0 → (mapGet k.sqs qid).isSome = true →
      exec (.deleteIoSubmissionQueue c) s = .next
        { s with dev := done (withOp 0x00 c) stOk (modifyCtrl c.ctrl (fun k => { k with sqs := mapErase k.sqs qid }) (endQueue c.ctrl qid d)) } ∧
      ((∀ r ∈ d.reqs, ¬(r.2.ctrl = c.ctrl ∧ r.2.sq = qid)) → d.cas.forwards = [] → d.rt.calls = [] →
        Completes (.deleteIoSubmissionQueue c) c stOk 0 0 (modifyCtrl c.ctrl (fun k => { k with sqs := mapErase k.sqs qid }) d) s)) ∧
    (qid ≠ 0 → (mapGet k.cqs qid).isSome = true → (∀ q ∈ k.sqs, q.2.cq ≠ qid) →
      Completes (.deleteIoCompletionQueue c) c stOk 0 0 (modifyCtrl c.ctrl (fun k => { k with cqs := mapErase k.cqs qid }) d) s) ∧
    (∀ (queued : Bool) (n : Nat) (q : SubQueue), mapGet k.sqs qid = some q →
      (8 ≤ n → Completes (.abort c queued n) c stAbortLimit 0 0 d s) ∧
      (n < 8 → ∀ chain, q.fence = some (size, chain) →
        exec (.abort c queued n) s = .next { s with dev := done (withOp 0x08 c) stOk (abortFence c.ctrl qid size d) } ∧
        (∃ k' q', getCtrl (abortFence c.ctrl qid size d) c.ctrl = some k' ∧ mapGet k'.sqs qid = some q' ∧ q'.fence = none) ∧
        ((mapGet k.cqs q.cq).isSome = true → Posted c.ctrl qid size stAborted 0 0 (abortFence c.ctrl qid size d))) ∧
      (n < 8 → q.fence.all (fun f => f.1 ≠ size) = true → (size ∈ q.inflight ∧ ¬(qid = c.sq ∧ size = c.cid)) →
        (∀ (tag : Nat) (r : Req), reqOf d c.ctrl qid size = some (tag, r) →
          (abortable r = true → exec (.abort c queued n) s = .next { s with dev := done (withOp 0x08 c) stOk (finishReq tag stAborted d) }) ∧
          (abortable r = false → Completes (.abort c queued n) c stOk 1 0 d s)) ∧
        (reqOf d c.ctrl qid size = none → Completes (.abort c queued n) c stOk 1 0 d s)) ∧
      (n < 8 → q.fence.all (fun f => f.1 ≠ size) = true → size ∉ q.inflight →
        (q.head ≠ q.tail → Completes (.abort c true n) c stOk 0 0
          (modifyCtrl c.ctrl (fun k => { k with sqs := mapUpdate k.sqs qid fun q => { q with doomed := q.doomed ++ [size] } }) d) s) ∧
        Completes (.abort c false n) c stOk 1 0 d s)) ∧
    (16 ≤ k.aers.length → Completes (.asynchronousEventRequest c) c stAerLimit 0 0 d s) ∧
    (k.aers.length < 16 →
      (k.held = [] → exec (.asynchronousEventRequest c) s = .next
        { s with dev := modifyCtrl c.ctrl (fun k => { k with aers := k.aers ++ [c.cid] }) d }) ∧
      (∀ n rest, k.held = n :: rest → ∃ t, exec (.asynchronousEventRequest c) s = .next t ∧ SameWork d t.dev ∧
        Posted c.ctrl c.sq c.cid stOk (noticeDword n) 0 t.dev))

/-- R81, R108 and R120 for doorbells, R97 for opcodes, R437 for what traffic does. -/
def Obligations.DoorbellsMoveQueuesAndBadOnesAreIgnored : Prop :=
  (∀ (p : Fin 2) (now : Nat) (d : Dev), d.power.phase = .ready → d.power.state < 2 → d.power.slumberEntry = false →
    heard p now d = modifyPort p (fun q => { q with l1 := false }) (advanceTo now d)) ∧
  (∀ (now ctrl qid value : Nat) (s : State) (k : Ctrl), barsOpen ctrl now s.dev = true →
    let d := heard (portOf (advanceTo now s.dev) ctrl) now s.dev
    getCtrl d ctrl = some k →
    (∀ q : SubQueue, mapGet k.sqs qid = some q →
      (value < q.size → ringDist q.size q.head q.tail ≤ ringDist q.size q.head value →
        let d1 := modifyCtrl ctrl (fun c => { c with sqs := mapSet c.sqs qid { q with tail := value } }) d
        exec (.sqTailDoorbell now ctrl qid value []) s = .next { s with dev := d1 } ∧
        (∀ (c : Cmd) (q1 : SubQueue), let c' := { c with now := now, ctrl := ctrl, sq := qid }
          (if qid = 0 then adminOpcodes.contains c.opc else ioOpcodes.contains c.opc) = false → fetchable (advanceTo now d1) c' = some q1 →
          c.cid ∉ q1.inflight → c.cid ∉ q1.doomed → q1.cancelling = false →
          ∃ t, exec (.sqTailDoorbell now ctrl qid value [c]) s = .next t ∧ Posted ctrl qid c.cid stOpcode 0 0 t.dev)) ∧
      (q.size ≤ value ∨ ringDist q.size q.head value < ringDist q.size q.head q.tail → ∃ t,
        exec (.sqTailDoorbell now ctrl qid value []) s = .next t ∧ SameWork d t.dev ∧ t.dev = badDoorbell ctrl qid value 11 1 0x056 d)) ∧
    (mapGet k.sqs qid = none → ∃ t, exec (.sqTailDoorbell now ctrl qid value []) s = .next t ∧ SameWork d t.dev ∧
      t.dev = badDoorbell ctrl qid value 10 0 0x055 d) ∧
    (∀ q : CompQueue, mapGet k.cqs qid = some q →
      (value < q.size → ringDist q.size q.head value ≤ ringDist q.size q.head q.tail →
        ∃ t, exec (.cqHeadDoorbell now ctrl qid value) s = .next t ∧
          (q.waiting = [] → t.dev = modifyCtrl ctrl (fun c =>
            { c with cqs := mapSet c.cqs qid { q with head := value, stalled := q.stalled && decide (value = q.head) } }) d) ∧
          (∀ e es, q.waiting = e :: es → (q.tail + 1) % q.size ≠ value → e.ctrl = ctrl → Output.cqe e ∈ t.dev.out)) ∧
      (q.size ≤ value ∨ ringDist q.size q.head q.tail < ringDist q.size q.head value → ∃ t,
        exec (.cqHeadDoorbell now ctrl qid value) s = .next t ∧ SameWork d t.dev ∧ t.dev = badDoorbell ctrl qid value 11 1 0x056 d)) ∧
    (mapGet k.cqs qid = none → ∃ t, exec (.cqHeadDoorbell now ctrl qid value) s = .next t ∧ SameWork d t.dev ∧
      t.dev = badDoorbell ctrl qid value 10 0 0x055 d))

/-- R97 to R100, R107, R428, R529, R532 and R534; layouts of log entry 12, free bytes of log entry 1. -/
def Obligations.FeaturesPagesAndAnswersComplete : Prop :=
  (∀ (c : Cmd) (s : State) (k : Ctrl), admitted c true s.dev = true →
    let d := taken c s.dev
    let v := c.cdw11
    getCtrl d c.ctrl = some k → bits c.cdw10 31 8 = 0 →
    let fid := bits c.cdw10 7 0
    let sets (work : Dev) : Prop := Completes (.setFeatures c) c stOk 0 0 work s
    let gives (x : Nat) : Prop := Completes (.getFeatures c) c stOk x 0 d s
    (fid = 0x01 → sets (setFeature c.ctrl 0x01 (v % 8) d)) ∧
    (fid = 0x02 → bits v 4 0 ≤ 4 → sets (setPs c.ctrl (bits v 4 0) d)) ∧
    (fid = 0x04 → bits v 19 16 = 0 → bits v 21 20 ≤ 1 → sets (setFeature c.ctrl (threshKey c) (v % 65536) d) ∧ gives (feature k (threshKey c))) ∧
    (fid = 0x07 → bits v 15 0 ≠ 65535 → bits v 31 16 ≠ 65535 →
      let n := min (bits v 15 0) (k.vq - 2) + 65536 * min (bits v 31 16) (k.vq - 2)
      (k.ioCreated = false → Completes (.setFeatures c) c stOk n 0 (setFeature c.ctrl 0x07 n d) s) ∧
      (k.ioCreated = true → Completes (.setFeatures c) c stSequence 0 0 d s)) ∧
    (fid = 0x08 → sets (setFeature c.ctrl 0x08 (v % 65536) d)) ∧
    (fid = 0x09 → v % 65536 < k.vi → sets (setFeature c.ctrl (featKey 0x09 (v % 65536)) (bits v 16 16) d) ∧
      gives (v % 65536 + 65536 * feature k (featKey 0x09 (v % 65536)))) ∧
    (fid = 0x0A → sets (setFeature c.ctrl 0x0A (v % 2) d)) ∧
    (fid = 0x0B → sets (setFeature c.ctrl 0x0B v d)) ∧
    (fid = 0x0C → sets (setFeature c.ctrl 0x0C (v % 2) (setFeature c.ctrl 0x1000C (leNat (padTo 256 c.data)) d)) ∧
      Completes (.getFeatures c) c stOk (feature k 0x0C) 0 d s [.data c.ctrl c.cid (leBytes 256 (feature k 0x1000C))]) ∧
    (fid = 0x0E → sets (setFeature c.ctrl 0x0E (1 + (leField c.data 0 6 * 1000000 + stampSpan - d.tm % stampSpan) % stampSpan) d) ∧
      Completes (.getFeatures c) c stOk 0 0 d s [.data c.ctrl c.cid (timestampBytes d.tm (feature k 0x0E))]) ∧
    (fid = 0x02 → gives k.ps) ∧
    (fid = 0x01 ∨ fid = 0x07 ∨ fid = 0x08 ∨ fid = 0x0A ∨ fid = 0x0B → gives (feature k fid)) ∧
    (∀ n : Namespace, attachedNs d c.ctrl c.nsid = some n → n.kind = 0 → c.nsid ≠ 0xFFFFFFFF →
      (fid = 0x05 → sets (setFeature c.ctrl (featKey 0x05 c.nsid) (v % 2 ^ 17) d) ∧ gives (feature k (featKey 0x05 c.nsid))) ∧
      (fid = 0x81 → sets (setFeature c.ctrl (featKey 0x81 c.nsid) (v % 16) d) ∧ gives (feature k (featKey 0x81 c.nsid))) ∧
      (fid = 0x83 →
        sets (modifyMedia (fun m => { m with nss := mapUpdate m.nss c.nsid fun x => { x with rsv := { x.rsv with ptpl := bit v 0 } } }) d) ∧
        gives (if n.rsv.ptpl then 1 else 0))) ∧
    (fid ∉ featureIds → Completes (.setFeatures c) c stField 0 0 d s ∧ Completes (.getFeatures c) c stField 0 0 d s)) ∧
  (∀ (c : Cmd) (s : State) (k : Ctrl), admitted c true s.dev = true →
    let d := taken c s.dev
    getCtrl d c.ctrl = some k →
    let lid := bits c.cdw10 7 0
    let len := 4 * (bits c.cdw10 31 16 + 65536 * bits c.cdw11 15 0 + 1)
    let off := c.cdw12 + 2 ^ 32 * c.cdw13
    let page := logPage d c.ctrl k lid (bits c.cdw14 31 24)
    let r := pageWindow page off len d
    (lid ∉ logPages d c.ctrl → Completes (.getLogPage c) c stLogPage 0 0 d s) ∧
    (lid ∈ logPages d c.ctrl →
      (off % 4 ≠ 0 ∨ page.size < off ∨ 8388608 < len → Completes (.getLogPage c) c stField 0 0 d s) ∧
      (off % 4 = 0 → off ≤ page.size → len ≤ 8388608 →
        (bit c.cdw10 15 = true → Completes (.getLogPage c) c stOk 0 0 r.2 s [.data c.ctrl c.cid r.1]) ∧
        (bit c.cdw10 15 = false →
          exec (.getLogPage c) s = .next { s with dev := rearm c.ctrl lid off len (done (withOp 0x02 c) stOk (sendData c r.1 r.2)) }))) ∧
    (∀ p : Page, identifyPage (withOp 0x06 c) d k = .ok p →
      Completes (.identify c) c stOk 0 0 (pageWindow p 0 4096 d).2 s [.data c.ctrl c.cid (pageWindow p 0 4096 d).1]) ∧
    (∀ st : Status, identifyPage (withOp 0x06 c) d k = .error st → Completes (.identify c) c st 0 0 d s) ∧
    (isPf d c.ctrl = true →
      (∀ result : Nat, bits c.cdw10 3 0 = 1 ∨ bits c.cdw10 3 0 = 2 → Completes (.deviceSelfTest c result) c stOk 0 0
        { d with fw := { d.fw with selfTests := ((bits c.cdw10 3 0, result % 16) :: d.fw.selfTests).take 20 } } s) ∧
      (∀ result : Nat, bits c.cdw10 3 0 = 15 → Completes (.deviceSelfTest c result) c stOk 0 0 d s) ∧
      (∀ n : Nat, let a := drawBytes n d
        let w := drawBytes 4 a.2
        Completes (.nvmeMiSend c n) c stOk (leNat w.1) 0 (modifyCtrl c.ctrl (fun k => { k with miResponse := a.1 }) w.2) s) ∧
      (let w := drawBytes 4 d
       Completes (.nvmeMiReceive c) c stOk (leNat w.1) 0 w.2 s [.data c.ctrl c.cid k.miResponse]))) ∧
  (∀ (p : Page) (off len : Nat) (d : Dev), (pageWindow p off len d).1.length = len ∧
    ∀ i < len, ∀ q : Piece, p.pieces.find? (fun x => decide (x.off ≤ off + i ∧ off + i < x.off + x.bytes.length)) = some q → q.mask = 0xFF →
      (pageWindow p off len d).1.getD i 0 = q.bytes.getD (off + i - q.off) 0)

/-- R97, R100, R102, R103, R106, R333, R334, R510 and R109 to R111; NVMe layouts of log entry 12. -/
def Obligations.NamespacesAndSecondaryControllersAreManaged : Prop :=
  (∀ (c : Cmd) (s : State) (a : NsAsk) (elsewhere : List Nat), admitted c true s.dev = true →
    let d := taken c s.dev
    let csi := bits c.cdw11 31 24
    let nsid := freeNsid d
    c.cdw10 = 0 → readAsk csi (padTo 4096 c.data) = .ok a →
    (isPf d c.ctrl = true → a.kind < 3 → 0 < a.nsze → a.ncap ≤ a.nsze → d.media.nss.length < 128 → (makesCascade d a = true → d.cas.state = 3) →
      let n := nsOfAsk (freeIdx d) a (if a.kind = 2 then freeTag d (if makesCascade d a then elsewhere else []) else 0) (makesCascade d a)
      (nsFits d n = true → Completes (.namespaceCreate c (.host elsewhere)) c stOk nsid 0 (addNamespace nsid n d) s) ∧
      (nsFits d n = false → Completes (.namespaceCreate c (.host elsewhere)) c stNsCapacity 0 0 d s)) ∧
    (isPf d c.ctrl = true → a.kind = 3 → a.nsze % 2 ^ 30 = 0 → 2 ^ 30 ≤ a.nsze → (d.rt.aux.filter fun kn => kn.2.isMemory).length < 8 →
      let size := a.nsze / 2 ^ 30
      (∀ g, placeMemory d size = some g → gibFree d g size = true ∧
        Completes (.namespaceCreate c (.host elsewhere)) c stOk nsid 0
          (modifyRt (fun r => { r with aux := mapSet r.aux nsid { isMemory := true, gib := g, size := size } })
            (zeroMem (dramKey (g * 2 ^ 30)) (size * 2 ^ 30) d)) s) ∧
      (placeMemory d size = none → Completes (.namespaceCreate c (.host elsewhere)) c stNsCapacity 0 0 d s)) ∧
    (a.kind = 4 → csi = 4 → (d.rt.aux.filter fun kn => !kn.2.isMemory).length < 16 →
      Completes (.namespaceCreate c (.host elsewhere)) c stOk nsid 0
        (modifyRt (fun r => { r with aux := mapSet r.aux nsid { isMemory := false } }) d) s)) ∧
  (∀ (c : Cmd) (s : State) (a : NsAsk) (nsid tag : Nat),
    let d := advanceTo c.now s.dev
    readAsk 0 (padTo 4096 c.data) = .ok a → a.kind = 2 → d.cas.state = 2 → mapGet d.media.nss nsid = none → d.media.nss.length < 128 →
    let n := nsOfAsk (freeIdx d) a tag true
    ∃ t, exec (.namespaceCreate c (.master nsid tag)) s = .next t ∧ t.dev = addNamespace nsid (if nsFits d n then n else { n with ncap := 0 }) d) ∧
  (∀ (nsid : Nat) (n : Namespace) (d : Dev),
    (∀ x, mapGet (addNamespace nsid n d).media.nss x = if x = nsid then some n else mapGet d.media.nss x) ∧
    (addNamespace nsid n d).media.store = d.media.store ∧ (addNamespace nsid n d).rt = d.rt ∧
    (n.kind = 2 → (addNamespace nsid n d).keys = d.keys) ∧
    (freeNsid d ≤ 256 → mapGet d.media.nss (freeNsid d) = none ∧ mapGet d.rt.aux (freeNsid d) = none)) ∧
  (∀ (c : Cmd) (s : State), admitted c true s.dev = true →
    let d := taken c s.dev
    isPf d c.ctrl = true →
    (c.cdw10 = 1 → c.nsid ≠ 0xFFFFFFFF →
      (∀ n, mapGet d.media.nss c.nsid = some n → CompletesMedia (.namespaceDelete c) c stOk 0 0 (deleteStored c.nsid n d) s) ∧
      (∀ a, mapGet d.media.nss c.nsid = none → mapGet d.rt.aux c.nsid = some a →
        (a.isMemory = false → Completes (.namespaceDelete c) c stOk 0 0 (modifyRt (fun r => { r with aux := mapErase r.aux c.nsid }) d) s) ∧
        (a.isMemory = true → d.rt.deletes = [] → mapWf d.rt.aux = true → (∀ i ∈ d.rt.calls, i.core = none) →
          ∃ t, exec (.namespaceDelete c) s = .next t ∧ Posted c.ctrl c.sq c.cid stOk 0 0 t.dev ∧ mapGet t.dev.rt.aux c.nsid = none ∧
            ∀ x ∈ t.dev.rt.sets, x.nsid ≠ c.nsid) ∧
        (a.isMemory = true → d.rt.deletes = [] → (∃ i ∈ d.rt.calls, i.core.isSome = true ∧ callUses a i = true) →
          exec (.namespaceDelete c) s = .next { s with dev := modifyRt (fun r => { r with deletes := [(c.ctrl, c.cid, c.nsid)] }) d })) ∧
      (mapGet d.media.nss c.nsid = none → mapGet d.rt.aux c.nsid = none → Completes (.namespaceDelete c) c stNamespace 0 0 d s)) ∧
    (c.cdw10 = 1 → c.nsid = 0xFFFFFFFF → d.rt.deletes = [] → (∀ i ∈ d.rt.calls, i.core = none) →
      ∃ t, exec (.namespaceDelete c) s = .next t ∧ Posted c.ctrl c.sq c.cid stOk 0 0 t.dev ∧ t.dev.media.nss = [] ∧ t.dev.rt.aux = []) ∧
    (∀ old : List Nat, attachedTo d c.nsid = some old →
      let l := listedCtrls (padTo 4096 c.data)
      l ≠ [] → (∀ i ∈ l, (getCtrl d i).isSome = true) →
      (c.cdw10 = 0 → (∀ i ∈ l, i ∉ old) →
        Completes (.namespaceAttach c) c stOk 0 0 (setAttached c.nsid (l.foldl (fun acc i => insNat i acc) old) d) s) ∧
      (c.cdw10 = 0 → (∃ i ∈ l, i ∈ old) → Completes (.namespaceAttach c) c stNsAttached 0 0 d s) ∧
      (c.cdw10 = 1 → (∀ i ∈ l, i ∈ old) → Completes (.namespaceDetach c) c stOk 0 0 (setAttached c.nsid (old.filter fun i => !l.contains i) d) s) ∧
      (c.cdw10 = 1 → (∃ i ∈ l, i ∉ old) → Completes (.namespaceDetach c) c stNsNotAttached 0 0 d s)) ∧
    (∀ v : Ctrl,
      let id := bits c.cdw10 31 16
      let n := bits c.cdw11 15 0
      let act := bits c.cdw10 3 0
      let rt := bits c.cdw10 10 8
      let p := portIdx v.port
      getCtrl d id = some v → v.vf ≠ 0 → v.port = (portOf d c.ctrl).val →
      (act = 7 → v.online = false → Completes (.virtualizationManagement c) c stOk 0 0 d s) ∧
      (act = 7 → v.online = true → v.poolState = 1 → exec (.virtualizationManagement c) s = .next
        { s with dev := done (withOp 0x1C c) stOk (returnFlexible id v (modifyCtrl id (fun v => { v with online := false }) (resetController id d))) }) ∧
      (act = 8 → v.online = false → v.poolState = 1 →
        (rt = 0 → n ≤ d.host.flexVq[p] + v.vq → Completes (.virtualizationManagement c) c stOk n 0
          (let d1 := modifyCtrl id (fun v => { v with vq := n }) d
           { d1 with host := { d1.host with flexVq := d1.host.flexVq.set p (d.host.flexVq[p] + v.vq - n) } }) s) ∧
        (rt = 1 → n ≤ d.host.flexVi[p] + v.vi → Completes (.virtualizationManagement c) c stOk n 0
          (let d1 := modifyCtrl id (fun v => { v with vi := n }) d
           { d1 with host := { d1.host with flexVi := d1.host.flexVi.set p (d.host.flexVi[p] + v.vi - n) } }) s) ∧
        (rt = 0 → d.host.flexVq[p] + v.vq < n → Completes (.virtualizationManagement c) c stResources 0 0 d s)) ∧
      (act = 8 → v.online = true → rt ≤ 1 → Completes (.virtualizationManagement c) c stSecondary 0 0 d s) ∧
      (act = 9 → v.online = false → v.poolState = 1 →
        (2 ≤ v.vq → 1 ≤ v.vi → Completes (.virtualizationManagement c) c stOk 0 0 (modifyCtrl id (fun v => { v with online := true }) d) s) ∧
        (v.vq < 2 ∨ v.vi = 0 → Completes (.virtualizationManagement c) c stSecondary 0 0 d s))))

/-- R541, R542 and R544, with the checks of R536, R537 and R543. -/
def Obligations.FirmwareIsDownloadedCommittedAndActivated : Prop :=
  (∀ (c : Cmd) (s : State), admitted c true s.dev = true →
    let d := taken c s.dev
    isPf d c.ctrl = true →
    (let len := 4 * (c.cdw10 + 1)
     let off := 4 * c.cdw11
     let held := if off = 0 then [] else d.fw.buffer
     len % 4096 = 0 → off % 4096 = 0 → zeroFrom 12 c = true →
      (d.fw.commit = none → off = held.length → off + len ≤ 16 * 2 ^ 20 →
        Completes (.firmwareImageDownload c) c stOk 0 0 { d with fw := { d.fw with buffer := held ++ padTo len c.data } } s) ∧
      (d.fw.commit.isSome = true ∨ off ≠ held.length → Completes (.firmwareImageDownload c) c stOverlap 0 0 d s)) ∧
    (∀ (i : Instr) (ca : Nat), (i, ca) ∈ [(Instr.firmwareCommitWrite c, 0), (.firmwareCommitActivateNext c, 1), (.firmwareCommitSelectSlot c, 2),
        (.firmwareCommitRestart c, 3)] →
      let fs := bits (withAction ca c).cdw10 2 0
      let slot := commitSlot d fs
      zeroBits (withAction ca c).cdw10 31 6 = true → zeroFrom 11 c = true → fs ≤ 2 →
      (d.fw.commit.isSome = true → Completes i c stFwProhibited 0 0 d s) ∧
      (d.fw.commit = none →
        (ca = 2 → fwValid d (norSlot d slot) = true → Completes i c stOk 0 0 { d with fw := { d.fw with active := slot } } s) ∧
        (ca = 2 → fwValid d (norSlot d slot) = false → Completes i c stFwSlot 0 0 d s) ∧
        (ca ≠ 2 → fwValid d d.fw.buffer = true → d.fw.buffer.length = fwLength d.fw.buffer → exec i s = .next
          { s with dev := { d with fw :=
            { d.fw with commit := some { ctrl := c.ctrl, cid := c.cid, slot := slot, action := ca, image := d.fw.buffer } } } }) ∧
        (ca ≠ 2 → fwValid d d.fw.buffer = false ∨ d.fw.buffer.length ≠ fwLength d.fw.buffer → Completes i c stFwImage 0 0 d s)))) ∧
  (∀ (now : Nat) (s : State) (w : FwCommit), s.dev.fw.commit = some w → w.slot < 2 → hasQueues w.ctrl 0 s.dev →
    ∃ t, exec (.firmwareSlotWriteDone now) s = .next t ∧ Posted w.ctrl 0 w.cid stOk 0 0 t.dev ∧
      norSlot t.dev w.slot = w.image ∧ norSlot t.dev (1 - w.slot) = norSlot s.dev (1 - w.slot) ∧ t.dev.fw.commit = none ∧
      t.dev.fw.active = (if w.action = 0 then s.dev.fw.active else w.slot) ∧ t.dev.fw.restartDue = (s.dev.fw.restartDue || decide (w.action = 3)) ∧
      t.dev.fw.running = s.dev.fw.running ∧ t.dev.fw.buffer = s.dev.fw.buffer ∧
      (s.dev.media.ready = false → t.dev.fw.mirror = s.dev.fw.mirror) ∧
      (s.dev.media.ready = true → (if w.slot = 0 then t.dev.fw.mirror[0] else t.dev.fw.mirror[1]) = w.image)) ∧
  (∀ (now : Nat) (s : State), s.dev.fw.restartDue = true →
    let d := stopHost (advanceTo now s.dev)
    ∃ t, exec (.firmwareActivationRestart now) s = .next t ∧
      t.dev = deviceReset 5 (if d.media.ready then modifyMedia (fun m => { m with shutdown := 1 }) (flushMedia d) else d) ∧
      t.dev.power.phase = .inReset ∧ t.dev.power.nextCause = 5 ∧ t.dev.host.ctrls = [] ∧ t.dev.fw.restartDue = false)

/-- R42, R87, R91, R215, R380, R390, R538 to R540, R543, R545 and R547; the place of the firmware's body is log entry 51. -/
def Obligations.StartBootTrainingAndMountReachService : Prop :=
  (∀ (now id : Nat) (bifurc bootsrc perst0 perst1 katA katB : Bool) (restored : List Nat) (s : State), s.dev.power.phase = .inReset →
    ∃ t, exec (.start now id bifurc bootsrc perst0 perst1 katA katB restored) s = .next t ∧
      t.dev.power.phase = (if bootsrc then .recovery else .boot) ∧ t.dev.cores[32].run = .running ∧
      objNum t.dev 0x101001 = id % 8 ∧ objNum t.dev 0x101002 = bifurc.toNat ∧ objNum t.dev 0x101003 = bootsrc.toNat ∧
      objNum t.dev 0xF00001 = s.dev.power.nextCause ∧ objNum t.dev 0xF00004 = 0 ∧
      t.dev.host.ctrls = (if bifurc && !bootsrc then [(1, { port := 0 }), (2, { port := 1 })] else [(1, { port := 0 })]) ∧
      t.dev.host.ports[0].perst = perst0 ∧ t.dev.host.ports[0].training = !perst0 ∧ t.dev.host.ports[0].speed = 0 ∧
      t.dev.host.ports[1].training = (bifurc && !bootsrc && !perst1) ∧ t.dev.host.ports[1].speed = 0 ∧
      t.dev.keys.estuary[0].state = (if s.dev.variant = .vl7e then 2 else if katA then 0 else 1) ∧
      t.dev.keys.estuary[1].state = (if s.dev.variant = .vl7s then (if katB then 0 else 1) else 2) ∧
      t.dev.mem = s.dev.mem ∧ t.dev.media.store = s.dev.media.store) ∧
  (∀ (port : Fin 2) (now : Nat) (s : State), ∃ t, exec (.perstDeassert port now) s = .next t ∧ t.dev.host.ports[port].perst = false ∧
    t.dev.host.ports[port].training = (decide (s.dev.power.phase ≠ .inReset ∧ s.dev.power.phase ≠ .off ∧ s.dev.power.phase ≠ .flushing) &&
      (decide (port = 0) || (decide (objNum s.dev 0x101002 = 1) && decide (s.dev.power.phase ≠ .recovery)))) ∧
    t.dev.host.ctrls = s.dev.host.ctrls ∧ t.dev.power = s.dev.power) ∧
  (∀ (now : Nat) (s : State), s.dev.power.phase = .boot → s.dev.power.imageUp = false →
    let d := advanceTo now s.dev
    let a := s.dev.fw.active
    let up := fun (slot : Nat) (passed : List Nat) => setNum 0x100005 (leField (norSlot d slot) 12 4) (modifyPower (fun p => { p with imageUp := true })
      (modifyFw (fun f => { f with running := slot + 1, passed := passed }) d))
    (fwValid d (norSlot d a) = true → exec (.bootImageVerify now) s = .next { s with dev := enterFirmware (up a []) }) ∧
    (fwValid d (norSlot d a) = false → a ≤ 1 → fwValid d (norSlot d (1 - a)) = true →
      exec (.bootImageVerify now) s = .next { s with dev := enterFirmware (up (1 - a) [a]) }) ∧
    (fwValid d (norSlot d a) = false → fwValid d (norSlot d (1 - a)) = false → ∃ t, exec (.bootImageVerify now) s = .next t ∧
      t.dev.power.phase = .recovery ∧ t.dev.fw.passed = [a, 1 - a] ∧ t.dev.fw.nor = s.dev.fw.nor ∧ t.dev.mem = s.dev.mem)) ∧
  (∀ d : Dev, d.power.imageUp = true → d.power.phase = .boot →
    (d.dram.failed = true → (enterFirmware d).power.phase = .dramFailed ∧ (enterFirmware d).mem = d.mem ∧ (enterFirmware d).fw.active = d.fw.running - 1) ∧
    (d.dram.failed = false → d.power.trained = true →
      let img := norSlot d (d.fw.running - 1)
      (enterFirmware d).power.phase = .firmware ∧ (enterFirmware d).cores[33].run = .running ∧
      (enterFirmware d).cores[32].pc = 0x80000000 + BitVec.ofNat 32 (leField img 20 4) ∧ (enterFirmware d).fw.active = d.fw.running - 1 ∧
      (enterFirmware d).mem = (storeBytes (dramKey (dramCapacity d.dram.cfg - 2 ^ 30)) (slice img 256 (leField img 16 4)) .clean d).mem) ∧
    (d.dram.failed = false → d.power.trained = false → enterFirmware d = d)) ∧
  (∀ (now : Nat) (sweeps : List (Fin 4 × Fin 10 × List Bool × List Bool)) (ok : Bool) (temp : Word) (s : State), s.dev.power.phase = .boot →
    s.dev.dram.trained = false → s.dev.dram.failed = false →
    let d := sweeps.foldl (fun d l => trainLane l d) (advanceTo now s.dev)
    (ok = true → dramCapacity s.dev.dram.cfg ≠ 0 → eyesWide d = true → ∃ t, exec (.dramTrainingDone now sweeps ok temp) s = .next t ∧
      t.dev.dram.trained = true ∧ t.dev.dram.failed = false ∧ t.dev.power.trained = true ∧ t.dev.dram.sub = d.dram.sub ∧
      objNum t.dev 0x341001 = temp.toNat ∧ t.dev.power.phase = (if s.dev.power.imageUp then .firmware else .boot)) ∧
    (ok = false ∨ dramCapacity s.dev.dram.cfg = 0 ∨ eyesWide d = false → ∃ t, exec (.dramTrainingDone now sweeps ok temp) s = .next t ∧
      t.dev.dram.failed = true ∧ t.dev.dram.trained = false ∧ t.dev.power.phase = (if s.dev.power.imageUp then .dramFailed else .boot))) ∧
  (∀ (now ce luns planes pages blocks cell metaBytes ms : Nat) (agree : Bool) (silent : List (Fin 16 × Nat)) (s : State), s.dev.power.phase = .firmware →
    let geo : Geometry := { ce := ce, luns := luns, planes := planes, pages := pages, blocks := blocks, cell := cell }
    ∃ t, exec (.mountDone now ce luns planes pages blocks cell metaBytes ms agree silent) s = .next t ∧ t.dev.power.phase = .ready ∧
      (∀ n : CoreId, coreExists s.dev.variant n = true → CoreId.isSupervisor n = false → t.dev.cores[n].run = .waiting) ∧
      (∀ id k, getCtrl s.dev id = some k → ∃ k', getCtrl t.dev id = some k' ∧ k'.ready = (k.enabled && decide (k.poolState ≠ 2)) ∧ k'.enabled = k.enabled) ∧
      (agree = false ∨ geometryOk geo = false → t.dev.media.state = 3 ∧ t.dev.media.ready = s.dev.media.ready ∧ t.dev.fw.floor = s.dev.fw.floor) ∧
      (agree = true → geometryOk geo = true → t.dev.media.ready = true ∧ t.dev.media.geo = geo ∧ t.dev.media.metaBytes = metaBytes ∧
        t.dev.media.shutdown = 0 ∧ t.dev.fw.floor = max s.dev.fw.floor (leField (norSlot s.dev (s.dev.fw.running - 1)) 8 4) ∧
        (silent = [] → t.dev.media.nss = s.dev.media.nss)))

/-- R57, R199 and R461 for resets, R48, R56, R60 and R62 to R64 for the sequence, R378 for media; what the private record holds of a shutdown is log entry 41. -/
def Obligations.ResetsAndThePowerFailSequenceKeepWhatLasts : Prop :=
  (∀ (cause : Nat) (d : Dev),
    let r := deviceReset cause d
    r.power.phase = .inReset ∧ r.power.nextCause = cause ∧ r.power.coasting.isSome = true ∧ r.tm = d.tm ∧ r.host.ctrls = [] ∧ r.reqs = [] ∧
    r.sess.tab = [] ∧ r.keys.slots = [] ∧ r.keys.nsKeysReady = false ∧ r.rt.calls = [] ∧ r.cores = Vector.ofFn FxCore.atReset ∧
    (∀ c, c ∈ r.mem ↔ c ∈ d.mem ∧ romBase ≤ c.1 ∧ c.1 < dramBase) ∧
    (∀ kv, kv ∈ r.num ↔ kv ∈ d.num ∧ (keptNum kv.1 = true ∨ sincePowerOn kv.1 = true)) ∧
    (∀ u, u ∈ r.media.units ↔ u ∈ d.media.units ∧ u.2.programmed = true) ∧ r.media.durable = d.media.durable ∧ r.media.titles = d.media.titles ∧
    r.media.ready = false ∧ r.media.buffer = [] ∧ r.media.journal = [] ∧
    (∀ p, mapGet r.profiles p = (mapGet d.profiles p).map fun x => { image := x.image }) ∧
    (d.fw.commit = none → r.fw.nor = d.fw.nor) ∧ r.fw.active = d.fw.active ∧ r.fw.floor = d.fw.floor ∧ r.fuses = d.fuses ∧ r.wear = d.wear) ∧
  (∀ s : State, ∃ t, exec .powerOnReset s = .next t ∧ t.dev.tm = 0 ∧ t.dev.power.phase = .inReset ∧ t.dev.power.nextCause = 0 ∧
    t.dev.power.coasting = none ∧ t.dev.host.ctrls = [] ∧ (∀ kv, kv ∈ t.dev.num ↔ kv ∈ s.dev.num ∧ keptNum kv.1 = true ∧ sincePowerOn kv.1 = false) ∧
    t.dev.media = (deviceReset 0 s.dev).media ∧ t.dev.keys = (deviceReset 0 s.dev).keys) ∧
  (∀ (now low : Nat) (s : State),
    let d := advanceTo now s.dev
    let d' := { d with freeCount := d.freeCount + 1 }
    (10000 ≤ low → s.dev.power.phase ≠ .flushing → exec (.sysRstAssert now low) s = .next { s with dev := deviceReset 1 d }) ∧
    (10000 ≤ low → s.dev.power.phase = .flushing →
      exec (.sysRstAssert now low) s = .next { s with dev := { d with power := { d.power with resetDeferred := true } } }) ∧
    (low < 1000 → exec (.sysRstAssert now low) s = .next { s with dev := d }) ∧
    (1000 ≤ low → low < 10000 → s.dev.power.phase ≠ .flushing →
      exec (.sysRstAssert now low) s = .next { s with dev := d' } ∨ exec (.sysRstAssert now low) s = .next { s with dev := deviceReset 1 d' })) ∧
  (∀ (i : Instr) (now by_ : Nat) (s : State),
    ((∃ low, 2000 ≤ low ∧ i = .plpAssert now low ∧ by_ = 1) ∨ (∃ rail, i = .railBrownout rail now ∧ by_ = 2) ∨
      (∃ sensor tj, i = .thermalTrip sensor tj now ∧ by_ = 3)) → canFail s.dev = true →
    ∃ t, exec i s = .next t ∧ t.dev.power.phase = .flushing ∧ t.dev.power.offBy = by_ ∧ t.dev.power.state = 0 ∧ t.dev.weir.tokens = 64 ∧
      t.dev.reqs = [] ∧ t.dev.rt.calls = [] ∧ t.dev.media.waits = [] ∧ t.dev.fw.commit = none ∧ t.dev.integ.dredge.state ≠ 1 ∧
      (∀ id k, getCtrl t.dev id = some k → k.sqs = [] ∧ k.cqs = [] ∧ k.aers = []) ∧
      (by_ = 3 → Output.thermtrip ∈ t.dev.out ∧ t.dev.power.thermtrip = true)) ∧
  (∀ (now low : Nat) (s : State),
    (low < 1000 → exec (.plpAssert now low) s = .next { s with dev := advanceTo now s.dev }) ∧
    (s.dev.power.phase = .flushing → 2000 ≤ low → ∃ t, exec (.plpAssert now low) s = .next t ∧ SameWork (advanceTo now s.dev) t.dev) ∧
    (s.dev.power.phase = .inReset ∨ s.dev.power.phase = .off → ∀ rail, exec (.railBrownout rail now) s = .next { s with dev := advanceTo now s.dev })) ∧
  (∀ (now : Nat) (complete : Bool) (s : State), s.dev.power.phase = .flushing → ∃ t, exec (.powerFailFlushDone now complete) s = .next t ∧
    (s.dev.power.resetDeferred = true → t.dev.power.phase = .inReset ∧ t.dev.power.nextCause = 1) ∧
    (s.dev.power.resetDeferred = false → t.dev.power.phase = .off ∧ t.dev.power.coasting.isSome = true ∧ t.dev.keys.slots = [] ∧
      (∀ p : Fin 2, t.dev.host.ports[p].speed = 0 ∧ t.dev.host.ports[p].training = false) ∧
      (complete = false → t.dev.media = s.dev.media) ∧
      (complete = true → t.dev.media.shutdown = (if s.dev.power.offBy = 4 then 1 else 2) ∧ (s.dev.media.ready = true → t.dev.media.journal = [])))) ∧
  (∀ (now : Nat) (s : State), (s.dev.power.phase = .off → exec (.powerReturn now) s = .next { s with dev := deviceReset 4 (advanceTo now s.dev) }) ∧
    (s.dev.power.phase ≠ .off → exec (.powerReturn now) s = .next { s with dev := advanceTo now s.dev }))

/-- R427 to R429 and R433 to R444. -/
def Obligations.SleepWakeAndCoastingFollowThePowerRules : Prop :=
  (∀ (ctrl now : Nat) (s : State) (k : Ctrl), getCtrl s.dev ctrl = some k → k.enabled = true → bit (mapGetD k.features 0x0C 0) 0 = true →
    let e := apstEntry (mapGetD k.features 0x1000C 0) k.ps
    e.2 ≠ 0 → k.ps < e.1 → e.1 ≤ 4 →
      exec (.autonomousPowerStateTransition ctrl now) s = .next { s with dev := setPs ctrl e.1 (advanceTo now s.dev) }) ∧
  (∀ (port : Fin 2) (now : Nat) (s : State), ∃ t, exec (.linkL1Entry port now) s = .next t ∧
    t.dev.host.ports[port].l1 = decide (s.dev.host.ports[port].speed ≠ 0) ∧ t.dev.power = s.dev.power ∧ t.dev.host.ctrls = s.dev.host.ctrls) ∧
  (∀ (now : Nat) (s : State), s.dev.power.phase = .ready → s.dev.power.state < 2 → s.dev.power.sleepRequest = none →
    let d := advanceTo now s.dev
    (2 ≤ requestState d → commandsOut d false = false → s.dev.reqs = [] → exec (.autoDoze now) s =
      .next { s with dev := { d with power := { d.power with sleepRequest := some (requestState d), autoFrom := none } } }) ∧
    (requestState d < 2 → autoDozeDue d = true → exec (.autoDoze now) s =
      .next { s with dev := { d with power := { d.power with sleepRequest := some 2, autoFrom := some d.power.state } } })) ∧
  (∀ (now wake : Nat) (s : State), s.dev.power.phase = .ready → s.dev.power.state < 2 → s.dev.power.sleepRequest = some 2 →
    ∃ t, exec (.dozeEntry now wake) s = .next t ∧ t.dev.power.sleepRequest = none ∧ t.dev.power.latches = 0 ∧
      (wakeAllowed s.dev false wake = 0 → t.dev.power.state = 2 ∧ (∀ i : Fin 4, t.dev.dram.sub[i].selfRefresh = true) ∧
        (∀ p : Fin 2, t.dev.host.ports[p].l1 = decide (s.dev.host.ports[p].speed ≠ 0)) ∧ objNum t.dev 0x305105 = objNum s.dev 0x305105 + 1 ∧
        t.dev.integ.dredge.suspended = decide (s.dev.integ.dredge.state = 1)) ∧
      (wakeAllowed s.dev false wake ≠ 0 → t.dev.power.state = s.dev.power.state ∧ (∀ i : Fin 4, t.dev.dram.sub[i].selfRefresh = false) ∧
        objNum t.dev 0x305102 = wakeAllowed s.dev false wake ∧ objNum t.dev 0x305104 = objNum s.dev 0x305104 + 1)) ∧
  (∀ (now : Nat) (s : State), s.dev.power.phase = .ready → s.dev.power.sleepRequest = some 3 → s.dev.power.slumberEntry = false →
    s.dev.power.state ≠ 3 → ∃ t, exec (.slumberEntry now) s = .next t ∧ t.dev.power.slumberEntry = true ∧ t.dev.power.latches = 0 ∧
      (∀ i : Fin 4, t.dev.dram.sub[i].selfRefresh = true) ∧ t.dev.media.journal = []) ∧
  (∀ (now late : Nat) (s : State), s.dev.power.phase = .ready → s.dev.power.slumberEntry = true → s.dev.power.exiting = none →
    ∃ t, exec (.slumberCommitPoint now late) s = .next t ∧ t.dev.power.slumberEntry = false ∧
      (s.dev.power.latches ≠ 0 → t.dev.power.state = s.dev.power.state ∧ t.dev.power.sleepRequest = none ∧
        objNum t.dev 0x305102 = s.dev.power.latches ∧ ∀ i : Fin 4, t.dev.dram.sub[i].selfRefresh = false) ∧
      (s.dev.power.latches = 0 → t.dev.power.state = 3 ∧ t.dev.power.coasting = some (max s.dev.tm now) ∧ t.dev.power.xtalLocked = false ∧
        t.dev.power.exiting = (if wakeAllowed s.dev true late = 0 then none else some 0) ∧ objNum t.dev 0x305106 = objNum s.dev 0x305106 + 1)) ∧
  (∀ (now ports other held levels : Nat) (frame : Bytes) (toSelf : Bool) (s : State), s.dev.power.phase = .ready → s.dev.power.slumberEntry = false →
    let fb := decide (s.dev.power.state = 2) && wakeFrame s.dev frame toSelf
    let c := (if ports % 4 ≠ 0 then 1 else 0) ||| (other &&& 0x8A) ||| (if fb then 4 else 0) ||| (if gpioWake s.dev held levels then 0x20 else 0)
    ∃ t, exec (.wakeLatch now ports other held levels frame toSelf) s = .next t ∧
      (∀ p : Fin 2, bit ports p.val = true → t.dev.host.ports[p].l1 = false) ∧
      (s.dev.power.state < 2 → t.dev.power = s.dev.power) ∧
      (s.dev.power.state = 2 → wakeAllowed s.dev false c ≠ 0 → t.dev.power.state = s.dev.power.autoFrom.getD (awakeState s.dev) ∧
        t.dev.power.sleepRequest = none ∧ objNum t.dev 0x305102 = wakeAllowed s.dev false c ∧ ∀ i : Fin 4, t.dev.dram.sub[i].selfRefresh = false) ∧
      (s.dev.power.state = 2 → wakeAllowed s.dev false c = 0 → t.dev.power = s.dev.power) ∧
      (s.dev.power.state = 3 → s.dev.power.exiting = none → wakeAllowed s.dev true c ≠ 0 → t.dev.power.exiting = some 0 ∧ t.dev.power.state = 3 ∧
        t.dev.power.latches = wakeAllowed s.dev true c ∧ t.dev.power.exitAt = max s.dev.tm now ∧ objNum t.dev 0x305102 = wakeAllowed s.dev true c)) ∧
  (∀ (now : Nat) (s : State),
    let d := advanceTo now s.dev
    exec (.rtcAlarm now) s = .next { s with dev := if objNum s.dev 0x305107 ≠ 0 ∧ objNum s.dev 0x305107 ≤ d.tm then latchWake 0x10 d else d }) ∧
  (∀ (now k : Nat) (s : State), s.dev.power.exiting = some k → k < 8 → ∃ t, exec (.islandStageRelease now) s = .next t ∧
    t.dev.power.exiting = some (k + 1) ∧ (k = 0 → ∀ i : Fin 4, t.dev.dram.sub[i].selfRefresh = false)) ∧
  (∀ (now : Nat) (s : State), s.dev.power.exiting.isSome = true ∨ s.dev.power.state ≠ 3 →
    let d := advanceTo now s.dev
    exec (.xtal25Lock now) s = .next { s with dev := { d with power := { d.power with xtalLocked := true } } }) ∧
  (∀ (n te : Nat) (s : State), s.dev.power.coasting = some te → s.dev.power.xtalLocked = true → s.dev.power.phase ≠ .off →
    s.dev.power.phase ≠ .inReset → (s.dev.power.exiting = none ∨ s.dev.power.exiting = some 8) →
    let x := te + (n * 1000000000 + 16384) / 32768
    ∃ t, exec (.tidemarkHandover n) s = .next t ∧ t.dev.tm = max s.dev.tm x ∧ t.dev.power.coasting = none ∧ objNum t.dev 0x305301 = 1 ∧
      objNum t.dev 0x305303 = n ∧ objNum t.dev 0x305304 = 30518 + ceilDiv ((x - te) * objNum s.dev 0x305305) 1000000 ∧
      (s.dev.power.exiting = some 8 → t.dev.power.exiting = none ∧ t.dev.power.state = awakeState s.dev ∧ t.dev.power.latches = 0))

/-- R86, R89, R91, R110, R111, R117, R118, R120, R538 step 11 and R547. -/
def Obligations.PortsFunctionsAndEnablesFollowTheHost : Prop :=
  (∀ (port : Fin 2) (now : Nat) (s : State), s.dev.host.ports[port].perst = false →
    let d := dropLink port (gaugeCount 0x06A (latchWake 2 (modifyPort port (fun q => { q with perst := true, training := false }) (advanceTo now s.dev))))
    ∃ t, exec (.perstAssert port now) s = .next t ∧ t.dev = (if hostRuns d then resetPort port d else d) ∧ t.dev.host.ports[port].perst = true ∧
      t.dev.host.ports[port].training = false ∧ t.dev.host.ports[port].speed = 0) ∧
  (∀ (port : Fin 2) (now : Nat) (s : State),
    let d := dropLink port (advanceTo now s.dev)
    ∃ t, exec (.linkDown port now) s = .next t ∧ t.dev = (if hostRuns d then resetPort port d else d) ∧ t.dev.host.ports[port].speed = 0) ∧
  (∀ (port : Fin 2) (speed width now : Nat) (s : State),
    let q := s.dev.host.ports[port]
    q.training = true → q.perst = false → q.speed = 0 → hostRuns s.dev = true → 1 ≤ speed → speed ≤ objNum s.dev 0x400101 →
    width = 1 ∨ width = 2 ∨ width = 4 ∨ (width = 8 ∧ objNum s.dev 0x101002 ≠ 1) →
    let d := applyRequest (modifyPort port (fun q => { q with speed := speed, width := width, l1 := false }) (advanceTo now s.dev))
    exec (.linkUp port speed width now) s = .next { s with dev := tryFormation d } ∧ d.host.ports[port].speed = speed ∧
      d.host.ports[port].width = width ∧ d.host.ports[port].l1 = false ∧ d.host.ctrls = s.dev.host.ctrls ∧
      ∀ p : Fin 2, p ≠ port → d.host.ports[p] = s.dev.host.ports[p]) ∧
  (∀ (ctrl now : Nat) (s : State) (k : Ctrl), reached ctrl now s.dev = true →
    let d := heard (portOf (advanceTo now s.dev) ctrl) now s.dev
    getCtrl d ctrl = some k →
    (k.vf = 0 → exec (.flr ctrl now) s = .next { s with dev := resetPf (portIdx k.port) (gaugeCount 0x068 d) }) ∧
    (k.vf ≠ 0 → exec (.flr ctrl now) s = .next { s with dev := applyRequest (resetFunction ctrl (gaugeCount 0x068 d)) }) ∧
    ((∀ q ∈ k.sqs, q.2.inflight = []) →
      exec (.busMasterEnableClear ctrl now) s = .next { s with dev := modifyCtrl ctrl (fun c => { c with busMaster := false }) d }) ∧
    ((∃ q ∈ k.sqs, q.2.inflight ≠ []) → ∃ w, exec (.busMasterEnableClear ctrl now) s = .next { s with dev := setCfs ctrl (stopCommands ctrl w) } ∧
      ∃ k', getCtrl w ctrl = some k' ∧ k'.busMaster = false ∧ ∀ q ∈ k'.sqs, q.2.inflight = [])) ∧
  (∀ (port : Fin 2) (now value : Nat) (s : State), reached (pfOf port) now s.dev = true →
    let d := heard (portOf (advanceTo now s.dev) (pfOf port)) now s.dev
    let q := d.host.ports[port]
    let on := modifyPort port (fun q => { q with vfEnable := true }) d
    (q.vfEnable = false → exec (.vfEnableSet port now) s =
      .next { s with dev := (List.range q.numVfs).foldl (fun d i => enableVf port (i + 1) d) on }) ∧
    (q.vfEnable = true → exec (.vfEnableSet port now) s = .next { s with dev := d }) ∧
    exec (.vfEnableClear port now) s = .next { s with dev := applyRequest (clearVfEnable port d) } ∧
    (clearVfEnable port d).host.ports[port].vfEnable = false ∧
    (q.vfEnable = false → value ≤ q.totalVfs →
      exec (.numvfsWrite port value now) s = .next { s with dev := modifyPort port (fun q => { q with numVfs := value }) d }) ∧
    (q.vfEnable = true ∨ q.totalVfs < value → exec (.numvfsWrite port value now) s = .next { s with dev := d })) ∧
  (∀ (p : Fin 2) (n : Nat) (d : Dev),
    let id := 0x100 * (p.val + 1) + n
    let c : Ctrl := { port := p.val, vf := n, dvf := if p = 0 then n else n + d.host.ports[0].totalVfs }
    let vq := min 16 d.host.flexVq[p]
    let vi := min 16 d.host.flexVi[p]
    (∀ x, x ≠ id → getCtrl (enableVf p n d) x = getCtrl d x) ∧
    (reservationFits d c = true → 2 ≤ vq → 1 ≤ vi → getCtrl (enableVf p n d) id = some { c with online := true, poolState := 1, vq := vq, vi := vi } ∧
      (enableVf p n d).host.flexVq[p] = d.host.flexVq[p] - vq ∧ (enableVf p n d).host.flexVi[p] = d.host.flexVi[p] - vi) ∧
    (reservationFits d c = false ∨ vq < 2 ∨ vi = 0 → getCtrl (enableVf p n d) id = some { c with online := false, poolState := 2, vq := 1, vi := 0 } ∧
      (enableVf p n d).host.flexVq = d.host.flexVq ∧ (enableVf p n d).host.flexVi = d.host.flexVi)) ∧
  (∀ (ctrl now : Nat) (s : State) (k : Ctrl), barsOpen ctrl now s.dev = true →
    let d := heard (portOf (advanceTo now s.dev) ctrl) now s.dev
    getCtrl d ctrl = some k →
    (k.enabled = false → ∃ t k', exec (.ccEnable ctrl now) s = .next t ∧ getCtrl t.dev ctrl = some k' ∧ k'.enabled = true ∧
      ((k.vf ≠ 0 ∧ k.poolState = 2) ∨ d.power.phase = .dramFailed ∨ k.online = false → k'.cfs = true ∧ k'.ready = k.ready) ∧
      (¬(k.vf ≠ 0 ∧ k.poolState = 2) → d.power.phase ≠ .dramFailed → k.online = true →
        k'.ready = decide (d.power.phase = .ready ∨ d.power.phase = .recovery) ∧ k'.ps = 0 ∧
        mapGet k'.sqs 0 = some { cq := 0, size := bits k.aqa 11 0 + 1 } ∧ mapGet k'.cqs 0 = some { size := bits k.aqa 27 16 + 1 })) ∧
    (k.enabled = true → exec (.ccEnable ctrl now) s = .next { s with dev := d } ∧
      exec (.ccDisable ctrl now) s = .next { s with dev := resetController ctrl d }) ∧
    (k.enabled = false → exec (.ccDisable ctrl now) s = .next { s with dev := d })) ∧
  (∀ c : Ctrl, (ctrlAtReset c).enabled = false ∧ (ctrlAtReset c).ready = false ∧ (ctrlAtReset c).cfs = false ∧ (ctrlAtReset c).sqs = [] ∧
    (ctrlAtReset c).cqs = [] ∧ (ctrlAtReset c).features = [] ∧ (ctrlAtReset c).aers = [] ∧ (ctrlAtReset c).windows = c.windows ∧
    (functionAtReset c).enabled = false ∧ (functionAtReset c).sqs = [] ∧ (functionAtReset c).windows = [] ∧ (functionAtReset c).vq = c.vq ∧
    (functionAtReset c).vf = c.vf ∧ (functionAtReset c).poolState = c.poolState)

/-- R90, R91, R93, R94, R96, R120, R428, R439 and R483. -/
def Obligations.HostTrafficAndRegisterWritesActAsTheRulesSay : Prop :=
  (∀ (now ctrl sq cid : Nat) (list : Bool) (s : State),
    let d := advanceTo now s.dev
    exec (.dmaReadCompletion now ctrl sq cid list true) s = .next { s with dev := d } ∧
    ∀ i : Instr, i = .dmaReadCompletion now ctrl sq cid list false ∨ i = .completionTimeout now ctrl sq cid list →
      ∀ k : Ctrl, getCtrl s.dev ctrl = some k → k.enabled = true →
        (list = true → ∃ t k', exec i s = .next t ∧ getCtrl t.dev ctrl = some k' ∧ k'.cfs = true ∧ t.dev.reqs = s.dev.reqs ∧ t.dev.media = s.dev.media) ∧
        (list = false → ∀ tag r, (d.reqs.find? fun kr => kr.2.ctrl = ctrl && kr.2.sq = sq && kr.2.cid = cid && kr.2.step = .arriving) = some (tag, r) →
          exec i s = .next { s with dev := finishReq tag stTransfer d })) ∧
  (∀ (now ctrl : Nat) (header : Bytes) (s : State),
    let p := portOf (advanceTo now s.dev) ctrl
    linkUp s.dev p.val = true → hostRuns (heard p now s.dev) = true →
    (∃ t, exec (.unexpectedCompletion now ctrl header) s = .next t ∧ SameWork (heard p now s.dev) t.dev ∧
      Output.aer ctrl "Unexpected Completion" ∈ t.dev.out) ∧
    (∃ t, exec (.malformedTlp now ctrl header) s = .next t ∧ SameWork (heard p now s.dev) t.dev ∧ Output.aer ctrl "Malformed TLP" ∈ t.dev.out)) ∧
  (∀ (now ctrl tag page : Nat) (s : State) (k : Ctrl), reached ctrl now s.dev = true →
    let d := heard (portOf (advanceTo now s.dev) ctrl) now s.dev
    getCtrl d ctrl = some k →
    (dmaRuns d ctrl = false → ∃ t, exec (.atsInvalidate now ctrl tag page) s = .next t ∧ SameWork d t.dev ∧
      Output.atsComplete (portIdx k.port).val tag ∈ t.dev.out) ∧
    (dmaRuns d ctrl = true → ∃ t, exec (.atsInvalidate now ctrl tag page) s = .next t ∧
      t.dev.host.ports[portIdx k.port].invalidations = d.host.ports[portIdx k.port].invalidations ++ [(tag, ctrl, page)] ∧ t.dev.reqs = d.reqs) ∧
    (∀ (field : ConfigField) (on : Bool), (field = .busMaster → on = true) → exec (.registerWrite now (.config ctrl field on)) s = .next { s with dev :=
      (match field with
        | .memSpace => modifyCtrl ctrl (fun c => { c with memSpace := on }) d
        | .busMaster => modifyCtrl ctrl (fun c => { c with busMaster := true }) d
        | .ats => modifyCtrl ctrl (fun c => { c with ats := on }) d
        | .pri => modifyCtrl ctrl (fun c => { c with pri := on, priStopped := c.priStopped && !(on && !c.pri) }) d
        | .d3hot => applyRequest (modifyCtrl ctrl (fun c => { c with pm := if c.vf = 0 then c.pm / 2 * 2 + on.toNat else c.pm }) d)
        | .pmeEn => modifyCtrl ctrl (fun c => { c with pm := if c.vf = 0 then c.pm % 2 + 2 * on.toNat else c.pm }) d) }) ∧
    exec (.registerWrite now (.config ctrl .busMaster false)) s = exec (.busMasterEnableClear ctrl now) s) ∧
  (∀ (ctrl tag now : Nat) (s : State) (k : Ctrl), getCtrl s.dev ctrl = some k → tag ∈ k.pageRequests →
    let off := fun (stop : Bool) (d : Dev) =>
      modifyCtrl ctrl (fun c => { c with pageRequests := c.pageRequests.filter (· ≠ tag), priStopped := c.priStopped || stop }) d
    exec (.pageRequestResponse ctrl tag 0) s =
      .next { s with dev := nextPage ctrl (modifyReq tag (fun r => { r with pageTag := none }) (off false s.dev)) } ∧
    (∀ code, code ≠ 0 → exec (.pageRequestResponse ctrl tag code) s =
      .next { s with dev := nextPage ctrl (finishReq tag stTransfer (off (decide (code ≠ 1)) s.dev)) }) ∧
    exec (.pageRequestTimeout ctrl tag now) s = .next { s with dev := nextPage ctrl (finishReq tag stTransfer (off false (advanceTo now s.dev))) }) ∧
  (∀ (now ctrl bar off len : Nat) (s : State) (k : Ctrl), barsOpen ctrl now s.dev = true →
    let d := heard (portOf (advanceTo now s.dev) ctrl) now s.dev
    getCtrl d ctrl = some k →
    (off + len ≤ barSize k bar → ∃ t, exec (.barRead now ctrl bar off len) s = .next t ∧ SameWork d t.dev ∧
      Output.barData ctrl off (barValue k bar off len).1 ∈ t.dev.out) ∧
    (barSize k bar < off + len → ∃ t, exec (.barRead now ctrl bar off len) s = .next t ∧ SameWork d t.dev ∧ Output.unsupported ctrl ∈ t.dev.out) ∧
    (∀ bs : Bytes, bs.length = 4 →
      exec (.registerWrite now (.bar ctrl 0 0x24 bs false)) s = .next { s with dev := modifyCtrl ctrl (fun c => { c with aqa := leNat bs }) d } ∧
      (∀ q, q < 1024 → exec (.registerWrite now (.bar ctrl 0 (0x1000 + 8 * q) bs false)) s =
          .next { s with dev := tailDoorbell ctrl q (leNat bs % 65536) d } ∧
        exec (.registerWrite now (.bar ctrl 0 (0x1004 + 8 * q) bs false)) s = .next { s with dev := headDoorbell ctrl q (leNat bs % 65536) d }) ∧
      (∃ t, exec (.registerWrite now (.bar ctrl 0 0x1C bs false)) s = .next t ∧ SameWork d t.dev) ∧
      (∀ v, v < msixSize k → exec (.registerWrite now (.bar ctrl 4 (16 * v) bs false)) s =
        .next { s with dev := sendPending ctrl (modifyCtrl ctrl (fun c => { c with msix := mapSet c.msix (4 * v) (leField bs 0 4) }) d) })) ∧
    (∀ bs : Bytes, bs.length = 8 →
      exec (.registerWrite now (.bar ctrl 0 0x28 bs false)) s = .next { s with dev := modifyCtrl ctrl (fun c => { c with asq := leNat bs / 4096 * 4096 }) d } ∧
      exec (.registerWrite now (.bar ctrl 0 0x30 bs false)) s = .next { s with dev := modifyCtrl ctrl (fun c => { c with acq := leNat bs / 4096 * 4096 }) d } ∧
      (∃ t, exec (.registerWrite now (.bar ctrl 0 0x28 bs true)) s = .next t ∧ SameWork d t.dev ∧ Output.aer ctrl "Poisoned TLP Received" ∈ t.dev.out))) ∧
  (∀ (now : Nat) (v : Via) (i sub ty off : Nat) (last : Bool) (data : Bytes) (np : List Nat) (old : Nat) (s : State),
    let d := advanceTo now s.dev
    exec (.registerWrite now (.object v i sub ty off last data np)) s = .next { s with dev := writeVia v i sub ty off last data np d } ∧
    (d.txn.state = 1 → d.txn.owner = some (.mctp old) →
      exec (.registerWrite now (.mctpEid old)) s = .next { s with dev := gaugeCount 0x07E (rollbackTxn d) }))

/-- R201 to R207, R210, R211, R215, R216, R218. -/
def Obligations.KeySlotsAreAllocatedLoadedErasedAndAlarmed : Prop :=
  (∀ (c : Cmd) (s : State), admitted c true s.dev = true → c.ctrl ≠ 0 →
    let d := taken c s.dev
    let type := bits c.cdw10 1 0
    let n := bits c.cdw11 12 0
    let good := type ≠ 3 ∧ zeroBits c.cdw10 30 2 = true ∧ zeroBits c.cdw11 31 13 = true ∧ zeroFrom 12 c = true
    let given (n : Nat) : Prop := Completes (.keySlotAllocate c) c stOk (n + 65536 * (keySlot d n).lastGen) 0
      (modifySlot n (fun x => { x with allocated := true, type := type, owner := c.ctrl }) d) s
    (¬good → Completes (.keySlotAllocate c) c stField 0 0 d s) ∧
    (good → d.keys.locked = true → Completes (.keySlotAllocate c) c stLocked 0 0 d s) ∧
    (good → d.keys.locked = false → type = 0 → isPf d c.ctrl = false → Completes (.keySlotAllocate c) c stSlotType 0 0 d s) ∧
    (good → d.keys.locked = false → (type = 0 → isPf d c.ctrl = true) →
      (bit c.cdw10 31 = false → withinLimit d .keySlots c.ctrl = true → ∀ m, lowestSlot d = some m → given m) ∧
      (bit c.cdw10 31 = true → specificFree d c.ctrl type n = true → withinLimit d .keySlots c.ctrl = true → given n) ∧
      (bit c.cdw10 31 = true → specificFree d c.ctrl type n = false → Completes (.keySlotAllocate c) c stSlotUnavail 0 0 d s) ∧
      (bit c.cdw10 31 = false → withinLimit d .keySlots c.ctrl = false ∨ lowestSlot d = none → Completes (.keySlotAllocate c) c stSlotsOut 0 0 d s))) ∧
  (∀ (d : Dev) (n : Nat), lowestSlot d = some n → slotFree d n = true ∧ n < 8192 ∧ ∀ m, m < n → slotFree d m = false) ∧
  (∀ (c : Cmd) (s : State), admitted c true s.dev = true → c.ctrl ≠ 0 → zeroBits c.cdw10 30 13 = true → zeroFrom 11 c = true → bit c.cdw10 31 = false →
    let d := taken c s.dev
    let n := bits c.cdw10 12 0
    let b := padTo 128 c.data
    let k := keySlot d n
    loadFieldsOk b = true →
    (k.allocated = false ∨ k.owner ≠ c.ctrl → Completes (.keySlotLoad c) c stNotOwned 0 0 d s) ∧
    (k.allocated = true → k.owner = c.ctrl →
      (d.keys.locked = true ∨ d.keys.kek1 = none → Completes (.keySlotLoad c) c stLocked 0 0 d s) ∧
      (∀ kek, d.keys.locked = false → d.keys.kek1 = some kek →
        (slotTypeOf (leField b 2 1) ≠ some k.type ∨ leField b 4 2 ≠ keyBytes (leField b 2 1) + 8 ∨ leField b 3 1 ≠ 1 →
          Completes (.keySlotLoad c) c stField 0 0 d s) ∧
        (slotTypeOf (leField b 2 1) = some k.type → leField b 4 2 = keyBytes (leField b 2 1) + 8 → leField b 3 1 = 1 →
          (keyUnwrap kek (slice b 48 (leField b 4 2)) = none → Completes (.keySlotLoad c) c stUnwrap 0 0 (bump 0x581006 d) s) ∧
          (∀ key, keyUnwrap kek (slice b 48 (leField b 4 2)) = some key →
            (keyRefused d (some n) b key = true → Completes (.keySlotLoad c) c stKcv 0 0 d s) ∧
            (keyRefused d (some n) b key = false → k.retiring = none → k.held = [] → relayTargets d = [] →
              Completes (.keySlotLoad c) c stOk (nextGen k.lastGen) (kcvFor (leField b 2 1) key) (modifySlot n (installSlot d.tm (genOfLoad b key)) d) s) ∧
            (keyRefused d (some n) b key = false → k.retiring.isSome = true →
              exec (.keySlotLoad c) s = .next
                { s with
                  dev := modifySlot n (fun x => { x with
                    held := x.held ++ [{ ctrl := c.ctrl, cid := c.cid, new := genOfLoad b key, buf := b, since := d.tm }] }) d })))))) ∧
  (∀ (n m : Nat) (f : KeySlot → KeySlot) (d : Dev), m ≠ n → keySlot (modifySlot n f d) m = keySlot d m ∧ keySlot (modifySlot n f d) n = f (keySlot d n)) ∧
  (∀ (c : Cmd) (s : State), admitted c true s.dev = true → c.ctrl ≠ 0 → zeroBits (withTargetKek c).cdw10 30 13 = true → zeroFrom 11 c = true →
    let d := taken c s.dev
    let b := padTo 128 c.data
    loadFieldsOk b = true →
    (isPf d c.ctrl = false → Completes (.kekLoad c) c stSlotType 0 0 d s) ∧
    (isPf d c.ctrl = true →
      (d.keys.locked = true ∨ (leField b 3 1 = 1 ∧ d.keys.kek1 = none) → Completes (.kekLoad c) c stLocked 0 0 d s) ∧
      (∀ key, d.keys.locked = false → (leField b 3 1 = 1 → d.keys.kek1 ≠ none) → leField b 2 1 = 5 → leField b 4 2 = 40 → unwrapLoad none b d = .ok key →
        Completes (.kekLoad c) c stOk 0 (kcvOf key)
          (unwrapMgmt (setNum 0x581005 (d.tm % 2 ^ 64) (modifyKeys (fun k => { k with kek1 := some key }) d))) s))) ∧
  (∀ (c : Cmd) (s : State), admitted c true s.dev = true → c.ctrl ≠ 0 → zeroBits c.cdw10 15 13 = true → zeroBits c.cdw10 31 17 = true →
    zeroFrom 11 c = true →
    let d := taken c s.dev
    let n := bits c.cdw10 12 0
    let k := keySlot d n
    (k.allocated = false ∨ k.owner ≠ c.ctrl → Completes (.keySlotErase c) c stNotOwned 0 0 d s) ∧
    (k.allocated = true → k.owner = c.ctrl → relayTargets d = [] → (∀ kr ∈ d.reqs, usesSlot n kr.2 = false) → k.held = [] →
      (bit c.cdw10 16 = true → Completes (.keySlotErase c) c stOk 0 0
        (modifySlot n (fun x => { x with current := none, retiring := none, changedAt := d.tm }) d) s) ∧
      (bit c.cdw10 16 = false → Completes (.keySlotErase c) c stOk 0 0
        (modifySlot n (fun x => { x with current := none, retiring := none, changedAt := d.tm, allocated := false, owner := 0, type := 0 }) d) s)) ∧
    (k.allocated = true → k.owner = c.ctrl → relayTargets d = [] → bit c.cdw10 16 = false →
      ∃ t, exec (.keySlotErase c) s = .next t ∧ Posted c.ctrl c.sq c.cid stOk (reqTags d (usesSlot n)).length 0 t.dev ∧
        (keySlot t.dev n).allocated = false ∧ (keySlot t.dev n).current = none ∧ (keySlot t.dev n).retiring = none ∧ (keySlot t.dev n).held = [] ∧
        (keySlot t.dev n).lastGen = k.lastGen)) ∧
  (∀ (n now : Nat) (s : State) (h : HeldLoad) (hs : List HeldLoad),
    let d := advanceTo now s.dev
    (keySlot d n).held = h :: hs →
    (d.tm < h.since + 1000000000 → exec (.generationBusyTimeout n now) s = .next { s with dev := d }) ∧
    (h.since + 1000000000 ≤ d.tm → h.ctrl ≠ 0 → ∃ t, exec (.generationBusyTimeout n now) s = .next t ∧ t.pending = s.pending ∧
      SameWork (bump 0x581007 (modifySlot n (fun x => { x with held := hs }) d)) t.dev ∧
      (hasQueues h.ctrl 0 d → Posted h.ctrl 0 h.cid stGenBusy 0 0 t.dev))) ∧
  (∀ (u : Fin 2) (passed : Bool) (s : State), s.dev.keys.estuary[u].testing = true →
    ∃ t, exec (.knownAnswerTestDone u passed) s = .next t ∧ t.pending = s.pending ∧ t.dev.keys.estuary[u].testing = false ∧
      t.dev.keys.estuary[u].state = (if passed then 0 else 1) ∧ objNum t.dev 0x58000A = (if passed then 0 else 1) ∧
      t.dev.keys.estuary[u].held = s.dev.keys.estuary[u].held ∧ t.dev.keys.slots = s.dev.keys.slots ∧ t.dev.reqs = s.dev.reqs ∧ t.dev.mem = s.dev.mem) ∧
  (∀ (now cause : Nat) (s : State), cause % 16 ≠ 0 →
    let d := advanceTo now s.dev
    ∃ t, exec (.springheadAlarm now cause) s = .next t ∧ t.pending = s.pending ∧ t.dev.keys.locked = true ∧ t.dev.keys.kek1 = none ∧
      t.dev.keys.nsKeysReady = false ∧ t.dev.aop.keys = Vector.replicate 4 none ∧
      (mapWf d.keys.slots = true → (∀ n, ∀ kr ∈ d.reqs, usesSlot n kr.2 = false) → (d.keys.slots.all fun ks => ks.2.held.isEmpty) = true →
        ∀ n, (keySlot t.dev n).current = none ∧ (keySlot t.dev n).retiring = none ∧ (keySlot t.dev n).held = [] ∧
          (keySlot t.dev n).allocated = (keySlot d n).allocated ∧ (keySlot t.dev n).lastGen = (keySlot d n).lastGen)) ∧
  (∀ (now : Nat) (s : State),
    let d := advanceTo now s.dev
    (d.keys.locked = true → exec (.keyStoreUnlock now) s = .next { s with dev := modifyKeys (fun k => { k with locked := false, nsKeysReady := true }) d }) ∧
    (d.keys.locked = false → exec (.keyStoreUnlock now) s = .next { s with dev := d }))

/-- R462, R464 to R466, R470 to R473, R478, R480, R482. -/
def Obligations.ObjectsAreReadWrittenAndCommittedOnEveryPath : Prop :=
  (∀ (c : Cmd) (s : State), admitted c true s.dev = true → zeroBits c.cdw10 31 24 = true → zeroBits c.cdw12 31 16 = true → zeroBits c.cdw13 31 8 = true →
    c.cdw14 = 0 → c.cdw15 = 0 → bits c.cdw12 15 0 ≤ 16384 →
    let d := taken c s.dev
    let op : ObjOp := { who := .inband c.ctrl, write := false, idx := bits c.cdw10 15 0, sub := bits c.cdw10 23 16, ty := c.cdw13, off := c.cdw11, len := bits c.cdw12 15 0 }
    let a := (objectRead op 16384 d).1
    (a.code = 0 → Completes (.objectRead c) c stOk a.data.length (a.total % 65536 + 65536 * a.ty) (touchTxn op.who d) s [.data c.ctrl c.cid a.data]) ∧
    (a.code ≠ 0 → Completes (.objectRead c) c stObjAborted a.code 0 (touchTxn op.who d) s)) ∧
  (∀ (op : ObjOp) (room : Nat) (d : Dev),
    (∀ code, firstChecks (touchTxn op.who d) op = .error code → (objectRead op room d).1.code = code) ∧
    (∀ r v, firstChecks (touchTxn op.who d) op = .ok r → beforeMount d op.idx = false → valueFor (touchTxn op.who d) op.who r op.key = some v → op.off ≤ v.length →
      (objectRead op room d).1.code = 0 ∧ (objectRead op room d).1.total = v.length ∧ (objectRead op room d).1.ty = r.ty.code ∧
        (objectRead op room d).1.data = (if op.len = 0 then v.drop op.off else (v.drop op.off).take op.len).take room)) ∧
  (∀ (c : Cmd) (np : List Nat) (s : State), admitted c true s.dev = true → zeroBits c.cdw10 31 24 = true → zeroBits c.cdw12 31 17 = true →
    zeroBits c.cdw13 31 8 = true → c.cdw14 = 0 → c.cdw15 = 0 → bits c.cdw12 15 0 ≤ 16384 →
    let d := taken c s.dev
    let op : ObjOp := { who := .inband c.ctrl, write := true, idx := bits c.cdw10 15 0, sub := bits c.cdw10 23 16, ty := c.cdw13, off := c.cdw11, last := bit c.cdw12 16, data := padTo (bits c.cdw12 15 0) c.data }
    (isPf d c.ctrl = false → Completes (.objectWrite c np) c stOpcode 0 0 d s) ∧
    (isPf d c.ctrl = true → pathsClear d = true →
      (op.key ≠ 0x305003 → takesWrite op np d = true → Completes (.objectWrite c np) c stOk 0 0 (writtenBy op d) s) ∧
      (stagesWrite op (touchTxn op.who d) = true → Completes (.objectWrite c np) c stOk 0 0 (stageValue op.key op.data (touchTxn op.who d)) s) ∧
      (∀ code, firstChecks (touchTxn op.who d) op = .error code → Completes (.objectWrite c np) c stObjAborted code 0 (touchTxn op.who d) s) ∧
      (∀ r, firstChecks d op = .ok r → d.txn.formers.contains op.who = true → d.txn.state = 0 →
        Completes (.objectWrite c np) c stObjAborted 0xA00D 0 { d with txn := { d.txn with formers := d.txn.formers.filter (· ≠ op.who) } } s) ∧
      (∀ r, anyRow op.idx op.sub = some r → takesWrite op [] d = true → r.acc = .rwp → isPra r = true → toStagedLaw d op.key = false → np.contains op.key = true →
        Completes (.objectWrite c np) c stObjAborted 0xA00A 0 (persistFailed op.key d) s))) ∧
  (∀ (c : Cmd) (s : State), admitted c true s.dev = true → zeroBits c.cdw10 31 2 = true → zeroFrom 11 c = true →
    let d := taken c s.dev
    let me : Path := .inband c.ctrl
    let d1 := touchTxn me d
    isPf d c.ctrl = true → pathsClear d = true → d.txn.formers = [] →
    (d.txn.state = 0 → d.power.phase = .ready → Completes (.txnBegin (.inband c)) c stOk (objNum d 0x110006 + 1) 0
      { d with txn := { state := 1, id := objNum d 0x110006 + 1, owner := some me, activeAt := d.tm, formers := [] } } s) ∧
    (d.txn.state ≠ 0 → Completes (.txnBegin (.inband c)) c stObjAborted 0xA007 0 d1 s) ∧
    (d.txn.state = 0 → Completes (.txnCommit (.inband c)) c stObjAborted 0xA008 0 d s ∧ Completes (.txnRollback (.inband c)) c stObjAborted 0xA008 0 d s) ∧
    (d.txn.state = 1 → d.txn.owner ≠ some me →
      Completes (.txnCommit (.inband c)) c stObjAborted 0xA007 0 d s ∧ Completes (.txnRollback (.inband c)) c stObjAborted 0xA007 0 d s) ∧
    (d.txn.state = 1 → d.txn.owner = some me →
      Completes (.txnRollback (.inband c)) c stOk 0 0 (rollbackTxn d) s ∧
      (∀ k code, commitRefused d1 = some (k, code) →
        Completes (.txnCommit (.inband c)) c stObjAborted code 0 (setNum 0x110007 k (setNum 0x110008 code d1)) s) ∧
      (commitRefused d1 = none →
        let after := gaugeCount 0x0FC (recordCommit d.txn.id (rollbackTxn (applyStaged { d1 with txn := { d1.txn with state := 2 } })))
        (d.txn.staged = [] → Completes (.txnCommit (.inband c)) c stOk d.txn.id 0 (recordCommit d.txn.id (rollbackTxn d)) s) ∧
        exec (.txnCommit (.inband c)) s = .next
          { s with dev := settlePaths [] (done { c with opc := 0xC2, cdw10 := c.cdw10 / 4 * 4 + 2 } stOk after (dw0 := d.txn.id)) }))) ∧
  (∀ (d : Dev) (k : Nat) (v : Bytes) (rest : List (Nat × Bytes)) (r : ObjRow), rowOf (k / 256) (k % 256) = some r → d.txn.staged = (k, v) :: rest →
    applyStaged d = rest.foldl (fun d kv => match rowOf (kv.1 / 256) (kv.1 % 256) with
      | none => d
      | some r => putInForce d.txn.owner r kv.1 kv.2 (if isPra r && !toStagedLaw d kv.1 then countPersist kv.1 d else d))
      (putInForce d.txn.owner r k v (if isPra r && !toStagedLaw d k then countPersist k d else d))) ∧
  (∀ (who : Path) (now : Nat) (s : State),
    let d := advanceTo now s.dev
    pathsAwake d = true → pathsClear d = true → isInband who = false → roleOf d who = .admin → d.txn.formers = [] →
    (d.txn.state = 0 → d.power.phase = .ready → exec (.txnBegin (.other who now)) s = .next
      { s with dev := { d with txn := { state := 1, id := objNum d 0x110006 + 1, owner := some who, activeAt := d.tm, formers := [] } } }) ∧
    (d.txn.state = 1 → d.txn.owner = some who → exec (.txnRollback (.other who now)) s = .next { s with dev := rollbackTxn d })) ∧
  (∀ (now : Nat) (s : State) (p : Path),
    let d := advanceTo now s.dev
    (d.txn.state = 1 → d.txn.owner = some p → d.txn.activeAt + objNum d 0x110004 * 1000000 ≤ d.tm →
      ∃ t, exec (.txnTimeout now) s = .next t ∧ t.pending = s.pending ∧ t.dev.txn = { formers := p :: d.txn.formers.filter (· ≠ p) } ∧
        SameWork { d with txn := t.dev.txn } t.dev) ∧
    (d.tm < d.txn.activeAt + objNum d 0x110004 * 1000000 → exec (.txnTimeout now) s = .next { s with dev := d })) ∧
  (∀ (now : Nat) (f : AopFrame) (np : List Nat) (s : State),
    let d := advanceTo now s.dev
    let p := f.payload
    let peer := (f.src, f.srcPort)
    let flags := leField p 5 1
    let key := leField p 4 1
    pathsAwake d = true → pathsClear d = true → d.weir.swapDue = false →
    (frameArrives d f = false → ∀ full, exec (.aopFrame now f full np) s = .next { s with dev := refuseFrame f 0x070 0 d }) ∧
    (frameArrives d f = true → frameHeaderOk p = false → ∀ full, exec (.aopFrame now f full np) s = .next { s with dev := refuseFrame f 0x071 0 d }) ∧
    (frameArrives d f = true → frameHeaderOk p = true → exec (.aopFrame now f true np) s = .next { s with dev := refuseFrame f 0x072 0 d }) ∧
    (frameArrives d f = true → frameHeaderOk p = true →
      (frameFormOk p = false → exec (.aopFrame now f false np) s = .next { s with dev := sendUnauth peer flags 0 abMalformed [] (refuseFrame f 0x073 abMalformed d) }) ∧
      (frameFormOk p = true → key ≠ 0xFF → d.aop.keys.toList.getD key none = none →
        exec (.aopFrame now f false np) s = .next { s with dev := sendUnauth peer flags 0 abAuth [] (refuseFrame f 0x074 abAuth d) }) ∧
      (∀ r : OpRec, frameFormOk p = true → key = 0xFF → leField p 6 2 = 1 → flags < 2 → takeRecords 1 (slice p 24 (leField p 20 2)) = some [r] → r.op = 1 →
        let d1 := gaugeCount 0x07D (bump 0x202008 d)
        let a := (objectRead (recordOp .aopUnauth r) 1024 d1).1
        (a.code = 0 → a.data.length ≤ 1024 → exec (.aopFrame now f false np) s = .next
          { s with dev := sendUnauth peer flags 1 0 (answerRecord r a.ty 0 a.total a.data) (touchTxn .aopUnauth d1) })) ∧
      (∀ (i : Fin 4) (k : Bytes), frameFormOk p = true → key = i.val → d.aop.keys[i] = some k →
        let n := p.length - 16
        ((hmacSha256 k (p.take n)).take 16 ≠ p.drop n →
          exec (.aopFrame now f false np) s = .next { s with dev := sendUnauth peer flags 0 abAuth [] (refuseFrame f 0x075 abAuth d) }) ∧
        ((hmacSha256 k (p.take n)).take 16 = p.drop n →
          (leField p 8 4 ≠ objNum d 0x202006 ∨ acceptCounter d.aop.replay[i] (leField p 12 8) = none → exec (.aopFrame now f false np) s = .next
            { s with dev := sendAuth i.val peer flags 0 (leField p 12 8) abReplay (leBytes 8 d.aop.replay[i].h) (refuseFrame f 0x076 abReplay d) }) ∧
          (∀ (w : ReplayWindow) (r : OpRec), leField p 8 4 = objNum d 0x202006 → acceptCounter d.aop.replay[i] (leField p 12 8) = some w →
            leField p 6 2 = 1 → flags < 2 → takeRecords 1 (slice p 24 (leField p 20 2)) = some [r] →
            let d1 := gaugeCount 0x07D (bump 0x202008 (modifyAop (fun a => { a with replay := a.replay.set i w }) d))
            let who : Path := .aop i.val f.src
            let a := (objectRead (recordOp who r) 1024 d1).1
            (r.op = 1 → a.code = 0 → exec (.aopFrame now f false np) s = .next
              { s with dev := sendAuth i.val peer flags 1 (leField p 12 8) 0 (answerRecord r a.ty 0 a.total a.data) (touchTxn who d1) }) ∧
            (r.op = 2 → (recordOp who r).key ≠ 0x305003 → takesWrite (recordOp who r) np d1 = true → exec (.aopFrame now f false np) s = .next
              { s with dev := sendAuth i.val peer flags 1 (leField p 12 8) 0 (answerRecord r r.ty 0 0 []) (writtenBy (recordOp who r) d1) })))))) ∧
  (∀ (w : ReplayWindow) (c : Nat),
    (acceptCounter w c = none ↔ c = 0 ∨ (c ≤ w.h ∧ (64 ≤ w.h - c ∨ w.seen.getLsbD (w.h - c) = true))) ∧
    (∀ w', acceptCounter w c = some w' → w'.h = max w.h c ∧ acceptCounter w' c = none)) ∧
  (∀ (now eid type count : Nat) (body : Bytes) (np : List Nat) (s : State),
    let d := latchWake 8 (advanceTo now s.dev)
    pathsAwake d = true → pathsClear d = true → d.weir.swapDue = false →
    (∀ ok, ok = false ∨ type ≠ 4 → exec (.mctpObjectRequest now eid ok type count body np) s = .next
      { s with dev := logViolation 0x23 34 0x07B eid 4 (leBytes 1 eid ++ leBytes 1 type) d }) ∧
    (type = 4 →
      (1412 < body.length → ∃ t, exec (.mctpObjectRequest now eid true type count body np) s = .next t ∧ SameWork d t.dev ∧
        Output.mctp eid miInvalid [] ∈ t.dev.out) ∧
      (body.length ≤ 1412 → (count = 0 ∨ 32 < count ∨ takeRecords count body = none) → exec (.mctpObjectRequest now eid true type count body np) s = .next
        { s with dev := emit (.mctp eid miInvalid []) d }) ∧
      (∀ r : OpRec, body.length ≤ 1412 → count = 1 → takeRecords 1 body = some [r] → r.op = 1 →
        let a := (objectRead (recordOp (.mctp eid) r) 1024 d).1
        a.code = 0 → exec (.mctpObjectRequest now eid true type count body np) s = .next
          { s with dev := emit (.mctp eid 0 (answerRecord r a.ty 0 a.total a.data)) (touchTxn (.mctp eid) d) })))

/-- R181, R215, R249, R262, R420, R431, R453, R455, R467, R494, R496, R497. -/
def Obligations.ObjectRowsPutTheirValuesInForce : Prop :=
  (∀ value, WritesObject (fun v => .sessionLabelSearch v value) 0x6040 1 .u64 (leBytes 8 value) [] fun _ => labelSearch (leNat (leBytes 8 value))) ∧
  (∀ unit, WritesObject (fun v => .estuaryReturnToService v unit) 0x5800 9 .u8 (leBytes 1 unit) [] fun _ => returnUnit (leNat (leBytes 1 unit))) ∧
  (∀ (key : Fin 4) (value : Bytes),
    WritesObject (fun v => .managementKeyWrite v key value) 0x2010 (key.val + 1) .octets value [] fun _ => writeMgmtKey key.val value) ∧
  WritesObject (fun v => .weirFreeze v) 0x3100 3 .bool [1] [] (fun _ => freezeLaw) ∧
  WritesObject (fun v => .weirUnfreeze v) 0x3100 3 .bool [0] [] (fun _ d => d) ∧
  (∀ np, WritesObject (fun v => .weirLawEnable v np) 0x3100 1 .bool [1] np fun _ d => switchLaw 1 (countPersist 0x310001 d)) ∧
  (∀ np, WritesObject (fun v => .weirLawDisable v np) 0x3100 1 .bool [0] np fun _ d => switchLaw 0 (countPersist 0x310001 d)) ∧
  WritesObject (fun v => .dredgeStart v) 0xA030 6 .u8 [1] [] (fun _ => softwarePass) ∧
  WritesObject (fun v => .dredgeStop v) 0xA030 6 .u8 [2] [] (fun _ => stopPass) ∧
  WritesObject (fun v => .gaugeSnapshot v) 0x9000 1 .u8 [1] [] (fun _ => gaugeSnapshot) ∧
  WritesObject (fun v => .gaugeResetAll v) 0x9000 1 .u8 [2] [] (fun _ => gaugeResetAll) ∧
  (∀ (n : Fin 64) (x : Nat), WritesObject (fun v => .gaugeCounterWrite v n x) 0x9200 (n.val + 1) .u64 (leBytes 8 x) [] fun _ => gaugeWrite n.val (leNat (leBytes 8 x))) ∧
  (∀ (n : Fin 64) (x : Nat) (np : List Nat), WritesObject (fun v => .gaugeSourceWrite v n x np) 0x9100 (n.val + 1) .u16 (leBytes 2 x) np
    fun _ d => gaugeSource n.val (leNat (leBytes 2 x)) (countPersist (0x910001 + n.val) d)) ∧
  (∀ p : Fin 2, WritesObject (fun v => .portRetrain v p) (0x8010 + p.val) 7 .u8 [1] [] fun _ => retrainPort p) ∧
  (∀ (p : Fin 8) (word : Nat), WritesObject (fun v => .partitionLayoutWrite v p word) 0x6020 (p.val + 1) .u32 (leBytes 4 word) [] fun _ d => d) ∧
  (∀ (p : Fin 64) (image : Bytes), WritesObject (fun v => .profileImageWrite v p 0 true image) (0x5100 + p.val) 2 .octets image [] fun _ d => d) ∧
  (∀ p : Fin 64, WritesObject (fun v => .profileUndefine v p) (0x5100 + p.val) 3 .u8 [1] [] fun _ d => d) ∧
  (∀ (n : Fin 32) (data : Bytes), WritesObject (fun v => .programImageChunk v n data) (0x7100 + n.val) 0x0B .octets data [] fun _ d => d) ∧
  (∀ n : Fin 32, WritesObject (fun v => .programActionLoad v n) (0x7100 + n.val) 0x0A .u8 [1] [] (fun _ d => d) ∧
    WritesObject (fun v => .programActionActivate v n) (0x7100 + n.val) 0x0A .u8 [2] [] (fun _ d => d) ∧
    WritesObject (fun v => .programActionDeactivate v n) (0x7100 + n.val) 0x0A .u8 [3] [] (fun _ d => d) ∧
    WritesObject (fun v => .programActionUnload v n) (0x7100 + n.val) 0x0A .u8 [4] [] fun _ d => d) ∧
  (∀ (c : Cmd) (p : Fin 64) (part : Bytes) (s : State), admitted c true s.dev = true →
    let d := taken c s.dev
    let op : ObjOp := { rowOp (.inband c.ctrl) (0x5100 + p.val) 2 .octets part with last := false }
    isPf d c.ctrl = true → pathsClear d = true → d.txn.state = 1 → d.txn.owner = some (.inband c.ctrl) → d.txn.formers = [] →
    (match firstChecks d op with
      | .ok _ => true
      | .error _ => false) = true → largeBytes (dropPartial op.key d) + part.length ≤ 16 * 2 ^ 20 →
    Completes (.profileImageWrite (.inband c) p 0 false part) c stOk 0 0
      { d with txn := { d.txn with activeAt := d.tm, partials := mapSet d.txn.partials op.key part } } s) ∧
  (∀ (c : Cmd) (s : State), admitted c true s.dev = true →
    let d := taken c s.dev
    isPf d c.ctrl = true → pathsClear d = true → d.weir.staged.isSome = true → wellWritten (rowOp (.inband c.ctrl) 0x3100 3 .bool [0]) d = true →
    d.txn.state = 0 → exec (.weirUnfreeze (.inband c)) s = .next
      { s with dev := modifyWeir (fun w => { w with swapDue := true, acks := w.acks ++ [(c.ctrl, c.cid)] }) d }) ∧
  (∀ (c : Cmd) (s : State), admitted c true s.dev = true →
    let d := taken c s.dev
    isPf d c.ctrl = true → pathsClear d = true → takesWrite (rowOp (.inband c.ctrl) 0x3050 3 .u8 [4]) [] d = true →
    ∃ t, exec (.enterOff (.inband c)) s = .next t ∧ t.pending = s.pending ∧ t.dev.power.phase = .flushing ∧ t.dev.power.offBy = 4 ∧
      Posted c.ctrl c.sq c.cid stOk 0 0 t.dev) ∧
  (∀ (who : Path) (now : Nat) (s : State),
    let d := advanceTo now s.dev
    pathsServed d = true → pathsClear d = true → takesWrite (rowOp who 0x3050 3 .u8 [4]) [] d = true →
    ∃ t, exec (.enterOff (.other who now)) s = .next t ∧ t.pending = s.pending ∧ t.dev.power.phase = .flushing ∧ t.dev.power.offBy = 4 ∧ t.dev.power.state = 0) ∧
  (∀ (v : Nat) (d : Dev), objNum (labelSearch v d) 0x604003 = (match (eddySearch 1 0 (BitVec.ofNat 128 v) [] (setNum 0x604001 v d)).1 with
    | none => 0
    | some h => if h.multi then 2 else 1)) ∧
  (∀ (v : Nat) (d : Dev),
    (d.keys.estuary[unitIdx v].state = 1 → (returnUnit v d).keys.estuary[unitIdx v].testing = true) ∧
    (d.keys.estuary[unitIdx v].state ≠ 1 → returnUnit v d = d)) ∧
  (∀ (n : Fin 4) (bs : Bytes) (d : Dev), d.txn.state = 0 →
    let d' := writeMgmtKey n.val bs d
    (bs.length = 44 → d'.keys.mgmt[n] = some (bs.drop 4) ∧ d'.aop.keys[n] = d.keys.kek1.bind fun kek => keyUnwrap kek (bs.drop 4)) ∧
    (bs.length = 4 → d'.keys.mgmt[n] = none ∧ d'.aop.keys[n] = none) ∧ d'.aop.replay[n] = {} ∧
    ∀ m : Fin 4, m ≠ n → d'.keys.mgmt[m] = d.keys.mgmt[m] ∧ d'.aop.keys[m] = d.aop.keys[m] ∧ d'.aop.replay[m] = d.aop.replay[m]) ∧
  (∀ (d : Dev), d.weir.staged = none →
    (freezeLaw d).weir.staged = some [] ∧ objNum (freezeLaw d) 0x310003 = 1 ∧ (∀ k, k ≠ 0x310003 → objNum (freezeLaw d) k = objNum d k) ∧
    ∀ who r k bs, isLawObj k = true → objNum (putInForce who r k bs (freezeLaw d)) k = objNum d k ∧ lawNum (putInForce who r k bs (freezeLaw d)) k = leNat bs) ∧
  (∀ (d : Dev),
    (objNum d 0x310001 = 0 → (switchLaw 1 d).weir.i = Vector.replicate 4 0 ∧ (switchLaw 1 d).weir.sat = 0 ∧
      (switchLaw 1 d).weir.lastTarget = Vector.replicate 4 none ∧ objNum (switchLaw 1 d) 0x310001 = 1) ∧
    (objNum d 0x310001 = 1 → d.power.phase ≠ .flushing → (switchLaw 0 d).weir.staged = none ∧ (switchLaw 0 d).weir.tokens = objNum d 0x314002 ∧
      (switchLaw 0 d).weir.div = Vector.replicate 17 16)) ∧
  (∀ (d : Dev) (target cls start length : Nat), objNum d 0xA03001 = target → objNum d 0xA03004 = cls → objNum d 0xA03002 = start → objNum d 0xA03003 = length →
    (d.integ.dredge.state ≠ 1 → passRangeOk d target cls start length = true →
      softwarePass d = { d with integ := { d.integ with
        dredge := { target := target, state := 1, origin := 0, cls := cls, start := start, length := length, startedAt := d.tm } } }) ∧
    (d.integ.dredge.state = 1 → d.integ.periodicDue = [] → (stopPass d).integ.dredge = { d.integ.dredge with state := 3, endedAt := d.tm })) ∧
  (∀ (d : Dev) (n m : Fin 64) (x : Nat),
    (gaugeSnapshot d).gauge.counters[n].snap = d.gauge.counters[n].count ∧ (gaugeSnapshot d).gauge.counters[n].count = d.gauge.counters[n].count ∧
    (gaugeSnapshot d).gauge.snapAt = d.tm % 2 ^ 64 ∧
    (gaugeResetAll d).gauge.counters[n].count = 0 ∧ (gaugeResetAll d).gauge.counters[n].overflow = false ∧
    (gaugeResetAll d).gauge.counters[n].source = d.gauge.counters[n].source ∧
    (gaugeWrite n x d).gauge.counters[n].count = BitVec.ofNat 48 x ∧ (gaugeWrite n x d).gauge.counters[n].overflow = false ∧
    (m ≠ n → (gaugeWrite n x d).gauge.counters[m] = d.gauge.counters[m] ∧ (gaugeSource n x d).gauge.counters[m] = d.gauge.counters[m]) ∧
    (gaugeSource n x d).gauge.counters[n].source = BitVec.ofNat 9 x ∧
    (d.gauge.counters[n].source ≠ BitVec.ofNat 9 x → (gaugeSource n x d).gauge.counters[n].count = 0) ∧
    (d.gauge.counters[n].source = BitVec.ofNat 9 x → gaugeSource n x d = d)) ∧
  (∀ (d : Dev) (p : Fin 2),
    (d.cas.ports[p].state = 3 → (retrainPort p d).cas.ports[p].state = 1 ∧ (retrainPort p d).cas.ports[p].fails = 0) ∧
    (d.cas.ports[p].state ≠ 3 → retrainPort p d = d)) ∧
  (∀ (who : Option Path) (r : ObjRow) (p q : Fin 8) (word : Nat) (d : Dev),
    let d' := putInForce who r (0x602001 + p.val) (leBytes 4 word) d
    d'.eddy.layout[q] = (if q = p then BitVec.ofNat 32 word else d.eddy.layout[q]) ∧ d'.eddy.entries = d.eddy.entries) ∧
  (∀ (who : Option Path) (r : ObjRow) (p q : Fin 64) (image : Bytes) (d : Dev),
    let x : Profile := mapGetD d.profiles p.val {}
    let d1 := putInForce who r ((0x5100 + p.val) * 256 + 2) image d
    let d2 := putInForce who r ((0x5100 + p.val) * 256 + 3) [1] d
    (image ≠ [] → mapGetD d1.profiles p.val {} = { image := image, version := x.version + 1, changedAt := d.tm }) ∧
    (x.image ≠ [] → mapGetD d2.profiles p.val {} = { image := [], version := x.version + 1, changedAt := d.tm }) ∧ (x.image = [] → d2 = d) ∧
    (q ≠ p → mapGetD d1.profiles q.val {} = mapGetD d.profiles q.val {}))

/-- R327, R328, R331 to R334, R336, R337, R341, R342, R345. -/
def Obligations.ProgramsAreLoadedChangedQueuedAndRun : Prop :=
  (∀ (c : Cmd) (slot : Nat) (n : AuxNamespace) (s : State), admitted c false s.dev = true → slot < 32 →
    let d := taken c s.dev
    let p := progSlot d slot
    attachedAux d c.ctrl c.nsid = some n → n.isMemory = false →
    (c.data.length ≤ 9 * 2 ^ 20 →
      (∀ k, progRefused d slot c.ctrl c.data = some k → Completes (.loadProgram c slot true) c stImageRefused k 0 (setNum 0x700007 k d) s) ∧
      (progRefused d slot c.ctrl c.data = none → Completes (.loadProgram c slot true) c stOk 0 0 (loadProgram slot c.ctrl c.data d) s)) ∧
    (∀ sl, 32 ≤ sl → Completes (.loadProgram c sl true) c stField 0 0 d s) ∧
    (p.state ≠ 0 → p.owner = c.ctrl →
      Completes (.loadProgramUnload c slot true) c stOk 0 0 (unloadProgram slot d) s ∧
      Completes (.activateProgram c slot) c stOk 0 0 (activateProgram slot true d) s ∧
      Completes (.deactivateProgram c slot) c stOk 0 0 (activateProgram slot false d) s) ∧
    (p.state = 0 ∨ p.owner ≠ c.ctrl →
      Completes (.loadProgramUnload c slot true) c stField 0 0 d s ∧ Completes (.activateProgram c slot) c stField 0 0 d s ∧
        Completes (.deactivateProgram c slot) c stField 0 0 d s)) ∧
  (∀ (slot ctrl b : Nat) (img : Bytes) (d : Dev), storePlace d (versionBytes img) = some b →
    let code := slice img progCodeAt (progCodeLen img) ++ slice img (progRodataAt img) (progRodataLen img) ++ slice img (progCheckAt img) (4 * progLines img)
    let old := progSlot d slot
    let d' := loadProgram slot ctrl img d
    let new := progSlot d' slot
    new.state = (if old.state = 0 then 1 else old.state) ∧ new.owner = ctrl ∧ new.lastVersion = old.lastVersion + 1 ∧
      new.current = some { version := old.lastVersion + 1, image := img, base := b } ∧
      new.retiring = old.retiring ++ (old.current.toList.filter fun v => decide (0 < v.bound)) ∧
      (∀ m, m ≠ slot → progSlot d' m = progSlot d m) ∧ d'.mem = cellsPut d.mem (dramKey b) code ∧
      storeBase d ≤ b ∧ b + versionBytes img ≤ storeBase d + storeSize) ∧
  (∀ (slot : Nat) (on : Bool) (d : Dev),
    progSlot (activateProgram slot on d) slot = { progSlot d slot with state := if on then 2 else 1, changedAt := d.tm } ∧
    (progSlot (unloadProgram slot d) slot).state = 0 ∧ (progSlot (unloadProgram slot d) slot).current = none ∧
    (progSlot (unloadProgram slot d) slot).lastVersion = (progSlot d slot).lastVersion ∧ (unloadProgram slot d).mem = d.mem ∧
    ∀ m, m ≠ slot → progSlot (unloadProgram slot d) m = progSlot d m ∧ progSlot (activateProgram slot on d) m = progSlot d m) ∧
  (∀ (c : Cmd) (n : AuxNamespace) (id : Nat) (rs : List (Nat × Nat × Nat)) (s : State), admitted c false s.dev = true →
    let d := taken c s.dev
    attachedAux d c.ctrl c.nsid = some n → n.isMemory = false →
    (∀ k, 1 ≤ rs.length → rs.length ≤ 4 → rs.all (rangeOk d c.ctrl) = true → rangesTogether rs = true → freeSet d c.ctrl = some k →
      Completes (.memoryRangeSetManagement c true id rs) c stOk k 0
        (modifyRt (fun t => { t with sets := t.sets ++ [{ ctrl := c.ctrl, id := k, nsid := (rs.headD (0, 0, 0)).1, ranges := rs.map fun r => r.2 }] }) d) s) ∧
    (4 < rs.length ∨ rs.all (rangeOk d c.ctrl) = false ∨ rangesTogether rs = false →
      Completes (.memoryRangeSetManagement c true id rs) c stField 0 0 d s) ∧
    ((setsOf d c.ctrl).any (fun x => x.id = id) = true → Completes (.memoryRangeSetManagement c false id rs) c stOk 0 0
      (modifyRt (fun t => { t with sets := t.sets.filter fun x => !(x.ctrl = c.ctrl && x.id = id) }) d) s) ∧
    ((setsOf d c.ctrl).any (fun x => x.id = id) = false → Completes (.memoryRangeSetManagement c false id rs) c stField 0 0 d s)) ∧
  (∀ (c : Cmd) (slot set_ : Nat) (n : AuxNamespace) (s : State), admitted c false s.dev = true →
    let d := taken c s.dev
    let p := progSlot d slot
    attachedAux d c.ctrl c.nsid = some n → n.isMemory = false →
    (∀ v, slot < 32 → c.data.length ≤ 4032 → (set_ ≠ 0 → (namedSet d c.ctrl set_).isSome = true) → p.state = 2 → p.current = some v →
      p.owner = c.ctrl ∨ progShared v.image = true →
      exec (.executeProgram c slot set_) s = .next { s with dev := admitExecute (withOp 0x01 c) slot v (namedSet d c.ctrl set_) d } ∧
      (∃ i : Invocation, (admitExecute (withOp 0x01 c) slot v (namedSet d c.ctrl set_) d).rt.calls = d.rt.calls ++ [i] ∧ i.kind = 2 ∧
        i.owner = (c.ctrl, c.sq, c.cid) ∧ i.slot = slot ∧ i.version = v.version ∧ i.core = none ∧ i.params = c.data)) ∧
    (32 ≤ slot ∨ 4032 < c.data.length ∨ p.state ≠ 2 ∨ (set_ ≠ 0 ∧ namedSet d c.ctrl set_ = none) →
      Completes (.executeProgram c slot set_) c stField 0 0 d s)) ∧
  (∀ (c : Cmd) (n : AuxNamespace) (off len : Nat) (s : State), admitted c false s.dev = true →
    let d := taken c s.dev
    let key := slmKey n off
    attachedAux d c.ctrl c.nsid = some n →
    (n.isMemory = false → Completes (.slmRead c off len []) c stOpcode 0 0 d s) ∧
    (n.isMemory = true →
      (∀ st, slmStatus n off len = some st → ∀ ecc, Completes (.slmRead c off len ecc) c st 0 0 d s) ∧
      (slmStatus n off len = none →
        (anyPoison d key len = false → Completes (.slmRead c off len []) c stOk 0 0 d s [.data c.ctrl c.cid (memGet d key len)]) ∧
        (∀ ecc, (readWords ecc (wordsOf key len) 0 d).1 = true →
          Completes (.slmRead c off len ecc) c stUnrecovered 0 0 (readWords ecc (wordsOf key len) 0 d).2 s)) ∧
      (∀ ecc, slmStatus n off c.data.length = none → Completes (.slmWrite c off ecc) c stOk 0 0 (storeBytes key c.data ecc d) s) ∧
      (∀ st ecc, slmStatus n off c.data.length = some st → Completes (.slmWrite c off ecc) c st 0 0 d s) ∧
      (∀ (rs : List (Nat × Nat × Nat)) (ecc : List (Nat × Ecc)),
        let total := rs.foldl (fun a r => a + r.2.2) 0
        let g := rs.foldl (gatherRange c.ctrl ecc) (false, [], d)
        slmStatus n off total = none →
        (rs.all (copyRangeOk d c.ctrl) = false → Completes (.memoryCopy c off rs ecc) c stField 0 0 d s) ∧
        (rs.all (copyRangeOk d c.ctrl) = true → g.1 = false → Completes (.memoryCopy c off rs ecc) c stOk 0 0 (storeBytes key g.2.1 .clean g.2.2) s) ∧
        (rs.all (copyRangeOk d c.ctrl) = true → g.1 = true → Completes (.memoryCopy c off rs ecc) c stUnrecovered 0 0 g.2.2 s)))) ∧
  (∀ (ctrl : Nat) (r : Nat × Nat × Nat) (n : AuxNamespace) (d : Dev), attachedAux d ctrl r.1 = some n → anyPoison d (slmKey n r.2.1) r.2.2 = false →
    gatherRange ctrl [] (false, [], d) r = (false, memGet d (slmKey n r.2.1) r.2.2, d)) ∧
  (∀ (key : Nat) (bs : Bytes) (ecc : Ecc) (d : Dev), Memory.wf d.mem = true →
    (storeBytes key bs ecc d).mem = cellsPut d.mem key bs ∧ memGet (storeBytes key bs ecc d) key bs.length = bs ∧
      ∀ a, a < key ∨ key + bs.length ≤ a → cellGet (storeBytes key bs ecc d).mem a = cellGet d.mem a) ∧
  (∀ (n : CoreId) (now : Nat) (s : State),
    let d := advanceTo now s.dev
    (coreIdle d n = false ∨ nextCall d n = none → exec (.invocationDispatch n now) s = .next { s with dev := d }) ∧
    (∀ i, coreIdle d n = true → nextCall d n = some i → Memory.wf d.mem = true →
      let i' := { i with core := some n, deadline := callDeadline d i }
      ∃ t, exec (.invocationDispatch n now) s = .next t ∧ t.pending = s.pending ∧ t.dev.rt.calls = d.rt.calls.map (fun x => if x = i then i' else x) ∧
        t.dev.cores[n].run = .running ∧ userMode t.dev.cores[n] = true ∧ ctl t.dev.cores[n] ctlIE = true ∧ t.dev.cores[n].slot = some i.slot ∧
        t.dev.cores[n].pc = apertureAddr (callImage d i).2 + BitVec.ofNat 32 (progEntry (callImage d i).1 i.entry) ∧
        rget t.dev.cores[n] 1 = 0x10000 ∧ rget t.dev.cores[n] 2 = BitVec.ofNat 32 i.kind ∧ rget t.dev.cores[n] 3 = BitVec.ofNat 32 i.entry ∧
        rget t.dev.cores[n] 4 = 0x25000 ∧ rget t.dev.cores[n] 31 = 0x80000 ∧
        (∀ r : Reg, r ∉ [1, 2, 3, 4, 31] → rget t.dev.cores[n] r = 0) ∧
        (∀ m : CoreId, m ≠ n → t.dev.cores[m] = d.cores[m]) ∧ memGet t.dev (localKey n 0x10000) 4096 = callBlock i')) ∧
  (∀ (n : CoreId) (now : Nat) (i : Invocation) (s : State),
    let d := advanceTo now s.dev
    callOn d n = some i →
    (d.tm < i.deadline → exec (.programTimeLimit n now) s = .next { s with dev := d }) ∧
    (i.deadline ≤ d.tm → i.kind = 2 → ∃ t, exec (.programTimeLimit n now) s = .next t ∧ t.pending = s.pending ∧
      (hasQueues i.owner.1 i.owner.2.1 d → Posted i.owner.1 i.owner.2.1 i.owner.2.2 stProgram (programDword n.val 0 3) 0 t.dev) ∧
      (progSlot t.dev i.slot).faults = (progSlot d i.slot).faults + 1 ∧ ∀ x ∈ t.dev.rt.calls, x ≠ i) ∧
    (i.deadline ≤ d.tm → exec (.programTimeLimit n now) s = .next { s with dev := failCall i 3 0 0 d })) ∧
  (∀ (n : CoreId) (now : Nat) (s : State),
    let d := advanceTo now s.dev
    let times := (d.tm :: mapGetD d.rt.halts n.val []).filter fun t => decide (d.tm < t + 1000000000)
    d.cores[n].run = .halted → CoreId.isSupervisor n = false → callOn d n = none →
    ∃ t, exec (.haltedCoreReset n now) s = .next t ∧ t.pending = s.pending ∧ t.dev.cores[n].run = .waiting ∧ t.dev.cores[n].g = (FxCore.atReset n).g ∧
      mapGetD t.dev.rt.halts n.val [] = times ∧ (times.length < 3 → t.dev.rt.out = d.rt.out) ∧ (3 ≤ times.length → n.val ∈ t.dev.rt.out))

/-- R98, R100, R104, R105, R192, R213, R352, R359, R360, R373, R376. -/
def Obligations.BlockCommandsReadAndWriteTheirUnits : Prop :=
  (∀ (c : Cmd) (slba nlb : Nat) (dec : List (Nat × Decode)) (mapBad : Option Nat) (n : Namespace) (s : State), admitted c false s.dev = true →
    let d := taken c s.dev
    let span := blockSpan n slba nlb
    let lu := (spanUnits n span.1 span.2).1
    let cnt := (spanUnits n span.1 span.2).2
    attachedNs d c.ctrl c.nsid = some n →
    (n.kind ≠ 0 → ∀ fails, Completes (.nvmRead c slba nlb dec fails mapBad) c stOpcode 0 0 d s ∧ Completes (.compare c slba nlb dec fails mapBad) c stOpcode 0 0 d s ∧
      Completes (.verify c slba nlb dec fails mapBad) c stOpcode 0 0 d s ∧ Completes (.writeZeroes c slba nlb dec) c stOpcode 0 0 d s) ∧
    (n.kind = 0 →
      (∀ st fails, blockStatus n c.ctrl slba nlb false true = some st →
        Completes (.nvmRead c slba nlb dec fails mapBad) c st 0 0 d s ∧ Completes (.compare c slba nlb dec fails mapBad) c st 0 0 d s) ∧
      (∀ st fails, blockStatus n c.ctrl slba nlb false false = some st → Completes (.verify c slba nlb dec fails mapBad) c st 0 0 d s) ∧
      (blockStatus n c.ctrl slba nlb false true = none → blockStatus n c.ctrl slba nlb false false = none →
        (dulbeHit d c n span.1 span.2 = true → ∀ fails, Completes (.nvmRead c slba nlb dec fails mapBad) c stDeallocated 0 0 d s) ∧
        (dulbeHit d c n span.1 span.2 = false →
          (nsKey d n.idx = none → ∀ fails, Completes (.nvmRead c slba nlb dec fails mapBad) c stNotReady 0 0 d s) ∧
          (∀ key, nsKey d n.idx = some key →
            let r := readUnits n key dec lu cnt (noteBadWord n lu cnt mapBad d)
            (r.1 = none → ∀ fails, CompletesMedia (.nvmRead c slba nlb dec fails mapBad) c stUnrecovered 0 0 r.2 s ∧
              CompletesMedia (.compare c slba nlb dec fails mapBad) c stUnrecovered 0 0 r.2 s ∧
              CompletesMedia (.verify c slba nlb dec fails mapBad) c stUnrecovered 0 0 r.2 s) ∧
            (∀ bs, r.1 = some bs →
              let want := slice bs (span.1 - lu * unitBytes n.iu) span.2
              CompletesMedia (.nvmRead c slba nlb dec 0 mapBad) c stOk 0 0 r.2 s [.data c.ctrl c.cid want] ∧
              CompletesMedia (.compare c slba nlb dec 0 mapBad) c (if want = padTo span.2 c.data then stOk else stCompare) 0 0 r.2 s ∧
              CompletesMedia (.verify c slba nlb dec 0 mapBad) c stOk 0 0 r.2 s ∧
              (∃ t, exec (.nvmRead c slba nlb dec 1 mapBad) s = .next t ∧ Posted c.ctrl c.sq c.cid stOk 0 0 t.dev ∧ Output.data c.ctrl c.cid want ∈ t.dev.out) ∧
              (∃ t, exec (.nvmRead c slba nlb dec 2 mapBad) s = .next t ∧ Posted c.ctrl c.sq c.cid stPoison 0 0 t.dev))))))) ∧
  (∀ (n : Namespace) (key : Bytes) (dec : List (Nat × Decode)) (lu : Nat) (d : Dev),
    (d.media.badWords.contains (mapKey n.idx lu) = true ∨ chunkRebuilding d n.idx lu = true ∨ entryOf d n.idx lu = some uncorrectable →
      (readUnit n key dec lu d).1 = none) ∧
    (d.media.badWords.contains (mapKey n.idx lu) = false → chunkRebuilding d n.idx lu = false →
      (entryOf d n.idx lu = none → readUnit n key dec lu d = (some (List.replicate (unitBytes n.iu) 0), d)) ∧
      (∀ v, entryOf d n.idx lu = some v → v ≠ uncorrectable →
        (d.media.buffer.contains (unitKey n.iu v) = true → readUnit n key dec lu d = (some (plainUnit n key lu (unitData d n.iu v)), d)) ∧
        (d.media.buffer.contains (unitKey n.iu v) = false → (dec.lookup lu).getD .hard ≠ .fail →
          (readUnit n key dec lu d).1 = some (plainUnit n key lu (unitData d n.iu v))) ∧
        (d.media.buffer.contains (unitKey n.iu v) = false → dec.lookup lu = some .fail →
          (readUnit n key dec lu d).1 = none ∧ unitKey n.iu v ∈ (readUnit n key dec lu d).2.media.bad)))) ∧
  (∀ (c : Cmd) (slba nlb : Nat) (dec : List (Nat × Decode)) (n : Namespace) (s : State), admitted c false s.dev = true →
    let d := taken c s.dev
    let span := blockSpan n slba nlb
    mapGet s.dev.media.nss c.nsid = some n → attachedNs d c.ctrl c.nsid = some n → n.kind = 0 →
    (mayFetchData s.dev n.iu = false → ∀ fails, exec (.nvmWrite c slba nlb dec fails) s = .next { s with dev := advanceTo c.now s.dev }) ∧
    (mayFetchData s.dev n.iu = true →
      (∀ st fails, blockStatus n c.ctrl slba nlb true true = some st → Completes (.nvmWrite c slba nlb dec fails) c st 0 0 d s) ∧
      (blockStatus n c.ctrl slba nlb true true = none →
        (d.media.state = 2 → ∀ fails, Completes (.nvmWrite c slba nlb dec fails) c stWriteProtected 0 0 d s) ∧
        (d.media.state ≠ 2 → nsKey d n.idx = none → ∀ fails, Completes (.nvmWrite c slba nlb dec fails) c stNotReady 0 0 d s) ∧
        (∀ key, d.media.state ≠ 2 → nsKey d n.idx = some key →
          (span.2 ≠ 0 →
            let m := mergedUnits n key dec span.1 (padTo span.2 c.data) d
            CompletesMedia (.nvmWrite c slba nlb dec 0) c stOk 0 0 (storeUnits n key (spanUnits n span.1 span.2).1 m.1 m.2) s) ∧
          (∃ t, exec (.nvmWrite c slba nlb dec 2) s = .next t ∧ Posted c.ctrl c.sq c.cid stPoison 0 0 t.dev))))) ∧
  (∀ (n : Namespace) (key : Bytes) (lu : Nat) (bs : Bytes) (d : Dev), mapWf d.media.store.map = true →
    let k := ceilDiv bs.length (unitBytes n.iu)
    let d' := storeUnits n key lu bs d
    (∀ e, e < mapKey n.idx lu ∨ mapKey n.idx (lu + k) ≤ e → mapGet d'.media.store.map e = mapGet d.media.store.map e) ∧
    d'.media.nss = d.media.nss ∧ d'.media.store.objs = d.media.store.objs ∧ d'.media.store.kv = d.media.store.kv ∧ d'.media.hostWriteAt = d.tm ∧
    ∃ vs : List (Option Nat), vs.length = k ∧ d'.media.journal.getLast? = some (d'.media.seq, .map n.idx lu vs) ∧
      ∀ i, i < k → mapGet d'.media.store.map (mapKey n.idx (lu + i)) = (vs[i]?).join) ∧
  (∀ (n : Namespace) (key : Bytes) (dec : List (Nat × Decode)) (off : Nat) (bs : Bytes) (d : Dev), unitBytes n.iu ∣ off → unitBytes n.iu ∣ bs.length → bs ≠ [] →
    mergedUnits n key dec off bs d = (bs, d)) ∧
  (∀ (c : Cmd) (slba nlb : Nat) (dec : List (Nat × Decode)) (n : Namespace) (s : State), admitted c false s.dev = true →
    let d := taken c s.dev
    let span := blockSpan n slba nlb
    let u := wholeUnits n span.1 span.2
    attachedNs d c.ctrl c.nsid = some n → n.kind = 0 →
    (∀ st, blockStatus n c.ctrl slba nlb true false = some st → Completes (.writeZeroes c slba nlb dec) c st 0 0 d s) ∧
    (blockStatus n c.ctrl slba nlb true false = none → d.media.state ≠ 2 →
      (unitBytes n.iu ∣ span.1 → unitBytes n.iu ∣ span.2 → CompletesMedia (.writeZeroes c slba nlb dec) c stOk 0 0 (unmapUnits n.idx u.1 u.2 d) s) ∧
      (nsKey d n.idx ≠ none → ∃ t, exec (.writeZeroes c slba nlb dec) s = .next t ∧ Posted c.ctrl c.sq c.cid stOk 0 0 t.dev)) ∧
    (∀ (deallocate : Bool) (rs : List (Nat × Nat)), blockStatus n c.ctrl 0 0 deallocate false = none → d.media.state ≠ 2 →
      (rs = [] ∨ 256 < rs.length → Completes (.datasetManagement c deallocate rs) c stField 0 0 d s) ∧
      (rs ≠ [] → rs.length ≤ 256 →
        (rs.any (fun r => decide (n.nsze < r.1 + r.2)) = true → Completes (.datasetManagement c deallocate rs) c stLbaRange 0 0 d s) ∧
        (rs.any (fun r => decide (n.nsze < r.1 + r.2)) = false →
          (deallocate = false → Completes (.datasetManagement c deallocate rs) c stOk 0 0 d s) ∧
          (deallocate = true → CompletesMedia (.datasetManagement c deallocate rs) c stOk 0 0
            (rs.foldl (fun d r =>
              let w := wholeUnits n (blockSpan n r.1 r.2).1 (blockSpan n r.1 r.2).2
              if w.2 = 0 then d else unmapUnits n.idx w.1 w.2 d) d) s))))) ∧
  (∀ (ns lu k : Nat) (d : Dev), mapWf d.media.store.map = true →
    (∀ i, i < k → entryOf (unmapUnits ns lu k d) ns (lu + i) = none) ∧
    (∀ e, e < mapKey ns lu ∨ mapKey ns (lu + k) ≤ e → mapGet (unmapUnits ns lu k d).media.store.map e = mapGet d.media.store.map e) ∧
    (unmapUnits ns lu k d).media.units = d.media.units ∧ (unmapUnits ns lu k d).media.journal.getLast? = some (d.media.seq + 1, .map ns lu (List.replicate k none))) ∧
  (∀ (c : Cmd) (s : State), admitted c false s.dev = true →
    let d := taken c s.dev
    ((attachedNs d c.ctrl c.nsid).isSome = true ∨ (attachedAux d c.ctrl c.nsid).isSome = true → Completes (.flush c) c stOk 0 0 d s) ∧
    (attachedNs d c.ctrl c.nsid = none → attachedAux d c.ctrl c.nsid = none → Completes (.flush c) c stNamespace 0 0 d s ∧
      ∀ slba nlb dec fails mapBad, Completes (.nvmRead c slba nlb dec fails mapBad) c stNamespace 0 0 d s))

/-- R102, R104 to R106, R359, R376; the rules of reservations are the NVMe specification's. -/
def Obligations.KeyValueAndReservationCommandsKeepTheirRecords : Prop :=
  (∀ (c : Cmd) (key : Bytes) (n : Namespace) (s : State), admitted c false s.dev = true →
    let d := taken c s.dev
    attachedNs d c.ctrl c.nsid = some n →
    (n.kind ≠ 1 → Completes (.kvExist c key) c stOpcode 0 0 d s) ∧
    (n.kind = 1 →
      (key = [] ∨ 16 < key.length → Completes (.kvExist c key) c stKvKeySize 0 0 d s ∧ Completes (.kvDelete c key) c stKvKeySize 0 0 d s) ∧
      (1 ≤ key.length → key.length ≤ 16 →
        (kvFind d n key = none → Completes (.kvExist c key) c stKvNoKey 0 0 d s ∧ Completes (.kvDelete c key) c stKvNoKey 0 0 d s ∧
          ∀ len dec fails mapBad, Completes (.kvRetrieve c key len dec fails mapBad) c stKvNoKey 0 0 d s) ∧
        (∀ e, kvFind d n key = some e →
          Completes (.kvExist c key) c stOk 0 0 d s ∧
          (d.media.state = 2 → Completes (.kvDelete c key) c stWriteProtected 0 0 d s) ∧
          (d.media.state ≠ 2 → CompletesMedia (.kvDelete c key) c stOk 0 0
            (journal (.kv n.idx ((kvValues d n).filter (·.key ≠ key)) [(e.base, List.replicate (kvUnits n e.len) none)]) d) s) ∧
          (∀ nsk len dec mapBad, nsKey d n.idx = some nsk →
            let off := e.base * unitBytes n.iu
            let lu := (spanUnits n off e.len).1
            let cnt := (spanUnits n off e.len).2
            let r := readUnits n nsk dec lu cnt (noteBadWord n lu cnt mapBad d)
            (∀ bs, r.1 = some bs → CompletesMedia (.kvRetrieve c key len dec 0 mapBad) c stOk e.len 0 r.2 s
              [.data c.ctrl c.cid ((slice bs (off - lu * unitBytes n.iu) e.len).take len)]) ∧
            (r.1 = none → CompletesMedia (.kvRetrieve c key len dec 0 mapBad) c stUnrecovered 0 0 r.2 s)))) ∧
      (∀ len, Completes (.kvList c key len) c stOk 0 0 d s
        [.data c.ctrl c.cid ((leBytes 4 (kvListing (len - 4) ((((kvValues d n).map (·.key)).filter (keyFrom key)).mergeSort keyFrom)).1 ++
          (kvListing (len - 4) ((((kvValues d n).map (·.key)).filter (keyFrom key)).mergeSort keyFrom)).2).take len)]))) ∧
  (∀ (n : Namespace) (key k : Bytes) (seq : List (Nat × List (Option Nat))) (d : Dev),
    let d' := journal (.kv n.idx ((kvValues d n).filter (·.key ≠ key)) seq) d
    kvFind d' n key = none ∧ (k ≠ key → kvFind d' n k = kvFind d n k) ∧
    ∀ m : Namespace, m.idx ≠ n.idx → kvValues d' m = kvValues d m) ∧
  (∀ (c : Cmd) (key : Bytes) (must no : Bool) (n : Namespace) (s : State), admitted c false s.dev = true →
    let d := taken c s.dev
    let old := kvFind d n key
    mapGet s.dev.media.nss c.nsid = some n → mayFetchData s.dev n.iu = true → attachedNs d c.ctrl c.nsid = some n → n.kind = 1 → 1 ≤ key.length →
    key.length ≤ 16 →
    (8 * 2 ^ 20 < c.data.length → Completes (.kvStore c key must no 0) c stKvValueSize 0 0 d s) ∧
    (c.data.length ≤ 8 * 2 ^ 20 →
      (must = true → old = none → Completes (.kvStore c key must no 0) c stKvNoKey 0 0 d s) ∧
      (no = true → must = false → old ≠ none → Completes (.kvStore c key must no 0) c stKvExists 0 0 d s) ∧
      ((must = true → old ≠ none) → (no = true → old = none) → d.media.state ≠ 2 →
        let spare := match old with
          | some o => kvUnits n o.len
          | none => 0
        (n.ncap / unitBytes n.iu < usedUnits d n - spare + kvUnits n c.data.length → Completes (.kvStore c key must no 0) c stCapacity 0 0 d s) ∧
        (∀ nsk b, usedUnits d n - spare + kvUnits n c.data.length ≤ n.ncap / unitBytes n.iu → nsKey d n.idx = some nsk → old = none →
          freeRun d n (kvUnits n c.data.length) (nsUnits n) = some b →
          ∃ w, CompletesMedia (.kvStore c key must no 0) c stOk 0 0 w s ∧ kvFind w n key = some { key := key, base := b, len := c.data.length } ∧
            (∀ k, k ≠ key → kvFind w n k = kvFind d n k) ∧ (∀ m : Namespace, m.idx ≠ n.idx → kvValues w m = kvValues d m) ∧
            w.media.store.objs = d.media.store.objs ∧ w.media.nss = d.media.nss)))) ∧
  (∀ (c : Cmd) (n : Namespace) (s : State), admitted c false s.dev = true →
    let d := taken c s.dev
    attachedNs d c.ctrl c.nsid = some n → n.kind = 0 →
    (∀ len, Completes (.reservationReport c len) c stOk 0 0 d s [.data c.ctrl c.cid ((rsvReport n.rsv).take len)]) ∧
    (∀ action cptpl crkey nrkey iekey,
      (∀ r, registerRsv action cptpl crkey nrkey iekey c.ctrl n.rsv = .ok r →
        Completes (.reservationRegister c action cptpl crkey nrkey iekey) c stOk 0 0 (setRsv c.nsid r d) s) ∧
      (∀ st, registerRsv action cptpl crkey nrkey iekey c.ctrl n.rsv = .error st →
        Completes (.reservationRegister c action cptpl crkey nrkey iekey) c st 0 0 d s)) ∧
    (∀ action crkey prkey rtype,
      (∀ r, acquireRsv action crkey prkey rtype c.ctrl n.rsv = .ok r →
        Completes (.reservationAcquire c action crkey prkey rtype) c stOk 0 0 (setRsv c.nsid r d) s) ∧
      (∀ st, acquireRsv action crkey prkey rtype c.ctrl n.rsv = .error st → Completes (.reservationAcquire c action crkey prkey rtype) c st 0 0 d s)) ∧
    (∀ action crkey rtype,
      (∀ r, releaseRsv action crkey rtype c.ctrl n.rsv = .ok r → Completes (.reservationRelease c action crkey rtype) c stOk 0 0 (setRsv c.nsid r d) s) ∧
      (∀ st, releaseRsv action crkey rtype c.ctrl n.rsv = .error st → Completes (.reservationRelease c action crkey rtype) c st 0 0 d s))) ∧
  (∀ (nsid x : Nat) (r : Reservation) (d : Dev),
    mapGet (setRsv nsid r d).media.nss x = if x = nsid then (mapGet d.media.nss x).map (fun n => { n with rsv := r }) else mapGet d.media.nss x) ∧
  (∀ (r : Reservation) (ctrl key new rtype : Nat),
    (rsvKeyOf r ctrl = none → registerRsv 0 0 key new false ctrl r = .ok { r with regs := r.regs ++ [{ ctrl := ctrl, key := new }], gen := r.gen + 1 } ∧
      registerRsv 1 0 key new false ctrl r = .error stRsvConflict ∧ acquireRsv 0 key 0 rtype ctrl r = .error stRsvConflict ∧
      releaseRsv 0 key rtype ctrl r = .error stRsvConflict) ∧
    (rsvKeyOf r ctrl = some key → 1 ≤ rtype → rtype ≤ 6 →
      (r.rtype = 0 → acquireRsv 0 key 0 rtype ctrl r = .ok { r with rtype := rtype, holder := ctrl }) ∧
      (r.rtype ≠ 0 → r.rtype ≠ rtype → acquireRsv 0 key 0 rtype ctrl r = .error stRsvConflict) ∧
      (r.rtype = rtype → r.holder = ctrl → releaseRsv 0 key rtype ctrl r = .ok { r with rtype := 0, holder := 0 }) ∧
      releaseRsv 1 key rtype ctrl r = .ok { r with rtype := 0, holder := 0, regs := [], gen := r.gen + 1 })) ∧
  (∀ (n : Namespace) (ctrl : Nat),
    (n.rsv.rtype = 0 ∨ holdsRsv n ctrl = true → rsvConflict n ctrl true = false ∧ rsvConflict n ctrl false = false) ∧
    (holdsRsv n ctrl = false → isRegistrant n ctrl = true →
      (n.rsv.rtype = 1 → rsvConflict n ctrl true = true ∧ rsvConflict n ctrl false = false) ∧
      (n.rsv.rtype = 2 → rsvConflict n ctrl true = true ∧ rsvConflict n ctrl false = true) ∧
      (3 ≤ n.rsv.rtype → rsvConflict n ctrl true = false ∧ rsvConflict n ctrl false = false)) ∧
    (isRegistrant n ctrl = false →
      (n.rsv.rtype = 3 ∨ n.rsv.rtype = 5 → rsvConflict n ctrl true = true ∧ rsvConflict n ctrl false = false) ∧
      (n.rsv.rtype = 4 ∨ n.rsv.rtype = 6 → rsvConflict n ctrl true = true ∧ rsvConflict n ctrl false = true)))

/-- R97, R352, R355, R359, R361, R363, R365, R366, R368 to R370, R374 and R377. -/
def Obligations.MediaEventsActOnTheirUnitsBandsAndRecords : Prop :=
  (∀ (p : PageOf) (r : PageEnd) (now : Nat) (s : State),
    exec (.pageProgramDone p r now) s = .next { s with dev := pageProgramDone p r (advanceTo now s.dev) } ∧
    ∀ k u, p = .buffer k → s.dev.media.buffer[k]? = some u → r = .pass → s.dev.media.waits = [] →
      ∃ t, exec (.pageProgramDone p r now) s = .next t ∧ SameData (endBufferPage u .pass (advanceTo now s.dev)) t.dev) ∧
  (∀ (u : Nat) (b : Band) (d : Dev), mapGet d.media.store.bands (bandOfVua d (u / 2 ^ 48) (u % 2 ^ 48)) = some b →
    let d' := endBufferPage u .pass d
    (∀ x ∈ d.media.buffer, samePage u x = true → x ∉ d'.media.buffer ∧
      ∀ y, mapGet d.media.units x = some y → mapGet d'.media.units x = some { y with programmed := true }) ∧
    (∀ x ∈ d.media.buffer, samePage u x = false → x ∈ d'.media.buffer) ∧
    (∀ x, samePage u x = false → mapGet d'.media.units x = mapGet d.media.units x) ∧
    d'.media.store = d.media.store ∧ d'.media.journal = d.media.journal ∧ d'.media.wear = d.media.wear ∧
    ∀ r, r ≠ .pass → blockRetired (endBufferPage u r d) b.row b.block (channelOf d (u / 2 ^ 48) (u % 2 ^ 48)) (planeOf d (u / 2 ^ 48) (u % 2 ^ 48)) = true) ∧
  (∀ (u v : Nat) (x : FlashUnit) (d d2 : Dev), mapGet d.media.units u = some x →
    placeUnit x.ns (u / 2 ^ 48) x.lu x.data false
      (modifyMedia (fun m => { m with units := mapErase m.units u, buffer := m.buffer.filter (· ≠ u) }) d) = (some v, d2) →
    let d' := reprogram u d
    (∃ y, mapGet d'.media.units (unitKey (u / 2 ^ 48) v) = some y ∧ y.ns = x.ns ∧ y.lu = x.lu ∧ y.data = x.data ∧ y.programmed = false) ∧
    unitKey (u / 2 ^ 48) v ∈ d'.media.buffer ∧
    (entryOf d2 x.ns x.lu = some (u % 2 ^ 48) → entryOf d' x.ns x.lu = some v) ∧
    (entryOf d2 x.ns x.lu ≠ some (u % 2 ^ 48) → d'.media.store.map = d2.media.store.map)) ∧
  (∀ (k : Nat) (j : GcJob) (d : Dev), (d.media.jobs.find? fun j => j.source = k && j.step = .copy) = some j →
    (copiesDone d j = true → (queueCommit k d).media.journal = d.media.journal ++ [(d.media.seq + 1, .gcCommit k j.made)] ∧
      (queueCommit k d).media.store = d.media.store) ∧
    (copiesDone d j = false → queueCommit k d = d)) ∧
  (∀ (m : AMap Nat) (c : GcCopy),
    (mapGet m (mapKey c.ns c.lu) = some c.src → mapGet (commitCopy m c) (mapKey c.ns c.lu) = some (c.dst.getD uncorrectable) ∧
      ∀ e, e ≠ mapKey c.ns c.lu → mapGet (commitCopy m c) e = mapGet m e) ∧
    (mapGet m (mapKey c.ns c.lu) ≠ some c.src → commitCopy m c = m)) ∧
  (∀ (now n : Nat) (s : State), s.dev.media.waits = [] →
    ∃ t, exec (.journalCommit now n) s = .next t ∧ SameData (drainJobs (commitJournal n (advanceTo now s.dev))) t.dev) ∧
  (∀ (n : Nat) (d : Dev), n ≠ 0 → d.media.journal ≠ [] →
    let d' := commitJournal n d
    let rs := d.media.journal.take n
    d'.media.journal = d.media.journal.drop n ∧ d'.media.durable = rs.foldl (fun s r => applyRec s r.2) d.media.durable ∧
    (rs.all (fun r => !actsAtCommit r.2) = true → d'.media.store = d.media.store) ∧
    (∀ r, rs.getLast? = some r → objNum d' 0x385001 = r.1) ∧ d'.media.units = d.media.units ∧ d'.media.nss = d.media.nss ∧
    ∀ j ∈ d.media.jobs, j.step = .commit → (∃ r ∈ rs, ∃ cs, r.2 = .gcCommit j.source cs) → { j with step := .drain } ∈ d'.media.jobs) ∧
  (∀ (k now : Nat) (failed : List Nat) (s : State) (j : GcJob) (b : Band),
    (s.dev.media.jobs.find? fun j => j.source = k && j.step = .erase) = some j → mapGet s.dev.media.store.bands k = some b →
    ∃ t, exec (.bandEraseDone k failed now) s = .next t ∧
      (failed = [] →
        (blockWear t.dev b.row b.block).erases = min 0xFFFFF ((blockWear s.dev b.row b.block).erases + 1) ∧ (blockWear t.dev b.row b.block).reads = 0 ∧
        t.dev.media.store.map = s.dev.media.store.map ∧ (∀ w ∈ t.dev.media.waits, k ∉ w.bands) ∧
        (j.cause ≠ 1 → j.cause ≠ 4 → objNum t.dev 0x382005 = objNum s.dev 0x382005 + 1) ∧
        (j.cause = 1 → objNum t.dev 0x381005 = objNum s.dev 0x381005 + j.made.length * unitBytes b.cls)) ∧
      ∀ f ∈ failed, blockRetired t.dev b.row b.block (f / 4 % 16) (f % 4) = true) ∧
  (∀ (ch : Fin 16) (row now : Nat) (s : State),
    let k := mapGetD s.dev.media.silent (lunKey ch.val row) 0 + 1
    (s.dev.media.lunsRetired.contains (lunKey ch.val row) = true ∨ rowCount s.dev ≤ row →
      exec (.lunAnswerTimeout ch row now) s = .next { s with dev := advanceTo now s.dev }) ∧
    (s.dev.media.lunsRetired.contains (lunKey ch.val row) = false → row < rowCount s.dev →
      ∃ t, exec (.lunAnswerTimeout ch row now) s = .next t ∧ mapGet t.dev.media.silent (lunKey ch.val row) = some k ∧
        (k < 3 → t.dev.media.lunsRetired = s.dev.media.lunsRetired ∧ t.dev.media.store = s.dev.media.store) ∧
        (3 ≤ k → lunKey ch.val row ∈ t.dev.media.lunsRetired))) ∧
  (∀ (now : Nat) (s : State),
    let d := advanceTo now s.dev
    (d.media.hostWriteAt + 100000000 ≤ d.tm → d.media.ready = true →
      exec (.foldIdleTimer now) s = .next { s with dev := background (modifyMedia (fun m => { m with folding := true }) d) }) ∧
    (d.tm < d.media.hostWriteAt + 100000000 ∨ d.media.ready = false → exec (.foldIdleTimer now) s = .next { s with dev := d })) ∧
  (∀ (ns lu now : Nat) (s : State), ∃ t, exec (.mapWordRebuilt ns lu now) s = .next t ∧ t.pending = s.pending ∧
    t.dev = { advanceTo now s.dev with media := { s.dev.media with badWords := t.dev.media.badWords } } ∧
    ∀ x, x ∈ t.dev.media.badWords ↔ x ∈ s.dev.media.badWords ∧ x ≠ mapKey ns lu) ∧
  (∀ (i : MetaItem) (now : Nat) (s : State),
    exec (.metadataRemirror i false now) s = .next { s with dev := remirror i (advanceTo now s.dev) } ∧
    ∃ t, exec (.metadataRemirror i true now) s = .next t ∧ t.dev.media.critical &&& 4 = 4 ∧
      (∀ ns c, i = .mapChunk ns c → mapKey ns c ∈ t.dev.media.rebuilding) ∧
      (∀ cs, i = .journalPage cs → 1 ≤ t.dev.media.state ∧ ∀ c ∈ cs, mapKey c.1 c.2 ∈ t.dev.media.rebuilding) ∧
      (∀ p, i = .profile p → mapWf s.dev.profiles = true → mapGet t.dev.profiles p = none) ∧
      (∀ slot, i = .firmware slot → 1 ≤ t.dev.media.state) ∧
      t.dev.media.store = s.dev.media.store) ∧
  (∀ (ns c : Nat) (d : Dev),
    (d.media.rebuilding.contains (mapKey ns c) = true → remirror (.mapChunk ns c) d = journal (.checkpoint ns c) (rebuildChunk ns c d)) ∧
    mapKey ns c ∉ (rebuildChunk ns c d).media.rebuilding ∧
    (∀ lu v, lu / 16384 = c → newestUnit d ns lu = some v → entryOf (rebuildChunk ns c d) ns lu = some v) ∧
    (∀ lu v, newestUnit d ns lu = some v → ∃ u ∈ d.media.units, u.2.ns = ns ∧ u.2.lu = lu ∧ u.2.programmed = true ∧ v = u.1 % 2 ^ 48 ∧
      ∀ y ∈ d.media.units, y.2.ns = ns → y.2.lu = lu → y.2.programmed = true → y.2.seq ≤ u.2.seq)) ∧
  (∀ (c : Cmd) (lbaf ses : Nat) (s : State), admitted c true s.dev = true →
    let d := taken c s.dev
    isPf d c.ctrl = true →
    (mapGet d.media.nss c.nsid = none → Completes (.formatNvm c lbaf ses) c stNamespace 0 0 d s) ∧
    (∀ n, mapGet d.media.nss c.nsid = some n →
      (2 ≤ ses → Completes (.formatNvm c lbaf ses) c stField 0 0 d s) ∧
      (ses < 2 → formatOk n lbaf = false → Completes (.formatNvm c lbaf ses) c stFormat 0 0 d s) ∧
      (ses < 2 → formatOk n lbaf = true → n.kind ≠ 2 → mapWf d.media.store.map = true →
        ∃ t w, exec (.formatNvm c lbaf ses) s = .next t ∧ t.pending = s.pending ∧
          (∀ lu, lu < 2 ^ 32 → entryOf t.dev n.idx lu = none) ∧
          (∀ e, e / 2 ^ 32 ≠ n.idx → mapGet t.dev.media.store.map e = mapGet d.media.store.map e) ∧
          mapGet t.dev.media.nss c.nsid = some (reformat lbaf n) ∧ (∀ x, x ≠ c.nsid → mapGet t.dev.media.nss x = mapGet d.media.nss x) ∧
          t.dev.keys = (freshNsKey n.idx d).keys ∧
          w ∈ t.dev.media.waits ∧ w.ctrl = c.ctrl ∧ w.cid = c.cid ∧ w.opc = 0x80 ∧ w.bands = (if ses = 1 then bandsOf d n.idx else [])))) ∧
  (∀ (c : Cmd) (action : Nat) (s : State), admitted c true s.dev = true →
    let d := taken c s.dev
    isPf d c.ctrl = true →
    (action ≠ 2 → Completes (.sanitize c action) c stField 0 0 d s) ∧
    (action = 2 → ∃ t, exec (.sanitize c action) s = .next t ∧
      (d.media.nss = [] → d.media.waits = [] → d.media.journal = [] → (∀ kb ∈ d.media.store.bands, kb.2.state = .free) →
        Posted c.ctrl c.sq c.cid stOk 0 0 t.dev ∧ t.dev.media.sanitized = d.media.sanitized + 1 ∧ t.dev.media.buffer = []) ∧
      ((∃ kn ∈ d.media.nss, kn.2.kind ≠ 2) → ∃ w ∈ t.dev.media.waits, w.ctrl = c.ctrl ∧ w.cid = c.cid ∧ w.opc = 0x84))) ∧
  (∀ (w : MediaWait) (d : Dev), w ∈ d.media.waits →
    (w.bands = [] → (∀ r ∈ d.media.journal, w.seq < r.1) →
      w ∉ (endWaits d).media.waits ∧ (hasQueues w.ctrl 0 d → Posted w.ctrl 0 w.cid stOk 0 0 (endWaits d))) ∧
    (w.bands ≠ [] ∨ (∃ r ∈ d.media.journal, r.1 ≤ w.seq) → w ∈ (endWaits d).media.waits))

/-- R55, R447 to R453, R455 and R456; an inexact quotient is either neighbour (log entries 1 and 43), and where Off and reset stop Weir nothing is sampled. -/
def Obligations.WeirSamplesRunTheLawAndHoursAreRecorded : Prop :=
  (∀ (now : Nat) (temps : Vector Word 24) (volts0 volts1 power phy : Word) (late : Bool) (delayNs : Nat) (s : State),
    let d := advanceTo now s.dev
    pathsClear s.dev = true →
    (d.power.phase = .inReset ∨ d.power.phase = .off →
      exec (.weirSample now temps volts0 volts1 power phy late delayNs) s = .next { s with dev := d }) ∧
    (d.power.phase ≠ .inReset → d.power.phase ≠ .off → exec (.weirSample now temps volts0 volts1 power phy late delayNs) s =
      .next { s with dev := if late then overrun d else withIslands (sampleRuns temps volts0 volts1 power phy delayNs) d })) ∧
  (∀ d : Dev,
    let n := objNum d 0x310006 + 1
    objNum (overrun d) 0x310005 = objNum d 0x310005 + 1 ∧ objNum (overrun d) 0x310006 = n ∧
    (n ≠ 4 ∨ d.weir.failsafe = true → (overrun d).weir = { d.weir with clean := 0 }) ∧
    (n = 4 → d.weir.failsafe = false → (overrun d).weir.failsafe = true ∧ objNum (overrun d) 0x310007 = objNum d 0x310007 + 1 ∧
      (overrun d).weir.i = d.weir.i ∧
      (d.power.phase ≠ .flushing → (overrun d).weir.tokens = objNum d 0x314002 ∧ (overrun d).weir.div = Vector.replicate 17 16))) ∧
  (∀ (temps : Vector Word 24) (volts0 volts1 power : Word) (d : Dev),
    let x := (latchInputs temps volts0 volts1 power d).weir.x
    (∀ i : Fin 24, x[i.val]'(by omega) = temps[i]) ∧ x[24] = wordQ (mulQ volts0.toInt (objQ d 0x310201)) ∧
    x[25] = wordQ (mulQ volts1.toInt (objQ d 0x310202)) ∧ x[26] = power ∧ (∀ i : Fin 24, temps[i].toInt ≤ x[27].toInt) ∧ ∃ i : Fin 24, x[27] = temps[i]) ∧
  (∀ (temps : Vector Word 24) (volts0 volts1 power phy : Word) (delayNs : Nat) (d : Dev),
    let d' := sampleRuns temps volts0 volts1 power phy delayNs d
    (∀ m, d.weir.staged = some m → ∀ e ∈ m, isLawObj e.1 = true) →
    d'.weir.x = (latchInputs temps volts0 volts1 power d).weir.x ∧ objNum d' 0x310006 = 0 ∧
    (d.weir.failsafe = false → d'.weir.failsafe = false) ∧
    (d.weir.failsafe = true → d'.weir.i = d.weir.i ∧
      (d.weir.clean + 1 < 16 → d'.weir.failsafe = true ∧ d'.weir.clean = d.weir.clean + 1) ∧
      (16 ≤ d.weir.clean + 1 → d'.weir.failsafe = false ∧ d'.weir.clean = 0)) ∧
    (d.weir.swapDue = true → d.weir.staged.isSome = true → d'.weir.staged = none ∧ d'.weir.swapDue = false) ∧
    (d.weir.swapDue = false → d'.weir.staged = d.weir.staged)) ∧
  (∀ (m : AMap Nat) (d : Dev), d.weir.staged = some m → mapWf m = true → (∀ e ∈ m, isLawObj e.1 = true ∧ mapGetD d.wear e.1 0 < 4000000) →
    (∀ k v, mapGet m k = some v → objNum (swapLaw d) k = v) ∧ objNum (swapLaw d) 0x310003 = 0 ∧
    objNum (swapLaw d) 0x31000A = objNum d 0x31000A + 1 ∧ (swapLaw d).weir = { d.weir with staged := none, swapDue := false, acks := [] } ∧
    ∀ a ∈ d.weir.acks, hasQueues a.1 0 d → Posted a.1 0 a.2 stOk 0 0 (swapLaw d)) ∧
  (∀ (safe : Bool) (s0 ns j fuel : Nat) (w : List Int) (d : Dev),
    let word := objNum d (0x313001 + j)
    let op := bits word 31 28
    let dst := bits word 27 22
    let a := weirReg d w (bits word 21 16)
    let b := weirReg d w (bits word 15 10)
    (op = 0 → runLaw safe s0 ns j (fuel + 1) w d = (j + 1, d)) ∧
    (1 ≤ op → op ≤ 6 → ∃ v : Int, runLaw safe s0 ns j (fuel + 1) w d = runLaw safe s0 ns (j + 1) fuel (w.set (dst - 0x30) v) d ∧
      (op = 1 → v = a) ∧ (op = 2 → v = satQ (a + b)) ∧ (op = 3 → v = satQ (a - b)) ∧ (op = 5 → v = max a b) ∧ (op = 6 → v = min a b) ∧
      (op = 4 → v = satQ (a * b / 65536) ∨ (a * b % 65536 ≠ 0 ∧ v = satQ (a * b / 65536 + 1)))) ∧
    (op = 7 → runLaw true s0 ns j (fuel + 1) w d = runLaw true s0 ns (j + 1) fuel w d ∧
      ∃ v : Int, runLaw false s0 ns j (fuel + 1) w d = runLaw false s0 ns (j + 1) fuel w (integrate ⟨(dst - 0x3C) % 4, by omega⟩ v d) ∧
        (v = satQ (a * b / 65536) ∨ (a * b % 65536 ≠ 0 ∧ v = satQ (a * b / 65536 + 1)))) ∧
    (op = 8 → runLaw true s0 ns j (fuel + 1) w d = runLaw true s0 ns (j + 1) fuel w d ∧
      runLaw false s0 ns j (fuel + 1) w d =
        runLaw false s0 ns (j + 1) fuel w (writeOutputs dst ((a + 32768) / 65536) (s0 + 600 + j * ns / 100) (bits word 15 10 + 1) d))) ∧
  (∀ (k : Fin 4) (inc : Int) (d : Dev),
    let lo := objQ d (0x312201 + k.val)
    let hi := objQ d (0x312205 + k.val)
    let v := satQ (d.weir.i[k].toInt + inc)
    let d' := integrate k inc d
    lo ≤ hi →
    lo ≤ d'.weir.i[k].toInt ∧ d'.weir.i[k].toInt ≤ hi ∧ (lo ≤ v → v ≤ hi → d'.weir.i[k].toInt = v) ∧
    (v < lo ∨ hi < v → d'.weir.sat.getLsbD k.val = true) ∧ (lo < v → v < hi → d'.weir.sat.getLsbD k.val = false) ∧
    (∀ m : Fin 4, m ≠ k → d'.weir.i[m] = d.weir.i[m] ∧ d'.weir.sat.getLsbD m.val = d.weir.sat.getLsbD m.val) ∧
    d' = { d with weir := { d.weir with i := d'.weir.i, sat := d'.weir.sat } }) ∧
  (∀ (o at_ n : Nat) (v : Int) (d : Dev),
    writeOutputs o v at_ 0 d = d ∧ writeOutputs o v at_ (n + 1) d = writeOutputs (o + 1) v at_ n (writeOutput o v at_ d) ∧
    (d.power.phase = .flushing → writeOutput o v at_ d = d) ∧
    (d.power.phase ≠ .flushing →
      (writeOutput 0 v at_ d).weir = { d.weir with tokens := clampTokens d v } ∧ objNum (writeOutput 0 v at_ d) 0x314004 = at_ % 2 ^ 64 ∧
      ∀ i : Fin 17,
        (outputLive d i = true → writeOutput (i.val + 1) v at_ d = modifyWeir (fun w => { w with div := w.div.set i (clampDivisor d v) }) d) ∧
        (outputLive d i = false → writeOutput (i.val + 1) v at_ d = d))) ∧
  (∀ (v : Int) (d : Dev),
    (d.power.state ≠ 1 → objNum d 0x314002 ≤ objNum d 0x314003 → objNum d 0x314002 ≤ clampTokens d v ∧ clampTokens d v ≤ objNum d 0x314003 ∧
      (Int.ofNat (objNum d 0x314002) ≤ v → v ≤ Int.ofNat (objNum d 0x314003) → Int.ofNat (clampTokens d v) = v)) ∧
    (d.power.state = 1 → clampTokens d v ≤ 16 ∧ objNum d 0x305006 ≤ clampDivisor d v) ∧ 1 ≤ clampDivisor d v ∧
    (d.power.state ≠ 1 → clampDivisor d v ≤ 16 ∧ (1 ≤ v → v ≤ 16 → Int.ofNat (clampDivisor d v) = v))) ∧
  (∀ (n : Fin 4) (d : Dev),
    let t := targetOf d n
    let slope := objQ d ((0x3110 + n.val) * 256 + 2)
    let changed := decide (d.weir.lastTarget[n] ≠ some t)
    let start := if changed then (measured d (objNum d ((0x3110 + n.val) * 256 + 3))).toInt else d.weir.s[n].toInt
    let d' := updateSetpoint n d
    d'.weir.lastTarget[n] = some t ∧ (∀ m : Fin 4, m ≠ n → d'.weir.s[m] = d.weir.s[m] ∧ d'.weir.ramping.getLsbD m.val = d.weir.ramping.getLsbD m.val) ∧
    (changed = false → d.weir.ramping.getLsbD n.val = false → d'.weir.s[n] = d.weir.s[n] ∧ d'.weir.ramping.getLsbD n.val = false) ∧
    (changed = true ∨ d.weir.ramping.getLsbD n.val = true →
      (slope = 0 → d'.weir.s[n] = t ∧ d'.weir.ramping.getLsbD n.val = false) ∧
      (0 < slope →
        (start ≤ t.toInt → start ≤ d'.weir.s[n].toInt ∧ d'.weir.s[n].toInt ≤ t.toInt) ∧
        (t.toInt ≤ start → t.toInt ≤ d'.weir.s[n].toInt ∧ d'.weir.s[n].toInt ≤ start) ∧
        (d'.weir.s[n] ≠ t → d'.weir.ramping.getLsbD n.val = true ∧
          (d'.weir.s[n].toInt - start).natAbs = (roundQ (slope * samplePeriod d) 1000).natAbs)))) ∧
  (∀ d : Dev,
    let beyond (k r : Nat) : Bool := decide (objQ d (0x315001 + k) < (measured d r).toInt)
    let reg (k : Nat) : Nat := if k = 0 then 27 else 23 + k
    (∀ k, k < 3 → (checkAlarms d).weir.above.testBit k = beyond k (reg k)) ∧
    ((∀ k, k < 3 → beyond k (reg k) = true → d.weir.above.testBit k = true) →
      checkAlarms d = modifyWeir (fun w => { w with above := (checkAlarms d).weir.above }) d) ∧
    ((∃ k, k < 3 ∧ beyond k (reg k) = true ∧ d.weir.above.testBit k = false) →
      ∀ k, k < 3 → (objNum (checkAlarms d) 0x315004).testBit k = (beyond k (reg k) && !d.weir.above.testBit k))) ∧
  (∀ (now mean peak : Nat) (s : State),
    (s.dev.power.phase = .inReset ∨ s.dev.power.phase = .off → exec (.lifeRecordUpdate now mean peak) s = .next { s with dev := advanceTo now s.dev }) ∧
    (s.dev.power.phase ≠ .inReset → s.dev.power.phase ≠ .off → (∀ k, 0x304001 ≤ k → k ≤ 0x304005 → mapGetD s.dev.wear k 0 < 4000000) →
      let h := objNum s.dev 0x304001
      let sum := q16Int (objNum s.dev 0x304002) * h + q16Int mean
      ∃ t, exec (.lifeRecordUpdate now mean peak) s = .next t ∧ t.pending = s.pending ∧ objNum t.dev 0x304001 = h + 1 ∧
        sum - h ≤ q16Int (objNum t.dev 0x304002) * (h + 1) ∧ q16Int (objNum t.dev 0x304002) * (h + 1) ≤ sum + h ∧
        objNum t.dev 0x304003 = objNum s.dev 0x304003 + (if 95 * 65536 < q16Int mean then 1 else 0) ∧
        objNum t.dev 0x304004 = objNum s.dev 0x304004 + (if 105 * 65536 < q16Int mean then 1 else 0) ∧
        q16Int (objNum t.dev 0x304005) = (if h = 0 then q16Int peak else max (q16Int (objNum s.dev 0x304005)) (q16Int peak)) ∧
        t.dev.media = s.dev.media ∧ t.dev.mem = s.dev.mem ∧ t.dev.weir = s.dev.weir))

/-- R501 to R503, R505 to R508, R511, R516 and R519; messages as log entry 61 lays them out. -/
def Obligations.CascadeMembersJoinElectAndLoseEachOther : Prop :=
  (∀ (p : Fin 2) (lanes peer now : Nat) (s : State),
    let d := advanceTo now s.dev
    (cflRuns d = false ∨ d.cas.ports[p].state ≠ 1 ∨ (lanes ≠ 1 ∧ lanes ≠ 2 ∧ lanes ≠ 4) →
      exec (.confluencePortTrained p lanes peer now) s = .next { s with dev := d }) ∧
    (cflRuns d = true → d.cas.ports[p].state = 1 → lanes = 1 ∨ lanes = 2 ∨ lanes = 4 →
      ∃ t, exec (.confluencePortTrained p lanes peer now) s = .next t ∧ t.pending = s.pending ∧ t.dev.cas.ports[p].lanes = lanes ∧
        t.dev.cas.ports[p].peer = peer ∧ t.dev.cas.ports[p].rxSeq = 0 ∧
        (peerAllowed d p peer = false → t.dev.cas.ports[p].state = 3) ∧
        (peerAllowed d p peer = true → t.dev.cas.ports[p].state = 2 ∧
          (d.cas.configured = 0 ∨ (2 ≤ d.cas.state ∧ d.cas.state ≤ 4) → t.dev.cas.state = d.cas.state ∧ t.dev.media = d.media) ∧
          (d.cas.configured ≠ 0 → d.cas.state < 2 →
            (variantMembers (selfVariant d) ≤ selfId d → t.dev.cas.state = 4 ∧ t.dev.cas.cause = 1) ∧
            (selfId d < variantMembers (selfVariant d) →
              Output.flit p.val 2 0xFF [selfId d, selfVariant d, d.cas.configured, (anyLink d).toNat] ∈ t.dev.out ∧
              (selfId d ≠ 0 ∨ anyLink d = false → t.dev.cas.state = 1) ∧
              (selfId d = 0 → anyLink d = true → d.cas.master = 0xFF → t.dev.cas.state = 3 ∧ t.dev.cas.master = 0 ∧ t.dev.cas.formed = true)))))) ∧
  (∀ (d : Dev) (p : Fin 2) (id variant mode : Nat) (link : Bool),
    (joinCause d id variant mode link = 0 ↔ id < variantMembers variant ∧ id < memberLimit d ∧ id ∉ joined d ∧ mode = d.cas.configured ∧
      ¬(d.cas.configured = 2 ∧ link = true)) ∧
    let d' := decideJoin p id variant mode link d
    let cause := joinCause d id variant mode link
    (∃ q, Output.flit q 2 id [selfId d, d.cas.configured, cause] ∈ d'.out) ∧ (cause ≠ 0 → d'.cas.members = d.cas.members) ∧
    (cause = 0 → ∀ x, mapGet d'.cas.members x = if x = id then some { state := 2, variant := variant, linkUp := link, lastFlit := d.tm } else mapGet d.cas.members x)) ∧
  (∀ (p : Fin 2) (m : JoinMsg) (src now : Nat) (losing : Bool) (table : List Nat) (ms : List (Nat × Nat × Bool)) (s : State),
    listens p (advanceTo now s.dev) = false →
    exec (.join p m now) s = .next { s with dev := advanceTo now s.dev } ∧
    exec (.heartbeat p src losing now) s = .next { s with dev := advanceTo now s.dev } ∧
    exec (.placementUpdate p src table ms now) s = .next { s with dev := advanceTo now s.dev }) ∧
  (∀ (p : Fin 2) (now id variant mode cause : Nat) (link : Bool) (s : State), listens p (advanceTo now s.dev) = true →
    let d := received p id now s.dev
    (d.cas.state = 3 → exec (.join p (.request id variant mode link) now) s = .next { s with dev := sendPlacement (decideJoin p id variant mode link d) }) ∧
    (d.cas.state = 1 → mode = d.cas.configured → id ≠ selfId d → exec (.join p (.request id variant mode link) now) s =
      .next { s with dev := modifyCas (fun c =>
        { c with members := mapSet c.members id { state := 1, variant := variant, linkUp := link, lastFlit := d.tm } }) d }) ∧
    (d.cas.state ≠ 1 → d.cas.state ≠ 3 → exec (.join p (.request id variant mode link) now) s = .next { s with dev := d }) ∧
    (d.cas.state ≠ 1 → exec (.join p (.answer id mode cause) now) s = .next { s with dev := d }) ∧
    (d.cas.state = 1 → ∃ t, exec (.join p (.answer id mode cause) now) s = .next t ∧
      (cause ≠ 0 → t.dev = modifyCas (fun c => { c with state := 4, cause := cause, mode := 0 }) d) ∧
      (cause = 0 → t.dev.cas.state = 2 ∧ t.dev.cas.mode = mode ∧ t.dev.cas.master = id ∧ t.dev.cas.heartbeatAt = d.tm ∧
        (mapGet t.dev.cas.members id).any (fun k => decide (k.state = 3)) = true ∧ t.dev.media = s.dev.media))) ∧
  (∀ (p : Fin 2) (src now : Nat) (losing : Bool) (s : State), listens p (advanceTo now s.dev) = true →
    let d := received p src now s.dev
    (d.cas.state = 3 ∨ (d.cas.state = 2 ∧ d.cas.master ≠ src ∧ d.cas.master ≠ 0xFF) →
      ∃ t, exec (.heartbeat p src losing now) s = .next t ∧ t.dev.cas.ports[p].state = 3 ∧ objNum t.dev (0x801005 + 256 * p.val) = objNum d (0x801005 + 256 * p.val) + 1) ∧
    (d.cas.state = 2 → d.cas.master = src → ∃ t, exec (.heartbeat p src losing now) s = .next t ∧ t.dev.cas.heartbeatAt = d.tm ∧
      t.dev.cas.master = (if losing then 0xFF else src) ∧ t.dev.cas.state = 2 ∧ t.dev.cas.table = d.cas.table ∧ t.dev.media = s.dev.media) ∧
    (d.cas.state = 2 → d.cas.master = 0xFF → src ≠ 0xFF → losing = false → ∃ t, exec (.heartbeat p src false now) s = .next t ∧ t.dev.cas.master = src ∧
      t.dev.cas.heartbeatAt = d.tm ∧ objNum t.dev 0x800009 = d.tm % 2 ^ 64) ∧
    (d.cas.state = 1 → exec (.heartbeat p src losing now) s = .next { s with dev := sendJoin p d })) ∧
  (∀ (now : Nat) (s : State),
    let d := advanceTo now s.dev
    (cflRuns d = false ∨ d.cas.state ≠ 3 → exec (.heartbeatSend now) s = .next { s with dev := d }) ∧
    (cflRuns d = true → d.cas.state = 3 → ∃ t, exec (.heartbeatSend now) s = .next t ∧
      (∀ p : Fin 2, d.cas.ports[p].state = 2 → Output.flit p.val 1 0xFF [selfId d, d.cas.losing.toNat] ∈ t.dev.out) ∧
      (d.cas.losing = false → t.dev.cas.state = 3 ∧ t.dev.cas.master = d.cas.master) ∧
      (d.cas.losing = true → t.dev.cas.state = 2 ∧ t.dev.cas.master = 0xFF ∧ t.dev.cas.losing = false) ∧ t.dev.media = s.dev.media)) ∧
  (∀ (reach : List (Nat × Bool)) (now : Nat) (s : State),
    let d := advanceTo now s.dev
    let all := (selfId d, anyLink d) :: reach.filter fun x => x.1 ≠ selfId d
    (cflRuns d = false ∨ d.cas.state ≠ 2 ∨ (d.cas.master ≠ 0xFF ∧ d.tm < d.cas.heartbeatAt + 50000000) →
      exec (.masterLost reach now) s = .next { s with dev := d }) ∧
    (cflRuns d = true → d.cas.state = 2 → d.cas.master = 0xFF ∨ d.cas.heartbeatAt + 50000000 ≤ d.tm →
      ∃ t, exec (.masterLost reach now) s = .next t ∧
        (d.cas.mode = 2 → t.dev.cas.state = 1) ∧
        (d.cas.mode ≠ 2 → objNum t.dev 0x800008 = objNum d 0x800008 + 1 ∧ objNum t.dev 0x800009 = d.tm % 2 ^ 64 ∧
          (electionWinner all = some (selfId d) → mayElect (joined d) (if d.cas.master = 0xFF then none else some d.cas.master) (all.map Prod.fst) = true →
            t.dev.cas.state = 3 ∧ t.dev.cas.master = selfId d ∧ t.dev.cas.mode = d.cas.configured) ∧
          (electionWinner all ≠ some (selfId d) ∨ mayElect (joined d) (if d.cas.master = 0xFF then none else some d.cas.master) (all.map Prod.fst) = false →
            t.dev.cas.state = 2))) ∧
    (cflRuns d = false ∨ d.cas.state ≠ 1 ∨ d.cas.master ≠ 0xFF ∨ d.cas.formed = true → exec (.electionTimeout reach now) s = .next { s with dev := d }) ∧
    (cflRuns d = true → d.cas.state = 1 → d.cas.master = 0xFF → d.cas.formed = false →
      ∃ t, exec (.electionTimeout reach now) s = .next t ∧ objNum t.dev 0x800008 = objNum d 0x800008 + 1 ∧
        (electionWinner all = some (selfId d) →
          mayElect (((asking d).map Prod.fst).foldl (fun acc m => insNat m acc) [selfId d]) none (all.map Prod.fst) = true →
          t.dev.cas.state = 3 ∧ t.dev.cas.master = selfId d ∧ t.dev.cas.formed = true) ∧
        (electionWinner all ≠ some (selfId d) → t.dev.cas.state = 1 ∧ t.dev.cas.members = d.cas.members))) ∧
  (∀ (reach : List (Nat × Bool)) (m : Nat), electionWinner reach = some m → (m, true) ∈ reach ∧ ∀ x ∈ reach, x.2 = true → m ≤ x.1) ∧
  (∀ (before a b : List Nat) (lost : Option Nat), mayElect before lost a = true → mayElect before lost b = true → ∃ m ∈ before, m ∈ a ∧ m ∈ b) ∧
  (∀ (p : Fin 2) (now : Nat) (s : State),
    let d := advanceTo now s.dev
    let q := d.cas.ports[p]
    (listens p d = false → exec (.flitReplay p now) s = .next { s with dev := d }) ∧
    (listens p d = true → ∃ t, exec (.flitReplay p now) s = .next t ∧ Output.flit p.val 0 q.peer [q.rxSeq] ∈ t.dev.out ∧
      objNum t.dev (0x801004 + 256 * p.val) = objNum d (0x801004 + 256 * p.val) + 1 ∧
      t.dev.cas = { d.cas with ports := d.cas.ports.set p (if 7 ≤ q.fails then { q with state := 1, fails := 0 } else { q with fails := q.fails + 1 }) })) ∧
  (∀ (p : Fin 2) (lost : List Nat) (now : Nat) (s : State),
    let d := advanceTo now s.dev
    (cflRuns d = false ∨ (d.cas.ports[p].state ≠ 1 ∧ d.cas.ports[p].state ≠ 2) → exec (.confluencePortDown p lost now) s = .next { s with dev := d }) ∧
    (cflRuns d = true → d.cas.ports[p].state = 1 ∨ d.cas.ports[p].state = 2 →
      ∃ t, exec (.confluencePortDown p lost now) s = .next t ∧ t.dev.cas.ports[p].state = 0 ∧ t.dev.cas.ports[p].lanes = 0 ∧
        (mapWf d.cas.members = true → (∀ q : Fin 2, q ≠ p → d.cas.ports[q].state ≠ 2) → ∀ m ∈ joinedOthers d, m ≠ d.cas.master ∨ d.cas.state ≠ 2 →
          (mapGet t.dev.cas.members m).any (fun k => decide (k.state = 0)) = true) ∧
        ((∃ q : Fin 2, q ≠ p ∧ d.cas.ports[q].state = 2) → lost = [] → t.dev.cas.members = d.cas.members ∧ t.dev.media = d.media))) ∧
  (∀ (p : Fin 2) (src now : Nat) (table : List Nat) (ms : List (Nat × Nat × Bool)) (s : State), listens p (advanceTo now s.dev) = true →
    let d := received p src now s.dev
    (d.cas.state ≠ 2 ∨ d.cas.master ≠ src → exec (.placementUpdate p src table ms now) s = .next { s with dev := d }) ∧
    (d.cas.state = 2 → d.cas.master = src → ∃ t, exec (.placementUpdate p src table ms now) s = .next t ∧
      (∀ k : Fin 64, t.dev.cas.table[k] = table.getD k.val 0xFF) ∧
      ((ms.any fun x => x.1 = selfId d) = true → t.dev.cas.state = 2) ∧
      ((ms.any fun x => x.1 = selfId d) = false → t.dev.cas.state = 0 ∧ t.dev.cas.mode = 0 ∧ t.dev.cas.master = 0xFF))) ∧
  (∀ (ms : List Nat) (m : Nat) (t : Vector Nat 64) (k : Fin 64),
    (ms ≠ [] → ∃ x, ms[k.val % ms.length]? = some x ∧ (freshTable ms)[k] = x) ∧
    (t[k] ≠ m → (tableWithout m ms t)[k] = t[k]) ∧
    (t[k] = m → (ms.filter (· ≠ m)) ≠ [] → (tableWithout m ms t)[k] ∈ ms ∧ (tableWithout m ms t)[k] ≠ m))

/-- R508, R509, R511 to R517 and R519; messages as log entry 61 lays them out. -/
def Obligations.CascadeForwardsAreServedAnsweredAndEnded : Prop :=
  (∀ (c : Cmd) (seen : List (Nat × Nat × Nat × Nat)) (s : State), admitted c true s.dev = true →
    let d := taken c s.dev
    isPf d c.ctrl = true →
    (c.cdw10 ≠ 1 ∨ 8 ≤ c.cdw11 ∨ zeroFrom 12 c = false → Completes (.cascadeRemoveMember c) c stField 0 0 d s) ∧
    (c.cdw10 ≠ 2 ∨ 8 ≤ c.cdw11 ∨ zeroFrom 12 c = false → Completes (.cascadeRebalance c) c stField 0 0 d s) ∧
    (c.cdw10 ≠ 3 ∨ 8 ≤ c.cdw11 ∨ zeroFrom 12 c = false → Completes (.cascadeLoadKek1 c) c stField 0 0 d s) ∧
    (c.cdw10 ≠ 0 ∨ zeroFrom 11 c = false → Completes (.cascadeStatus c seen) c stField 0 0 d s) ∧
    (c.cdw10 = 0 → zeroFrom 11 c = true →
      (d.cas.state ≠ 3 → Completes (.cascadeStatus c seen) c stNotMaster 0 0 d s) ∧
      (d.cas.state = 3 → Completes (.cascadeStatus c seen) c stOk 0 0 d s
        [.data c.ctrl c.cid (d.cas.table.toList.map (BitVec.ofNat 8) ++ ((List.range 8).map (statusRecord d seen)).flatten)])) ∧
    (c.cdw11 < 8 → zeroFrom 12 c = true →
      let joins := decide (c.cdw11 ∈ joined d)
      (c.cdw10 = 1 →
        (d.cas.state ≠ 3 → Completes (.cascadeRemoveMember c) c stNotMaster 0 0 d s) ∧
        (d.cas.state = 3 → joins = false → Completes (.cascadeRemoveMember c) c stUnreachable 0 0 d s) ∧
        (d.cas.state = 3 → joins = true → ∃ t, exec (.cascadeRemoveMember c) s = .next t ∧ Posted c.ctrl c.sq c.cid stOk 0 0 t.dev ∧
          t.dev.cas.table = tableWithout c.cdw11 (joined d) d.cas.table ∧ (∀ e ∈ t.dev.cas.index, e.2.1 ≠ c.cdw11) ∧ t.dev.cas.state = 3)) ∧
      (c.cdw10 = 2 →
        (d.cas.state ≠ 3 → Completes (.cascadeRebalance c) c stNotMaster 0 0 d s) ∧
        (d.cas.state = 3 → ∃ t, exec (.cascadeRebalance c) s = .next t ∧ Posted c.ctrl c.sq c.cid stOk 0 0 t.dev ∧
          t.dev.cas.table = freshTable (joined d) ∧ t.dev.cas.state = 3)) ∧
      (c.cdw10 = 3 →
        (d.cas.state ≠ 3 → Completes (.cascadeLoadKek1 c) c stNotMaster 0 0 d s) ∧
        (d.cas.state = 3 → joins = false → Completes (.cascadeLoadKek1 c) c stUnreachable 0 0 d s) ∧
        (d.cas.state = 3 → joins = true → loadFieldsOk (padTo 128 c.data) = false → Completes (.cascadeLoadKek1 c) c stField 0 0 d s) ∧
        (d.cas.state = 3 → joins = true → loadFieldsOk (padTo 128 c.data) = true →
          (c.cdw11 = selfId d → exec (.cascadeLoadKek1 c) s = .next { s with dev := loadKek c.ctrl c.cid 0xC6 (padTo 128 c.data) d }) ∧
          (c.cdw11 ≠ selfId d → ∃ t, exec (.cascadeLoadKek1 c) s = .next t ∧
            mapGet t.dev.cas.relays d.cas.nextTag = some { opc := 0xC6, ctrl := c.ctrl, cid := c.cid, left := [c.cdw11], since := d.tm } ∧
            ∃ q, Output.flit q 8 c.cdw11 (d.cas.nextTag :: 0xC4 :: 2 ^ 31 :: (padTo 128 c.data).map (·.toNat)) ∈ t.dev.out))))) ∧
  (∀ (d : Dev) (seen : List (Nat × Nat × Nat × Nat)),
    (d.cas.table.toList.map (BitVec.ofNat 8) ++ ((List.range 8).map (statusRecord d seen)).flatten).length = 320) ∧
  (∀ (p : Fin 2) (src now : Nat) (s : State), listens p (advanceTo now s.dev) = true → knows src (received p src now s.dev) = false →
    ∀ i : Instr, (∃ f bad mapBad, f.src = src ∧ i = .forwardRequest p f bad mapBad now) ∨ (∃ t u l, i = .dataFlit p src t u l none now) ∨
      (∃ t sct sc dw0 dw1, i = .forwardCompletion p src t sct sc dw0 dw1 now) ∨ (∃ t op a key, i = .indexLookup p src t op a key now) ∨
      (∃ t found holder back bad mapBad, i = .indexReply p src t found holder back bad mapBad now) ∨ (∃ t opc l, i = .keyRelay p src t opc l now) ∨
      (∃ t, i = .abortFlit p src t now) →
    ∃ t, exec i s = .next t ∧ t.dev.cas.ports[p].state = 3 ∧ t.dev.media.store.objs = s.dev.media.store.objs ∧
      objNum t.dev (0x801005 + 256 * p.val) = objNum (received p src now s.dev) (0x801005 + 256 * p.val) + 1) ∧
  (∀ (p : Fin 2) (f : FwdReq) (bad : List Nat) (mapBad : Option Nat) (now : Nat) (s : State), listens p (advanceTo now s.dev) = true →
    knows f.src (received p f.src now s.dev) = true →
    exec (.forwardRequest p f bad mapBad now) s = .next { s with dev := serveForward f bad mapBad (received p f.src now s.dev) }) ∧
  (∀ (f : FwdReq) (bad : List Nat) (mapBad : Option Nat) (d : Dev),
    let d1 := bump 0x802002 (gaugeCount 0x00F d)
    let master := d.cas.state = 3 ∨ (d.cas.state = 2 ∧ d.cas.master ≠ 0xFF)
    (¬master → serveForward f bad mapBad d = d) ∧
    (master → mapGet d.media.nss f.nsid = none → serveForward f bad mapBad d = refuseForward f stNamespace d1) ∧
    (∀ n, master → mapGet d.media.nss f.nsid = some n → n.kind = 2 → n.tag = keyTag f.key →
      (f.kind = 0 → serveForward f bad mapBad d = serveRead f bad mapBad d1) ∧ (f.kind = 1 → serveForward f bad mapBad d = servePut f n d1) ∧
      (f.kind = 2 → serveForward f bad mapBad d = serveEvict f bad d1) ∧ (f.kind = 3 → serveForward f bad mapBad d = serveLookup f bad d1) ∧
      (f.kind = 5 → serveForward f bad mapBad d = serveWhole f bad mapBad d1))) ∧
  (∀ (f : FwdReq) (st : Status) (n : Namespace) (bad : List Nat) (mapBad : Option Nat) (d : Dev),
    (∃ q, Output.flit q 5 f.src [f.tag, st.1, st.2, 0, 0] ∈ (refuseForward f st d).out) ∧ (refuseForward f st d).reqs = d.reqs ∧
    (∀ d1 back, classSearch f.key f.cls bad d = (none, back, d1) → serveRead f bad mapBad d = refuseForward f stAbsent d1) ∧
    (∀ h rec o back d1, classSearch f.key f.cls bad d = (some (h, rec, o), back, d1) →
      (h.entry.poison = true → serveRead f bad mapBad d = refuseForward f stPoison d1) ∧
      (h.entry.poison = false → o.withdrawn = true → serveRead f bad mapBad d = refuseForward f stWithdrawn d1) ∧
      (h.entry.poison = false → o.withdrawn = false → ∃ q k l, (k = 4 ∨ k = 5) ∧ Output.flit q k f.src (f.tag :: l) ∈ (serveRead f bad mapBad d).out)) ∧
    (∀ b, mapGet d.media.titles (keyTag f.key * 2 ^ 32 + keyTitle f.key) = some b →
      (b.slot ≠ f.slot.getD 0 → servePut f n d = refuseForward f stField d) ∧
      (b.slot = f.slot.getD 0 → b.kcv ≠ f.gen → servePut f n d = refuseForward f stRevoked d)) ∧
    ((∀ b, mapGet d.media.titles (keyTag f.key * 2 ^ 32 + keyTitle f.key) = some b → b.slot = f.slot.getD 0 ∧ b.kcv = f.gen) →
      (putFits d 1 f.key n f.len = false → servePut f n d = refuseForward f stCapacity d) ∧
      (putFits d 1 f.key n f.len = true → ∃ tag r, mapGet (servePut f n d).reqs tag = some r ∧ r.op = 2 ∧ r.step = .arriving ∧ r.key = f.key ∧
        r.len = f.len ∧ r.remote = some (f.src, f.tag) ∧
        mapGet (servePut f n d).media.titles (keyTag f.key * 2 ^ 32 + keyTitle f.key) = some { slot := f.slot.getD 0, kcv := f.gen })) ∧
    (∀ d1, findObject f.key bad d = (none, d1) → serveEvict f bad d = refuseForward f stAbsent d1 ∧ serveLookup f bad d = refuseForward f stAbsent d1) ∧
    (∀ h rec o d1, findObject f.key bad d = (some (h, rec, o), d1) →
      (∃ q, Output.flit q 5 f.src [f.tag, 0, 0, 0, if o.withdrawn then 1 else 0] ∈ (serveEvict f bad d).out) ∧
      ((nsByTag d1 (keyTag f.key)).isSome = true → (serveEvict f bad d).media.store.objs = mapErase d1.media.store.objs rec) ∧
      (h.entry.poison = false → (∃ q, Output.flit q 4 f.src (f.tag :: 0 :: (lookupRecord o).map (·.toNat)) ∈ (serveLookup f bad d).out) ∧
        ∃ q, Output.flit q 5 f.src [f.tag, 0, 0, if o.withdrawn then 1 else 0, 0] ∈ (serveLookup f bad d).out)) ∧
    (profileImage d f.ver = none → serveWhole f bad mapBad d = refuseForward f stProfile d) ∧
    (∀ img k, profileImage d f.ver = some img → unitMissing d img = false → f.slot = some k → slotGen d k f.gen = none →
      serveWhole f bad mapBad d = refuseForward f stRevoked d)) ∧
  (∀ (p : Fin 2) (src t u now : Nat) (l : List Nat) (s : State), listens p (advanceTo now s.dev) = true →
    let d := received p src now s.dev
    (∀ k, exec (.dataFlit p src t u l (some k) now) s = .next { s with dev := isolate p (1 + k.val) [] d }) ∧
    (knows src d = true →
      (∀ tag r, servedPut d src t = some (tag, r) → ∀ dec bs, l = dec :: bs →
        (u < unitCount r.len → bs.length = roundUp (min 4096 (r.len - 4096 * u)) 16 → exec (.dataFlit p src t u l none now) s =
          .next { s with dev := modifyReq tag (fun r => { r with cipher := mapSet r.cipher u (fieldBytes bs), obj := { r.obj with decoded := dec } }) d }) ∧
        (unitCount r.len ≤ u ∨ bs.length ≠ roundUp (min 4096 (r.len - 4096 * u)) 16 →
          exec (.dataFlit p src t u l none now) s = .next { s with dev := isolate p 5 [] d })) ∧
      (servedPut d src t = none → mapGet d.cas.forwards t = none → exec (.dataFlit p src t u l none now) s = .next { s with dev := d }) ∧
      (∀ f, servedPut d src t = none → mapGet d.cas.forwards t = some f → f.member = src →
        (f.req = none → f.kind = 3 → u = 0 → exec (.dataFlit p src t u l none now) s = .next { s with dev := emit (.data f.cmd.1 f.cmd.2.2 (fieldBytes l)) d }) ∧
        (∀ tag r, f.req = some tag → mapGet d.reqs tag = some r →
          (f.kind = 5 → (u * 4096 = r.output.length → l.length ≤ 4096 → r.output.length + l.length ≤ r.len → exec (.dataFlit p src t u l none now) s =
              .next { s with dev := modifyReq tag (fun r => { r with output := r.output ++ fieldBytes l }) d }) ∧
            (u * 4096 ≠ r.output.length ∨ r.len < r.output.length + l.length → exec (.dataFlit p src t u l none now) s = .next { s with dev := isolate p 5 [] d })) ∧
          (f.kind ≠ 5 → u ≠ headerUnit →
            (u < unitCount r.obj.stored → l.length = unitLen r.obj u → exec (.dataFlit p src t u l none now) s =
              .next { s with dev := modifyReq tag (fun r => { r with cipher := mapSet r.cipher u (fieldBytes l) }) d }) ∧
            (unitCount r.obj.stored ≤ u ∨ l.length ≠ unitLen r.obj u → exec (.dataFlit p src t u l none now) s = .next { s with dev := isolate p 5 [] d })) ∧
          (f.kind ≠ 5 → u = headerUnit → ∀ a b c slot kcv v, l = [a, b, c, slot, kcv, v] → slotKcv d slot ≠ kcv → r.ctrl ≠ 0 → hasQueues r.ctrl r.sq d →
            ∃ t', exec (.dataFlit p src t u l none now) s = .next t' ∧ Posted r.ctrl r.sq r.cid stRevoked 0 0 t'.dev))))) ∧
  (∀ (p : Fin 2) (src t sct sc dw0 dw1 now : Nat) (s : State), listens p (advanceTo now s.dev) = true →
    let d := received p src now s.dev
    knows src d = true →
    (mapGet d.cas.forwards t = none → mapGet d.cas.relays t = none →
      exec (.forwardCompletion p src t sct sc dw0 dw1 now) s = .next { s with dev := isolate p 6 [] d }) ∧
    (∀ f, mapGet d.cas.forwards t = some f →
      (f.member ≠ src → exec (.forwardCompletion p src t sct sc dw0 dw1 now) s = .next { s with dev := isolate p 6 [] d }) ∧
      (f.member = src → f.kind ≠ 4 → f.req = none → hasQueues f.cmd.1 f.cmd.2.1 d →
        ∃ t', exec (.forwardCompletion p src t sct sc dw0 dw1 now) s = .next t' ∧ Posted f.cmd.1 f.cmd.2.1 f.cmd.2.2 (sct, sc) dw0 dw1 t'.dev) ∧
      (∀ tag r, f.member = src → f.kind ≠ 4 → f.req = some tag → mapGet d.reqs tag = some r →
        ((sct, sc) ≠ stOk ∨ r.op = 2 → hasQueues r.ctrl r.sq d → r.ctrl ≠ 0 →
          ∃ t', exec (.forwardCompletion p src t sct sc dw0 dw1 now) s = .next t' ∧ Posted r.ctrl r.sq r.cid (sct, sc) dw0 dw1 t'.dev) ∧
        ((sct, sc) = stOk → r.op ≠ 2 → f.kind ≠ 5 → exec (.forwardCompletion p src t sct sc dw0 dw1 now) s = .next { s with dev := endForward t d }) ∧
        ((sct, sc) = stOk → r.op = 0 → f.kind = 5 → ∃ t' r', exec (.forwardCompletion p src t sct sc dw0 dw1 now) s = .next t' ∧
          mapGet t'.dev.reqs tag = some r' ∧ r'.step = .dma ∧ r'.rangesDone = dw1 ∧ r'.output = r.output))) ∧
    (∀ r, mapGet d.cas.forwards t = none → mapGet d.cas.relays t = some r → src ∈ r.left → hasQueues r.ctrl 0 d →
      ((sct, sc) ≠ stOk → ∃ t', exec (.forwardCompletion p src t sct sc dw0 dw1 now) s = .next t' ∧ Posted r.ctrl 0 r.cid (sct, sc) 0 0 t'.dev) ∧
      ((sct, sc) = stOk → r.left = [src] → ∃ t', exec (.forwardCompletion p src t sct sc dw0 dw1 now) s = .next t' ∧
        Posted r.ctrl 0 r.cid stOk r.dw0 (if r.opc = 0xC6 then dw1 else r.dw1) t'.dev))) ∧
  (∀ (p : Fin 2) (src t op a key now : Nat) (s : State), listens p (advanceTo now s.dev) = true →
    let d := received p src now s.dev
    knows src d = true →
    (d.cas.state ≠ 3 ∨ d.cas.mode = 3 → exec (.indexLookup p src t op a key now) s = .next { s with dev := d }) ∧
    (d.cas.state = 3 → d.cas.mode ≠ 3 →
      (op = 0 → d.cas.rebuilding = true → exec (.indexLookup p src t op a key now) s =
        .next { s with dev := modifyCas (fun c => { c with waiting := c.waiting ++ [(src, t, a, key)] }) d }) ∧
      (op = 0 → d.cas.rebuilding = false → ∃ q t', exec (.indexLookup p src t op a key now) s = .next t' ∧ t'.dev.media = s.dev.media ∧
        Output.flit q 7 src (match indexFind d key a with
          | none => [t, 0, 0, 0, 0]
          | some (h, rec, back) => [t, 1, h, rec, back.toNat]) ∈ t'.dev.out) ∧
      (op = 1 → ∃ q t', exec (.indexLookup p src t op a key now) s = .next t' ∧
        (mapGet d.cas.index key = none → indexSize d ≤ d.cas.index.length → t'.dev.cas.index = d.cas.index ∧ Output.flit q 7 src [t, 0, 0, 0, 0] ∈ t'.dev.out) ∧
        (d.cas.index.length < indexSize d → mapGet t'.dev.cas.index key = some (src, a) ∧ (∀ x, x ≠ key → mapGet t'.dev.cas.index x = mapGet d.cas.index x) ∧
          Output.flit q 7 src [t, 1, src, a, 0] ∈ t'.dev.out)) ∧
      (2 ≤ op → (mapGet d.cas.index key).map Prod.fst = some src →
        exec (.indexLookup p src t op a key now) s = .next { s with dev := modifyCas (fun c => { c with index := mapErase c.index key }) d }))) ∧
  (∀ (p : Fin 2) (src t holder now : Nat) (found back : Bool) (bad : List Nat) (mapBad : Option Nat) (s : State), listens p (advanceTo now s.dev) = true →
    let d := received p src now s.dev
    knows src d = true →
    (mapGet d.cas.forwards t = none → exec (.indexReply p src t found holder back bad mapBad now) s = .next { s with dev := d }) ∧
    (∀ f tag r, mapGet d.cas.forwards t = some f → f.kind = 4 → f.member = src → f.req = some tag → mapGet d.reqs tag = some r →
      (r.op = 2 → found = true → r.ctrl ≠ 0 → hasQueues r.ctrl r.sq d → ∃ t', exec (.indexReply p src t found holder back bad mapBad now) s = .next t' ∧
        Posted r.ctrl r.sq r.cid stOk r.obj.decoded r.rangesDone t'.dev) ∧
      (r.op = 2 → found = false → r.ctrl ≠ 0 → hasQueues r.ctrl r.sq d → ∃ t', exec (.indexReply p src t found holder back bad mapBad now) s = .next t' ∧
        Posted r.ctrl r.sq r.cid stCapacity 0 0 t'.dev) ∧
      (r.op ≠ 2 → found = false → r.ctrl ≠ 0 → hasQueues r.ctrl r.sq d → ∃ t', exec (.indexReply p src t found holder back bad mapBad now) s = .next t' ∧
        Posted r.ctrl r.sq r.cid stAbsent 0 0 t'.dev) ∧
      (r.op ≠ 2 → found = true → exec (.indexReply p src t found holder back bad mapBad now) s =
        .next { s with dev := goOn tag holder back bad mapBad (endForward t d) }))) ∧
  (∀ (p : Fin 2) (src t opc now : Nat) (l : List Nat) (s : State), listens p (advanceTo now s.dev) = true →
    let d := received p src now s.dev
    knows src d = true →
    (d.cas.state ≠ 2 ∨ d.cas.master ≠ src → exec (.keyRelay p src t opc l now) s = .next { s with dev := d }) ∧
    (d.cas.state = 2 → d.cas.master = src →
      (∀ rest, l = 2 ^ 31 :: rest → exec (.keyRelay p src t 0xC4 l now) s = .next { s with dev := loadKek 0 t 0xC4 (padTo 128 (fieldBytes rest)) d }) ∧
      (∀ n rest, l = n :: rest → n < 8192 →
        (d.cas.mode ≠ 2 → exec (.keyRelay p src t opc l now) s = .next { s with dev := d }) ∧
        (d.cas.mode = 2 → (keySlot d n).allocated = true →
          exec (.keyRelay p src t 0xC4 l now) s = .next { s with dev := loadSlot 0 t n (padTo 128 (fieldBytes rest)) d }) ∧
        (d.cas.mode = 2 → ∃ q k t', exec (.keyRelay p src t 0xC5 l now) s = .next t' ∧ Output.flit q 5 src [t, 0, 0, k, 0] ∈ t'.dev.out)))) ∧
  (∀ (p : Fin 2) (src t now : Nat) (s : State), listens p (advanceTo now s.dev) = true → knows src (received p src now s.dev) = true →
    ∃ t', exec (.abortFlit p src t now) s = .next t' ∧ (∀ w ∈ t'.dev.cas.waiting, ¬(w.1 = src ∧ w.2.1 = t)) ∧
      (mapWf s.dev.reqs = true → ∀ tag r, mapGet t'.dev.reqs tag = some r → ¬(r.ctrl = 0 ∧ r.remote = some (src, t)))) ∧
  (∀ (t now : Nat) (s : State),
    let d := advanceTo now s.dev
    (mapGet d.cas.forwards t = none → mapGet d.cas.relays t = none → exec (.forwardTimeout t now) s = .next { s with dev := d }) ∧
    (∀ f, mapGet d.cas.forwards t = some f →
      (d.tm < f.since + 100000000 → exec (.forwardTimeout t now) s = .next { s with dev := d }) ∧
      (f.since + 100000000 ≤ d.tm → f.kind ≠ 4 → f.req = none → hasQueues f.cmd.1 f.cmd.2.1 d →
        ∃ t', exec (.forwardTimeout t now) s = .next t' ∧ Posted f.cmd.1 f.cmd.2.1 f.cmd.2.2 stNotReady 0 0 t'.dev) ∧
      (∀ tag r, f.since + 100000000 ≤ d.tm → f.kind ≠ 4 → f.req = some tag → mapGet d.reqs tag = some r → r.ctrl ≠ 0 → hasQueues r.ctrl r.sq d →
        ∃ t', exec (.forwardTimeout t now) s = .next t' ∧ Posted r.ctrl r.sq r.cid (if r.op = 2 then stNotReady else stWithdrawn) 0 0 t'.dev)) ∧
    (∀ r, mapGet d.cas.forwards t = none → mapGet d.cas.relays t = some r →
      (d.tm < r.since + 100000000 → exec (.forwardTimeout t now) s = .next { s with dev := d }) ∧
      (r.since + 100000000 ≤ d.tm → hasQueues r.ctrl 0 d →
        ∃ t', exec (.forwardTimeout t now) s = .next t' ∧ Posted r.ctrl 0 r.cid stUnreachable 0 0 t'.dev))) ∧
  (∀ (entries : List (Nat × Nat × Nat)) (bad : List Nat) (mapBad : Option Nat) (now : Nat) (s : State),
    let d := advanceTo now s.dev
    (cflRuns d = false → exec (.indexRebuildDone entries bad mapBad now) s = .next { s with dev := d }) ∧
    (cflRuns d = true → d.cas.state = 2 → d.cas.master ≠ 0xFF → exec (.indexRebuildDone entries bad mapBad now) s = .next { s with dev := askAgain d }) ∧
    (cflRuns d = true → d.cas.state = 3 → d.cas.rebuilding = true → d.cas.forwards = [] → ∃ t, exec (.indexRebuildDone entries bad mapBad now) s = .next t ∧
      t.dev.cas.rebuilding = false ∧ t.dev.cas.waiting = [] ∧
      (∀ key m rec, mapGet t.dev.cas.index key = some (m, rec) → (key, m, rec) ∈ entries ∨ (m = selfId d ∧ (key, rec) ∈ ownObjects d)) ∧
      (∀ e ∈ entries, e.2.1 ∈ joinedOthers d → (mapGet t.dev.cas.index e.1).isSome = true) ∧
      ∀ w ∈ d.cas.waiting, ∃ q l, Output.flit q 7 w.1 (w.2.1 :: l) ∈ t.dev.out))

/-- The memory of R279 (Pool, local memories, boot ROM and DRAM) as one list of bytes; its form is the model's own (log entry 2). -/
def Obligations.EveryStepKeepsMemoryInItsForm : Prop :=
  ∀ s t : State, s.MemOk → Machine.step s = .next t → t.MemOk

/-- The base of EveryStepKeepsMemoryInItsForm; what memory reads as before anything is written is the model's choice (log entry 2). -/
def Obligations.ResetListsNoMemory : Prop :=
  State.reset.MemOk ∧ State.reset.dev.mem = [] ∧ State.reset.pending = []
end

