-- ==== Sys2Proof/Laws/Fx.lean ====
section
/-! SUPPORT. Laws/Fx.lean: what issuing an FX32 instruction does, said once: the lemmas that every statement about an instruction cites. -/
namespace Sys2Proof.Machine

@[simp] theorem modifyCore_get (n : CoreId) (f : FxCore → FxCore) (d : Dev) : (modifyCore n f d).cores[n.val] = f d.cores[n.val] := by
  simp [modifyCore]

@[simp] theorem modifyCore_modifyCore (n : CoreId) (f g : FxCore → FxCore) (d : Dev) :
    modifyCore n f (modifyCore n g d) = modifyCore n (fun c => f (g c)) d := by
  simp [modifyCore]

theorem modifyCore_other {n m : CoreId} (h : n ≠ m) (f : FxCore → FxCore) (d : Dev) : (modifyCore n f d).cores[m] = d.cores[m] := by
  have h' : n.val ≠ m.val := fun e => h (Fin.ext e)
  simp [modifyCore, h']

@[simp] theorem withCore_get (s : State) (n : CoreId) (c : FxCore) : (s.withCore n c).dev.cores[n.val] = c := by simp [State.withCore]

theorem run_withCore (s : State) (n : CoreId) (f : Dev → Dev) (c : FxCore) (h : f s.dev = modifyCore n (fun _ => c) s.dev) :
    run f s = .next (s.withCore n c) := by
  simp [run, State.withCore, h]

/-- Issue in a ready state runs the instruction's body on the core as its operands have come. -/
theorem fxIssue_ready {n : CoreId} {w : Word} {uses : List Reg} {k : Nat} {body : FxBody} {d : Dev} (h : fxReady n w uses d = true) :
    fxIssue n w uses k body d = fxExecute n k body (modifyCore n (fun _ => fxCore n uses d) d) := by
  simp only [fxReady, Bool.and_eq_true, decide_eq_true_eq, Bool.not_eq_true'] at h
  obtain ⟨⟨⟨h1, h2⟩, h3⟩, h4⟩ := h
  have e : modifyCore n (fun c => landDue { c with run := .running }) d = fxLanded n d := rfl
  have e4 : (returnLoads (fun l => l.dests.any fun rv => uses.contains rv.1) (fxLanded n d).cores[n]).1 = none := h4
  have e5 : modifyCore n (fun _ => (returnLoads (fun l => l.dests.any fun rv => uses.contains rv.1) (fxLanded n d).cores[n]).2) (fxLanded n d)
      = modifyCore n (fun _ => fxCore n uses d) d := by
    rw [show fxLanded n d = modifyCore n (fun c => landDue { c with run := .running }) d from rfl, modifyCore_modifyCore]
    rfl
  unfold fxIssue
  simp only [h1, h2, Bool.not_true, Bool.false_eq_true, if_false, e, h3, e4, e5]

/-- An instruction that changes only its core, in a ready state. -/
theorem fxCoreOp_ready {n : CoreId} {w : Word} {uses : List Reg} {k : Nat} {f : FxCore → FxCore} {d : Dev} (h : fxReady n w uses d = true) :
    fxCoreOp n w uses k f d = modifyCore n (fun _ => retire (fxCore n uses d).pc
      { f (fxCore n uses d) with cycle := (f (fxCore n uses d)).cycle + k }) d := by
  unfold fxCoreOp
  rw [fxIssue_ready h]
  simp [fxExecute]

/-- The end of an instruction by a jump. -/
theorem fxExecute_jump {n : CoreId} {k k' : Nat} {t : Word} {body : FxBody} {d d1 : Dev} (h : body d.cores[n].pc d = (.jump t k', d1)) :
    fxExecute n k body d = modifyCore n (fun c => { c with pc := t, cycle := c.cycle + k' }) d1 := by
  unfold fxExecute
  simp only [h]

/-- The end of an instruction in sequence. -/
theorem fxExecute_seq {n : CoreId} {k : Nat} {body : FxBody} {d d1 : Dev} (h : body d.cores[n].pc d = (.seq, d1)) :
    fxExecute n k body d = modifyCore n (fun c => retire d.cores[n].pc { c with cycle := c.cycle + k }) d1 := by
  unfold fxExecute
  simp only [h]

/-- The end of an instruction by an exception. -/
theorem fxExecute_trap {n : CoreId} {k code sub : Nat} {v : Word} {body : FxBody} {d d1 : Dev}
    (h : body d.cores[n].pc d = (.trap code sub v, d1)) : fxExecute n k body d = takeException n code sub false d.cores[n].pc v d := by
  unfold fxExecute
  simp only [h]

end Sys2Proof.Machine
end

