-- ==== Sys2Proof/Laws/Host.lean ====
section
/-! SUPPORT. Laws/Host.lean: what reports and completions leave alone, and that a completion is posted: the lemmas that every statement about a
command of the host cites. -/
namespace Sys2Proof.Machine

/-! ## Maps -/

theorem mapGet_set {β : Type} (m : AMap β) (a : Nat) (x : β) : mapGet (mapSet m a x) a = some x := by
  induction m with
  | nil => simp [mapSet, mapGet]
  | cons kv m ih =>
    obtain ⟨k, v⟩ := kv
    unfold mapSet
    split
    · simp [mapGet]
    · split
      · simp [mapGet]
      · rename_i h1 h2
        simp [mapGet, h1, h2, ih]

theorem mapGet_set_ne {β : Type} (m : AMap β) (a b : Nat) (x : β) (h : b ≠ a) : mapGet (mapSet m a x) b = mapGet m b := by
  induction m with
  | nil => simp [mapSet, mapGet, h]
  | cons kv m ih =>
    obtain ⟨k, v⟩ := kv
    unfold mapSet
    split
    · rename_i h1
      simp only [mapGet, h, if_false]
      split
      · rename_i h2
        have : b ≠ k := by omega
        have : b < k := by omega
        simp [*]
      · rfl
    · split
      · rename_i h1 h2
        subst h2
        simp [mapGet, h]
      · simp only [mapGet, ih]

theorem mapGet_update {β : Type} (m : AMap β) (a b : Nat) (f : β → β) :
    mapGet (mapUpdate m a f) b = if b = a then (mapGet m b).map f else mapGet m b := by
  unfold mapUpdate
  by_cases h : b = a
  · subst h
    cases e : mapGet m b with
    | none => simp [e]
    | some v => simp [mapGet_set]
  · cases e : mapGet m a with
    | none => simp [h]
    | some v => simp [mapGet_set_ne _ _ _ _ h, h]

theorem getCtrl_modify (id id' : Nat) (f : Ctrl → Ctrl) (d : Dev) :
    getCtrl (modifyCtrl id f d) id' = if id' = id then (getCtrl d id').map f else getCtrl d id' := mapGet_update _ _ _ _

/-! ## What reports leave alone -/

theorem Ctrl.Kept.refl (k : Ctrl) : Ctrl.Kept k k := ⟨rfl, fun _ => rfl, fun _ => rfl⟩

theorem Ctrl.Kept.trans {a b c : Ctrl} (h : Ctrl.Kept a b) (g : Ctrl.Kept b c) : Ctrl.Kept a c :=
  ⟨g.rest.trans h.rest, fun i => (g.sqs i).trans (h.sqs i), fun i => (g.cqs i).trans (h.cqs i)⟩

/-- A change of what a report touches outside the queues. -/
theorem Ctrl.Kept.of {k k' : Ctrl} (h : k'.setUp = k.setUp) (hs : k'.sqs = k.sqs) (hc : k'.cqs = k.cqs) : Ctrl.Kept k k' :=
  ⟨h, fun _ => by rw [hs], fun _ => by rw [hc]⟩

theorem Ctrl.Kept.setSq {k : Ctrl} {i : Nat} {q q' : SubQueue} (h : mapGet k.sqs i = some q) (e : q'.setUp = q.setUp) :
    Ctrl.Kept k { k with sqs := mapSet k.sqs i q' } := by
  refine ⟨rfl, fun j => ?_, fun _ => rfl⟩
  by_cases hj : j = i
  · subst hj
    simp only [mapGet_set, h, Option.map_some, e]
  · simp only [mapGet_set_ne _ _ _ _ hj]

theorem Ctrl.Kept.setCq {k : Ctrl} {i : Nat} {q q' : CompQueue} (h : mapGet k.cqs i = some q) (e : q'.setUp = q.setUp) :
    Ctrl.Kept k { k with cqs := mapSet k.cqs i q' } := by
  refine ⟨rfl, fun _ => rfl, fun j => ?_⟩
  by_cases hj : j = i
  · subst hj
    simp only [mapGet_set, h, Option.map_some, e]
  · simp only [mapGet_set_ne _ _ _ _ hj]

theorem Ctrl.Kept.updateSq (k : Ctrl) (i : Nat) (f : SubQueue → SubQueue) (e : ∀ q, (f q).setUp = q.setUp) :
    Ctrl.Kept k { k with sqs := mapUpdate k.sqs i f } := by
  refine ⟨rfl, fun j => ?_, fun _ => rfl⟩
  simp only [mapGet_update]
  split
  · cases mapGet k.sqs j with
    | none => rfl
    | some q => simp only [Option.map_some, e]
  · rfl

theorem Ctrl.Kept.updateCq (k : Ctrl) (i : Nat) (f : CompQueue → CompQueue) (e : ∀ q, (f q).setUp = q.setUp) :
    Ctrl.Kept k { k with cqs := mapUpdate k.cqs i f } := by
  refine ⟨rfl, fun _ => rfl, fun j => ?_⟩
  simp only [mapGet_update]
  split
  · cases mapGet k.cqs j with
    | none => rfl
    | some q => simp only [Option.map_some, e]
  · rfl

theorem HostIf.Kept.refl (h : HostIf) : HostIf.Kept h h := ⟨rfl, fun _ k e => ⟨k, e, .refl k⟩, fun _ e => e⟩

theorem HostIf.Kept.trans {a b c : HostIf} (h : HostIf.Kept a b) (g : HostIf.Kept b c) : HostIf.Kept a c := by
  refine ⟨?_, fun id k e => ?_, fun id e => g.none id (h.none id e)⟩
  · rw [g.rest, h.rest]
  · obtain ⟨k1, e1, r1⟩ := h.ctrls id k e
    obtain ⟨k2, e2, r2⟩ := g.ctrls id k1 e1
    exact ⟨k2, e2, r1.trans r2⟩

theorem SameWork.refl (d : Dev) : SameWork d d := ⟨rfl, fun _ => rfl, .refl _⟩

theorem SameWork.trans {a b c : Dev} (h : SameWork a b) (g : SameWork b c) : SameWork a c := by
  refine ⟨?_, fun n => ?_, h.host.trans g.host⟩
  · rw [g.rest, h.rest]
  · rw [g.cores n, h.cores n]

/-- A change of the outputs, Gauge and the logs alone. -/
theorem SameWork.of (d : Dev) (o : List Output) (g : Gauge) (e v : EventLog) :
    SameWork d { d with out := o, gauge := g, errLog := e, vioLog := v } := ⟨rfl, fun _ => rfl, .refl _⟩

theorem emit_same (o : Output) (d : Dev) : SameWork d (emit o d) := ⟨rfl, fun _ => rfl, .refl _⟩

theorem modifyCtrl_same {id : Nat} {f : Ctrl → Ctrl} {d : Dev} (h : ∀ k, getCtrl d id = some k → Ctrl.Kept k (f k)) :
    SameWork d (modifyCtrl id f d) := by
  refine ⟨rfl, fun _ => rfl, rfl, fun id' k e => ?_, fun id' e => ?_⟩
  · have e' : getCtrl d id' = some k := e
    show ∃ k', getCtrl (modifyCtrl id f d) id' = some k' ∧ _
    rw [getCtrl_modify, e']
    by_cases c : id' = id
    · subst c
      exact ⟨f k, by simp, h k e'⟩
    · exact ⟨k, by simp [c], .refl k⟩
  · have e' : getCtrl d id' = Option.none := e
    show getCtrl (modifyCtrl id f d) id' = Option.none
    rw [getCtrl_modify, e']
    split <;> rfl

theorem bind_getCtrl {β : Type} {d : Dev} {id : Nat} {g : Ctrl → Option β} {b : β} (h : (getCtrl d id).bind g = some b) :
    ∃ k, getCtrl d id = some k ∧ g k = some b := Option.bind_eq_some_iff.mp h

theorem raiseEvent_same (d : Dev) : SameWork d (raiseEvent d) := by
  refine ⟨rfl, fun n => ?_, .refl _⟩
  by_cases h : n = 32
  · subst h; simp [raiseEvent, raiseLevel, modifyCore]
  · have h' : (32 : CoreId).val ≠ n.val := fun e => h (Fin.ext e.symm)
    have h2 : ((32 : CoreId) : Nat) ≠ (n : Nat) := h'
    simp only [raiseEvent, raiseLevel, modifyCore, Fin.getElem_fin]
    rw [Vector.getElem_set_ne _ _ h2]

theorem gaugeAdd_same (src w : Nat) (d : Dev) : SameWork d (gaugeAdd src w d) := by
  unfold gaugeAdd
  have h : SameWork d { d with gauge := { d.gauge with counters := d.gauge.counters.map (gaugeBump (BitVec.ofNat 9 src) w) } } := ⟨rfl, fun _ => rfl, .refl _⟩
  dsimp only
  split
  · exact h.trans (raiseEvent_same _)
  · exact h

theorem gaugeCount_same (src : Nat) (d : Dev) : SameWork d (gaugeCount src d) := gaugeAdd_same src 1 d

theorem foldl_same {α : Type} (f : Dev → α → Dev) (h : ∀ d a, SameWork d (f d a)) (l : List α) (d : Dev) : SameWork d (l.foldl f d) := by
  induction l generalizing d with
  | nil => exact .refl d
  | cons a l ih => exact (h d a).trans (ih _)

theorem countStatus_same (sct sc : Nat) (d : Dev) : SameWork d (countStatus sct sc d) := by
  unfold countStatus
  split
  · dsimp only
    split
    · exact (gaugeCount_same _ _).trans (gaugeCount_same _ _)
    · exact gaugeCount_same _ _
  · exact .refl d

theorem raiseInterrupt_same (id : Nat) (q : CompQueue) (d : Dev) : SameWork d (raiseInterrupt id q d) := by
  unfold raiseInterrupt
  split
  · exact .refl d
  · split
    · exact modifyCtrl_same fun k _ => .of rfl rfl rfl
    · exact emit_same _ _

theorem placeCqe_same {e : Cqe} {i : Nat} {q q0 : CompQueue} {d : Dev} {k : Ctrl} (hk : getCtrl d e.ctrl = some k) (hq : mapGet k.cqs i = some q0)
    (hw : q.setUp = q0.setUp) : SameWork d (placeCqe e i q d) := by
  unfold placeCqe
  refine ((modifyCtrl_same fun k' hk' => ?_).trans (emit_same _ _)).trans (raiseInterrupt_same _ _ _)
  rw [hk] at hk'
  cases hk'
  exact .setCq hq hw

theorem writeCqe_same (e : Cqe) (i : Nat) (d : Dev) : SameWork d (writeCqe e i d) := by
  unfold writeCqe
  split
  · exact .refl d
  · rename_i q hq
    obtain ⟨k, hk, hkq⟩ := bind_getCtrl hq
    split
    · refine modifyCtrl_same fun k' hk' => ?_
      rw [hk] at hk'
      cases hk'
      exact .setCq hkq rfl
    · exact placeCqe_same hk hkq rfl

theorem postOne_same (e : Cqe) (d : Dev) : SameWork d (postOne e d) := by
  unfold postOne
  split
  · exact .refl d
  · rename_i q hq
    obtain ⟨k, hk, hkq⟩ := bind_getCtrl hq
    refine ((modifyCtrl_same fun k' hk' => ?_).trans (countStatus_same _ _ _)).trans (writeCqe_same _ _ _)
    rw [hk] at hk'
    cases hk'
    exact .setSq hkq rfl

theorem completeFence_same (id sq : Nat) (d : Dev) : SameWork d (completeFence id sq d) := by
  unfold completeFence
  split
  · exact .refl d
  · split
    · exact .refl d
    · split
      · have h : ∀ (b : Bool) (x : Dev), SameWork x (modifyCtrl id
          (fun c => { c with sqs := mapUpdate c.sqs sq fun q => { q with fence := none, spanFails := 0, spanFirst := 0, cancelling := b } }) x) :=
        fun b x => modifyCtrl_same fun k _ =>
          .updateSq k sq (fun q => { q with fence := none, spanFails := 0, spanFirst := 0, cancelling := b }) fun _ => rfl
        exact (postOne_same _ _).trans (h _ _)
      · exact .refl d

theorem postCqe_same (e : Cqe) (d : Dev) : SameWork d (postCqe e d) := (postOne_same _ _).trans (completeFence_same _ _ _)

theorem deliverNotice_same (id : Nat) (n : Notice) (d : Dev) : SameWork d (deliverNotice id n d) := by
  unfold deliverNotice
  split
  · exact .refl d
  · split
    · exact modifyCtrl_same fun k _ => .of rfl rfl rfl
    · refine SameWork.trans ?_ (postCqe_same _ _)
      exact modifyCtrl_same fun k _ => .of rfl rfl rfl

theorem vendorNotice_same (code lid id : Nat) (d : Dev) : SameWork d (vendorNotice code lid id d) := by
  unfold vendorNotice
  split
  · exact .refl d
  · split
    · refine SameWork.trans ?_ (deliverNotice_same _ _ _)
      exact modifyCtrl_same fun k _ => .of rfl rfl rfl
    · exact .refl d

theorem noticePfs_same (code lid : Nat) (d : Dev) : SameWork d (noticePfs code lid d) :=
  foldl_same _ (fun d id => vendorNotice_same code lid id d) _ d

theorem logError_same (cls sev code gauge : Nat) (detail : Bytes) (d : Dev) (origin iface : Nat) (conts : List Bytes) :
    SameWork d (logError cls sev code gauge detail d origin iface conts) := by
  unfold logError
  dsimp only
  have h : ∀ l, SameWork d { d with errLog := l } := fun _ => ⟨rfl, fun _ => rfl, .refl _⟩
  split <;> split <;> first
    | exact ((h _).trans (noticePfs_same _ _ _)).trans (noticePfs_same _ _ _)
    | exact (h _).trans (noticePfs_same _ _ _)
    | exact h _

theorem logViolation_same (cls code gauge origin iface : Nat) (detail : Bytes) (d : Dev) :
    SameWork d (logViolation cls code gauge origin iface detail d) := by
  unfold logViolation
  dsimp only
  have g := gaugeCount_same gauge d
  have h : ∀ l, SameWork (gaugeCount gauge d) { gaugeCount gauge d with vioLog := l } := fun _ => ⟨rfl, fun _ => rfl, .refl _⟩
  split
  · split
    · exact g.trans (h _)
    · exact (g.trans (h _)).trans (noticePfs_same _ _ _)
  · exact (g.trans (h _)).trans (noticePfs_same _ _ _)

theorem hostViolation_same (cls row gauge ctrl : Nat) (detail : Bytes) (d : Dev) : SameWork d (hostViolation cls row gauge ctrl detail d) :=
  logViolation_same _ _ _ _ _ _ _

theorem noteStall_same (id i : Nat) (d : Dev) : SameWork d (noteStall id i d) := by
  unfold noteStall
  split
  · exact .refl d
  · split
    · refine SameWork.trans ?_ (hostViolation_same _ _ _ _ _ _)
      exact modifyCtrl_same fun k _ => .updateCq k i (fun q => { q with stalled := true }) fun _ => rfl
    · exact .refl d

theorem countFailure_same (sq opc : Nat) (st : Status) (d : Dev) : SameWork d (countFailure sq opc st d) := by
  unfold countFailure
  split
  · exact gaugeCount_same _ _
  · split
    · split
      · exact gaugeCount_same _ _
      · split
        · exact gaugeCount_same _ _
        · split
          · exact gaugeCount_same _ _
          · exact .refl d
    · exact .refl d

theorem violationOf_same (f : Completion) (d : Dev) : SameWork d (violationOf f d) := by
  unfold violationOf
  split
  · exact hostViolation_same _ _ _ _ _ _
  · split
    · exact hostViolation_same _ _ _ _ _ _
    · exact .refl d

theorem recordMore_same (f : Completion) (d : Dev) : SameWork d (recordMore f d) := by
  unfold recordMore
  dsimp only
  have m : SameWork d (modifyCtrl f.ctrl (fun c => { c with errorLog := ((f.sq, f.cid, f.key) :: c.errorLog).take 256 }) d) :=
    modifyCtrl_same fun k _ => .of rfl rfl rfl
  split
  · split
    · exact m.trans (logError_same _ _ _ _ _ _ _ _ _)
    · exact m
  · exact .refl d

/-- A completion's report changes no work, but for the two statuses that the session objects count. -/
theorem reportStatus_same (f : Completion) (d : Dev) (h1 : f.st ≠ stSession) (h2 : f.st ≠ stTableFull) : SameWork d (reportStatus f d) := by
  unfold reportStatus countSessionStatus
  simp only [h1, h2, if_false]
  exact ((countFailure_same _ _ _ _).trans (violationOf_same _ _)).trans (recordMore_same _ _)

theorem finish_same (f : Completion) (d : Dev) (h1 : f.st ≠ stSession) (h2 : f.st ≠ stTableFull) : SameWork d (finish f d) :=
  ((reportStatus_same f d h1 h2).trans (postCqe_same _ _)).trans (noteStall_same _ _ _)

theorem done_same (c : Cmd) (st : Status) (d : Dev) (dw0 dw1 key : Nat) (h1 : st ≠ stSession) (h2 : st ≠ stTableFull) :
    SameWork d (done c st d dw0 dw1 key) := finish_same _ _ h1 h2

/-! ## A completion is posted -/

/-- Queues that are still there, with everything that waits in them. -/
structure Ctrl.Grows (k k' : Ctrl) : Prop where
  /-- Submission queues. -/
  sq : ∀ i q, mapGet k.sqs i = some q → ∃ q', mapGet k'.sqs i = some q' ∧ q'.cq = q.cq
  /-- Completion queues. -/
  cq : ∀ i q, mapGet k.cqs i = some q → ∃ q', mapGet k'.cqs i = some q' ∧ ∀ e ∈ q.waiting, e ∈ q'.waiting

/-- What has been sent and what waits is still there. -/
structure Dev.Grows (d d' : Dev) : Prop where
  /-- Outputs. -/
  out : ∀ o ∈ d.out, o ∈ d'.out
  /-- Controllers. -/
  ctrl : ∀ id k, getCtrl d id = some k → ∃ k', getCtrl d' id = some k' ∧ Ctrl.Grows k k'

theorem Ctrl.Grows.refl (k : Ctrl) : Ctrl.Grows k k := ⟨fun _ q h => ⟨q, h, rfl⟩, fun _ q h => ⟨q, h, fun _ he => he⟩⟩

theorem Ctrl.Grows.of {k k' : Ctrl} (hs : k'.sqs = k.sqs) (hc : k'.cqs = k.cqs) : Ctrl.Grows k k' :=
  ⟨fun _ q h => ⟨q, by rw [hs]; exact h, rfl⟩, fun _ q h => ⟨q, by rw [hc]; exact h, fun _ he => he⟩⟩

theorem Ctrl.Grows.trans {a b c : Ctrl} (h : Ctrl.Grows a b) (g : Ctrl.Grows b c) : Ctrl.Grows a c := by
  refine ⟨fun i q hq => ?_, fun i q hq => ?_⟩
  · obtain ⟨q1, h1, e1⟩ := h.sq i q hq
    obtain ⟨q2, h2, e2⟩ := g.sq i q1 h1
    exact ⟨q2, h2, e2.trans e1⟩
  · obtain ⟨q1, h1, e1⟩ := h.cq i q hq
    obtain ⟨q2, h2, e2⟩ := g.cq i q1 h1
    exact ⟨q2, h2, fun e he => e2 e (e1 e he)⟩

theorem Ctrl.Grows.setSq {k : Ctrl} {i : Nat} {q q' : SubQueue} (h : mapGet k.sqs i = some q) (e : q'.cq = q.cq) :
    Ctrl.Grows k { k with sqs := mapSet k.sqs i q' } := by
  refine ⟨fun j p hp => ?_, fun _ q h => ⟨q, h, fun _ he => he⟩⟩
  by_cases hj : j = i
  · subst hj
    rw [h] at hp
    cases hp
    exact ⟨q', mapGet_set _ _ _, e⟩
  · exact ⟨p, by simp only [mapGet_set_ne _ _ _ _ hj, hp], rfl⟩

theorem Ctrl.Grows.setCq {k : Ctrl} {i : Nat} {q q' : CompQueue} (h : mapGet k.cqs i = some q) (e : ∀ x ∈ q.waiting, x ∈ q'.waiting) :
    Ctrl.Grows k { k with cqs := mapSet k.cqs i q' } := by
  refine ⟨fun _ q h => ⟨q, h, rfl⟩, fun j p hp => ?_⟩
  by_cases hj : j = i
  · subst hj
    rw [h] at hp
    cases hp
    exact ⟨q', mapGet_set _ _ _, e⟩
  · exact ⟨p, by simp only [mapGet_set_ne _ _ _ _ hj, hp], fun _ he => he⟩

theorem Ctrl.Grows.updateSq (k : Ctrl) (i : Nat) (f : SubQueue → SubQueue) (e : ∀ q, (f q).cq = q.cq) :
    Ctrl.Grows k { k with sqs := mapUpdate k.sqs i f } := by
  refine ⟨fun j p hp => ?_, fun _ q h => ⟨q, h, fun _ he => he⟩⟩
  simp only [mapGet_update, hp]
  by_cases hj : j = i
  · exact ⟨f p, by simp [hj], e p⟩
  · exact ⟨p, by simp [hj], rfl⟩

theorem Ctrl.Grows.updateCq (k : Ctrl) (i : Nat) (f : CompQueue → CompQueue) (e : ∀ q, ∀ x ∈ q.waiting, x ∈ (f q).waiting) :
    Ctrl.Grows k { k with cqs := mapUpdate k.cqs i f } := by
  refine ⟨fun _ q h => ⟨q, h, rfl⟩, fun j p hp => ?_⟩
  simp only [mapGet_update, hp]
  by_cases hj : j = i
  · exact ⟨f p, by simp [hj], e p⟩
  · exact ⟨p, by simp [hj], fun _ he => he⟩

theorem Dev.Grows.refl (d : Dev) : Dev.Grows d d := ⟨fun _ h => h, fun _ k h => ⟨k, h, .refl k⟩⟩

theorem Dev.Grows.trans {a b c : Dev} (h : Dev.Grows a b) (g : Dev.Grows b c) : Dev.Grows a c := by
  refine ⟨fun o ho => g.out o (h.out o ho), fun id k hk => ?_⟩
  obtain ⟨k1, h1, e1⟩ := h.ctrl id k hk
  obtain ⟨k2, h2, e2⟩ := g.ctrl id k1 h1
  exact ⟨k2, h2, e1.trans e2⟩

/-- A change that leaves the host interface alone and only adds outputs. -/
theorem Dev.Grows.of {d d' : Dev} (h : d'.host = d.host) (o : ∀ x ∈ d.out, x ∈ d'.out) : Dev.Grows d d' :=
  ⟨o, fun id k hk => ⟨k, by simpa [getCtrl, h] using hk, .refl k⟩⟩

theorem emit_grows (o : Output) (d : Dev) : Dev.Grows d (emit o d) := .of rfl (fun _ h => List.mem_cons_of_mem _ h)

theorem modifyCtrl_grows {id : Nat} {f : Ctrl → Ctrl} {d : Dev} (h : ∀ k, getCtrl d id = some k → Ctrl.Grows k (f k)) :
    Dev.Grows d (modifyCtrl id f d) := by
  refine ⟨fun _ h => h, fun id' k hk => ?_⟩
  rw [getCtrl_modify, hk]
  by_cases e : id' = id
  · subst e
    exact ⟨f k, by simp, h k hk⟩
  · exact ⟨k, by simp [e], .refl k⟩

theorem gaugeAdd_grows (src w : Nat) (d : Dev) : Dev.Grows d (gaugeAdd src w d) := by
  unfold gaugeAdd
  dsimp only
  split <;> exact .of rfl (fun _ h => h)

theorem gaugeCount_grows (src : Nat) (d : Dev) : Dev.Grows d (gaugeCount src d) := gaugeAdd_grows src 1 d

theorem foldl_grows {α : Type} (f : Dev → α → Dev) (h : ∀ d a, Dev.Grows d (f d a)) (l : List α) (d : Dev) : Dev.Grows d (l.foldl f d) := by
  induction l generalizing d with
  | nil => exact .refl d
  | cons a l ih => exact (h d a).trans (ih _)

theorem countStatus_grows (sct sc : Nat) (d : Dev) : Dev.Grows d (countStatus sct sc d) := by
  unfold countStatus
  split
  · dsimp only
    split
    · exact (gaugeCount_grows _ _).trans (gaugeCount_grows _ _)
    · exact gaugeCount_grows _ _
  · exact .refl d

theorem raiseInterrupt_grows (id : Nat) (q : CompQueue) (d : Dev) : Dev.Grows d (raiseInterrupt id q d) := by
  unfold raiseInterrupt
  split
  · exact .refl d
  · split
    · exact modifyCtrl_grows fun k _ => .of rfl rfl
    · exact emit_grows _ _

theorem placeCqe_grows {e : Cqe} {i : Nat} {q q0 : CompQueue} {d : Dev} {k : Ctrl} (hk : getCtrl d e.ctrl = some k) (hq : mapGet k.cqs i = some q0)
    (hw : ∀ x ∈ q0.waiting, x ∈ q.waiting) : Dev.Grows d (placeCqe e i q d) := by
  unfold placeCqe
  refine ((modifyCtrl_grows fun k' hk' => ?_).trans (emit_grows _ _)).trans (raiseInterrupt_grows _ _ _)
  rw [hk] at hk'
  cases hk'
  exact .setCq hq hw

theorem writeCqe_grows (e : Cqe) (i : Nat) (d : Dev) : Dev.Grows d (writeCqe e i d) := by
  unfold writeCqe
  split
  · exact .refl d
  · rename_i q hq
    obtain ⟨k, hk, hkq⟩ := bind_getCtrl hq
    split
    · refine modifyCtrl_grows fun k' hk' => ?_
      rw [hk] at hk'
      cases hk'
      exact .setCq hkq fun x hx => List.mem_append_left _ hx
    · exact placeCqe_grows hk hkq fun _ h => h

/-- Work on one entry keeps what was there, and the entry is sent or waits. -/
theorem writeCqe_posts {e : Cqe} {i : Nat} {d : Dev} {k : Ctrl} (hk : getCtrl d e.ctrl = some k) (hq : (mapGet k.cqs i).isSome = true) :
    Output.cqe e ∈ (writeCqe e i d).out ∨
      ∃ k' j q, getCtrl (writeCqe e i d) e.ctrl = some k' ∧ mapGet k'.cqs j = some q ∧ e ∈ q.waiting := by
  obtain ⟨q, hq⟩ := Option.isSome_iff_exists.mp hq
  have hb : (getCtrl d e.ctrl).bind (fun c => mapGet c.cqs i) = some q := by rw [hk]; exact hq
  unfold writeCqe
  simp only [hb]
  split
  · right
    refine ⟨{ k with cqs := mapSet k.cqs i { q with waiting := q.waiting ++ [e] } }, i, { q with waiting := q.waiting ++ [e] }, ?_,
      mapGet_set _ _ _, List.mem_append_right _ (List.mem_singleton.mpr rfl)⟩
    rw [getCtrl_modify, hk]
    simp only [if_true, Option.map_some]
  · left
    unfold placeCqe
    exact (raiseInterrupt_grows _ _ _).out _ (by simp [emit])

theorem postOne_grows (e : Cqe) (d : Dev) : Dev.Grows d (postOne e d) := by
  unfold postOne
  split
  · exact .refl d
  · rename_i q hq
    obtain ⟨k, hk, hkq⟩ := bind_getCtrl hq
    refine ((modifyCtrl_grows fun k' hk' => ?_).trans (countStatus_grows _ _ _)).trans (writeCqe_grows _ _ _)
    rw [hk] at hk'
    cases hk'
    exact .setSq hkq rfl

theorem completeFence_grows (id sq : Nat) (d : Dev) : Dev.Grows d (completeFence id sq d) := by
  unfold completeFence
  split
  · exact .refl d
  · split
    · exact .refl d
    · split
      · have h : ∀ (b : Bool) (x : Dev), Dev.Grows x (modifyCtrl id
          (fun c => { c with sqs := mapUpdate c.sqs sq fun q => { q with fence := none, spanFails := 0, spanFirst := 0, cancelling := b } }) x) :=
        fun b x => modifyCtrl_grows fun k _ =>
          .updateSq k sq (fun q => { q with fence := none, spanFails := 0, spanFirst := 0, cancelling := b }) fun _ => rfl
        exact (postOne_grows _ _).trans (h _ _)
      · exact .refl d

theorem postCqe_grows (e : Cqe) (d : Dev) : Dev.Grows d (postCqe e d) := (postOne_grows _ _).trans (completeFence_grows _ _ _)

theorem deliverNotice_grows (id : Nat) (n : Notice) (d : Dev) : Dev.Grows d (deliverNotice id n d) := by
  unfold deliverNotice
  split
  · exact .refl d
  · split
    · exact modifyCtrl_grows fun k _ => .of rfl rfl
    · refine Dev.Grows.trans ?_ (postCqe_grows _ _)
      exact modifyCtrl_grows fun k _ => .of rfl rfl

theorem vendorNotice_grows (code lid id : Nat) (d : Dev) : Dev.Grows d (vendorNotice code lid id d) := by
  unfold vendorNotice
  split
  · exact .refl d
  · split
    · refine Dev.Grows.trans ?_ (deliverNotice_grows _ _ _)
      exact modifyCtrl_grows fun k _ => .of rfl rfl
    · exact .refl d

theorem noticePfs_grows (code lid : Nat) (d : Dev) : Dev.Grows d (noticePfs code lid d) :=
  foldl_grows _ (fun d id => vendorNotice_grows code lid id d) _ d

theorem logError_grows (cls sev code gauge : Nat) (detail : Bytes) (d : Dev) (origin iface : Nat) (conts : List Bytes) :
    Dev.Grows d (logError cls sev code gauge detail d origin iface conts) := by
  unfold logError
  dsimp only
  have h : ∀ l, Dev.Grows d { d with errLog := l } := fun _ => .of rfl (fun _ h => h)
  split <;> split <;> first
    | exact ((h _).trans (noticePfs_grows _ _ _)).trans (noticePfs_grows _ _ _)
    | exact (h _).trans (noticePfs_grows _ _ _)
    | exact h _

theorem logViolation_grows (cls code gauge origin iface : Nat) (detail : Bytes) (d : Dev) :
    Dev.Grows d (logViolation cls code gauge origin iface detail d) := by
  unfold logViolation
  dsimp only
  have g := gaugeCount_grows gauge d
  have h : ∀ l, Dev.Grows (gaugeCount gauge d) { gaugeCount gauge d with vioLog := l } := fun _ => .of rfl (fun _ h => h)
  split
  · split
    · exact g.trans (h _)
    · exact (g.trans (h _)).trans (noticePfs_grows _ _ _)
  · exact (g.trans (h _)).trans (noticePfs_grows _ _ _)

theorem hostViolation_grows (cls row gauge ctrl : Nat) (detail : Bytes) (d : Dev) : Dev.Grows d (hostViolation cls row gauge ctrl detail d) :=
  logViolation_grows _ _ _ _ _ _ _

theorem noteStall_grows (id i : Nat) (d : Dev) : Dev.Grows d (noteStall id i d) := by
  unfold noteStall
  split
  · exact .refl d
  · split
    · refine Dev.Grows.trans ?_ (hostViolation_grows _ _ _ _ _ _)
      exact modifyCtrl_grows fun k _ => .updateCq k i (fun q => { q with stalled := true }) fun _ _ h => h
    · exact .refl d

theorem countFailure_grows (sq opc : Nat) (st : Status) (d : Dev) : Dev.Grows d (countFailure sq opc st d) := by
  unfold countFailure
  split
  · exact gaugeCount_grows _ _
  · split
    · split
      · exact gaugeCount_grows _ _
      · split
        · exact gaugeCount_grows _ _
        · split
          · exact gaugeCount_grows _ _
          · exact .refl d
    · exact .refl d

theorem violationOf_grows (f : Completion) (d : Dev) : Dev.Grows d (violationOf f d) := by
  unfold violationOf
  split
  · exact hostViolation_grows _ _ _ _ _ _
  · split
    · exact hostViolation_grows _ _ _ _ _ _
    · exact .refl d

theorem recordMore_grows (f : Completion) (d : Dev) : Dev.Grows d (recordMore f d) := by
  unfold recordMore
  dsimp only
  split
  · split
    · refine Dev.Grows.trans ?_ (logError_grows _ _ _ _ _ _ _ _ _)
      exact modifyCtrl_grows fun k _ => .of rfl rfl
    · exact modifyCtrl_grows fun k _ => .of rfl rfl
  · exact .refl d

theorem reportStatus_grows (f : Completion) (d : Dev) : Dev.Grows d (reportStatus f d) := by
  have hb : ∀ k d, Dev.Grows d (bump k d) := fun _ _ => .of rfl (fun _ h => h)
  have s : Dev.Grows d (countSessionStatus f.st d) := by
    unfold countSessionStatus
    split
    · exact hb _ _
    · split
      · exact hb _ _
      · exact .refl d
  exact ((s.trans (countFailure_grows _ _ _ _)).trans (violationOf_grows _ _)).trans (recordMore_grows _ _)

theorem finish_grows (f : Completion) (d : Dev) : Dev.Grows d (finish f d) :=
  ((reportStatus_grows f d).trans (postCqe_grows _ _)).trans (noteStall_grows _ _ _)

theorem done_grows (c : Cmd) (st : Status) (d : Dev) (dw0 dw1 key : Nat) : Dev.Grows d (done c st d dw0 dw1 key) := finish_grows _ _

theorem hasQueues.grows {ctrl sq : Nat} {d d' : Dev} (h : hasQueues ctrl sq d) (g : Dev.Grows d d') : hasQueues ctrl sq d' := by
  obtain ⟨k, q, hk, hq, hc⟩ := h
  obtain ⟨k', hk', g'⟩ := g.ctrl _ _ hk
  obtain ⟨q', hq', e⟩ := g'.sq _ _ hq
  obtain ⟨p, hp⟩ := Option.isSome_iff_exists.mp hc
  obtain ⟨p', hp', _⟩ := g'.cq _ _ hp
  exact ⟨k', q', hk', hq', by rw [e, hp']; rfl⟩

theorem Posted.grows {ctrl sq cid : Nat} {st : Status} {dw0 dw1 : Nat} {d d' : Dev} (h : Posted ctrl sq cid st dw0 dw1 d) (g : Dev.Grows d d')
    (m : d'.media.state = d.media.state) : Posted ctrl sq cid st dw0 dw1 d' := by
  obtain ⟨e, h1, h2, h3, h4, h5, h6, h7, h8, h9, hp⟩ := h
  refine ⟨e, h1, h2, h3, h4, h5, h6, h7, ?_, h9, ?_⟩
  · rw [h8]; unfold dnrOf; rw [m]
  · rcases hp with hp | ⟨k, i, q, hk, hq, hm⟩
    · exact .inl (g.out _ hp)
    · obtain ⟨k', hk', g'⟩ := g.ctrl _ _ hk
      obtain ⟨q', hq', e'⟩ := g'.cq _ _ hq
      exact .inr ⟨k', i, q', hk', hq', e' _ hm⟩

/-- A completion is posted wherever its queues stand. -/
theorem finish_posted (f : Completion) (d : Dev) (h : hasQueues f.ctrl f.sq d) : Posted f.ctrl f.sq f.cid f.st f.dw0 f.dw1 (finish f d) := by
  unfold finish
  dsimp only
  generalize hd1 : reportStatus f d = d1
  have hq1 : hasQueues f.ctrl f.sq d1 := hd1 ▸ h.grows (reportStatus_grows f d)
  have key : Posted f.ctrl f.sq f.cid f.st f.dw0 f.dw1
      (postOne { ctrl := f.ctrl, sq := f.sq, cid := f.cid, sct := f.st.1, sc := f.st.2, dnr := dnrOf d1 f.st, more := moreOf f.st,
                 dw0 := f.dw0, dw1 := f.dw1 } d1) := by
    generalize he : ({ ctrl := f.ctrl, sq := f.sq, cid := f.cid, sct := f.st.1, sc := f.st.2, dnr := dnrOf d1 f.st, more := moreOf f.st,
                       dw0 := f.dw0, dw1 := f.dw1 } : Cqe) = e
    obtain ⟨k, q, hk, hq, hc⟩ := hq1
    have e1 : e.ctrl = f.ctrl := by rw [← he]
    have e2 : e.sq = f.sq := by rw [← he]
    have hb : (getCtrl d1 e.ctrl).bind (fun c => mapGet c.sqs e.sq) = some q := by rw [e1, e2, hk]; exact hq
    have sm := (postOne_same e d1).rest
    refine ⟨e, e1, e2, by rw [← he], by rw [← he], by rw [← he], by rw [← he], by rw [← he], ?_, by rw [← he], ?_⟩
    · have e3 : e.dnr = dnrOf d1 f.st := by rw [← he]
      rw [e3]
      unfold dnrOf
      rw [sm]
    · unfold postOne
      simp only [hb]
      obtain ⟨k', hk', g⟩ := ((modifyCtrl_grows (id := e.ctrl) (d := d1) (f := fun c => { c with sqs := mapSet c.sqs e.sq (leaveFlight e q) })
        (fun k2 hk2 => by
          rw [e1, hk] at hk2
          cases hk2
          exact Ctrl.Grows.setSq (q := q) (by rw [e2]; exact hq) rfl)).trans (countStatus_grows e.sct e.sc _)).ctrl f.ctrl k hk
      obtain ⟨p, hp⟩ := Option.isSome_iff_exists.mp hc
      obtain ⟨p', hp', _⟩ := g.cq _ _ hp
      have := writeCqe_posts (e := e) (i := q.cq) (by rw [e1]; exact hk') (by rw [hp']; rfl)
      simpa only [e1] using this
  have k2 := key.grows (completeFence_grows f.ctrl f.sq _) (congrArg (fun d => d.media.state) (completeFence_same _ _ _).rest)
  exact k2.grows (noteStall_grows _ _ _) (congrArg (fun d => d.media.state) (noteStall_same _ _ _).rest)

theorem done_posted (c : Cmd) (st : Status) (d : Dev) (dw0 dw1 key : Nat) (h : hasQueues c.ctrl c.sq d) :
    Posted c.ctrl c.sq c.cid st dw0 dw1 (done c st d dw0 dw1 key) :=
  finish_posted { ctrl := c.ctrl, sq := c.sq, cid := c.cid, st := st, dw0 := dw0, dw1 := dw1,
                  cdw0 := c.opc + 256 * c.fuse + 16384 * c.psdt, nsid := c.nsid, key := key } d h

/-! ## An admitted command reaches its work -/

theorem fetchable_queues {d : Dev} {c : Cmd} {q : SubQueue} (h : fetchable d c = some q) :
    ∃ k, getCtrl d c.ctrl = some k ∧ mapGet k.sqs c.sq = some q ∧ (mapGet k.cqs q.cq).isSome = true := by
  unfold fetchable at h
  split at h
  · cases h
  · rename_i k hk
    split at h
    · cases h
    · rename_i q' hq'
      split at h
      · cases h
      · rename_i p hp
        split at h
        · cases h
          exact ⟨k, hk, hq', by rw [hp]; rfl⟩
        · cases h

theorem taken_queues {c : Cmd} {admin : Bool} {d : Dev} (h : admitted c admin d = true) : hasQueues c.ctrl c.sq (taken c d) := by
  unfold admitted at h
  unfold taken
  cases hq : fetchable (advanceTo c.now d) c with
  | none => simp [hq] at h
  | some q =>
    dsimp only
    obtain ⟨k, hk, hs, hc⟩ := fetchable_queues hq
    have g : Dev.Grows (advanceTo c.now d) (wakeCtrl c (advanceTo c.now d)) := by
      unfold wakeCtrl
      split
      · exact .refl _
      · refine modifyCtrl_grows fun k _ => ?_
        split
        · exact .of rfl rfl
        · exact .refl k
    obtain ⟨k', hk', g'⟩ := g.ctrl _ _ hk
    obtain ⟨p, hp⟩ := Option.isSome_iff_exists.mp hc
    obtain ⟨p', hp', _⟩ := g'.cq _ _ hp
    refine ⟨{ k' with sqs := mapSet k'.sqs c.sq { q with head := (q.head + 1) % q.size, inflight := q.inflight ++ [c.cid] } },
      { q with head := (q.head + 1) % q.size, inflight := q.inflight ++ [c.cid] }, ?_, mapGet_set _ _ _, ?_⟩
    · unfold takeEntry
      rw [getCtrl_modify, hk']
      simp only [if_true, Option.map_some]
    · simp only [hp', Option.isSome_some]

/-- An admitted command runs its own work on the part with its entry taken. -/
theorem fetchCmd_admitted {c : Cmd} {admin fence : Bool} {d : Dev} (f : Dev → Dev) (h : admitted c admin d = true) :
    fetchCmd c admin fence f d = f (taken c d) := by
  unfold admitted at h
  unfold fetchCmd taken
  cases hq : fetchable (advanceTo c.now d) c with
  | none => simp [hq] at h
  | some q =>
    simp only [hq, Bool.and_eq_true, decide_eq_true_eq, Bool.not_eq_true'] at h
    obtain ⟨⟨⟨⟨⟨⟨⟨h1, h2⟩, h3⟩, h4⟩, h5⟩, h6⟩, h7⟩, h8⟩ := h
    simp only [hq, h1, ne_eq, not_true_eq_false, if_false, h2, h3, h4, Bool.false_and, Bool.false_eq_true]

/-- Where a command's own work ends in its completion, it completes. -/
theorem Completes.of_done {i : Instr} {c : Cmd} {st : Status} {dw0 dw1 key : Nat} {work w : Dev} {s : State} {sent : List Output}
    (h : exec i s = .next { s with dev := done c st w dw0 dw1 key }) (hq : hasQueues c.ctrl c.sq w) (hw : SameWork work w)
    (h1 : st ≠ stSession) (h2 : st ≠ stTableFull) (ho : ∀ o ∈ sent, o ∈ w.out) : Completes i c st dw0 dw1 work s sent :=
  ⟨_, h, rfl, hw.trans (done_same c st w dw0 dw1 key h1 h2), done_posted c st w dw0 dw1 key hq,
    fun o m => (done_grows c st w dw0 dw1 key).out o (ho o m)⟩

/-- Queues stand as before where the host interface is as before. -/
theorem hasQueues.host {ctrl sq : Nat} {d d' : Dev} (h : hasQueues ctrl sq d) (e : d'.host = d.host) : hasQueues ctrl sq d' := by
  unfold hasQueues getCtrl at *
  rw [e]
  exact h

end Sys2Proof.Machine
end

