-- ==== Sys2Proof/Laws/Media.lean ====
section
/-! SUPPORT. Laws/Media.lean: background reclamation moves units and nothing else: the lemmas that statements about media commands cite. -/
namespace Sys2Proof.Machine

theorem SameData.refl (d : Dev) : SameData d d := ⟨rfl, fun _ => rfl, .refl _, fun _ _ _ => rfl, rfl⟩

theorem SameData.trans {a b c : Dev} (h : SameData a b) (g : SameData b c) : SameData a c := by
  refine ⟨?_, fun n => ?_, h.host.trans g.host, fun k h1 h2 => (g.nums k h1 h2).trans (h.nums k h1 h2), ?_⟩
  · rw [g.rest, h.rest]
  · rw [g.cores n, h.cores n]
  · rw [g.media, h.media]

theorem SameWork.data {d d' : Dev} (h : SameWork d d') : SameData d d' := by
  refine ⟨?_, h.cores, h.host, fun k _ _ => ?_, ?_⟩
  · rw [h.rest]
  · unfold objNum; rw [h.rest]
  · rw [h.rest]

/-- A change of media management alone that keeps what `SameData` keeps. -/
theorem SameData.ofMedia {d d' : Dev} (h : d' = { d with media := d'.media })
    (m : d'.media =
      { d.media with
        store := { d.media.store with bands := d'.media.store.bands }
        journal := d'.media.journal
        seq := d'.media.seq
        journalSince := d'.media.journalSince
        units := d'.media.units
        jobs := d'.media.jobs
        refreshDue := d'.media.refreshDue
        folding := d'.media.folding }) : SameData d d' := by
  refine ⟨?_, fun n => ?_, ?_, fun k _ _ => ?_, m⟩
  · rw [h]
  · rw [h]
  · rw [h]; exact .refl _
  · unfold objNum; rw [h]

/-- Housekeeping: the same data, and the host's queues and outputs untouched. -/
structure Kept (d d' : Dev) : Prop where
  /-- The same data. -/
  data : SameData d d'
  /-- The host interface. -/
  host : d'.host = d.host
  /-- What has been sent. -/
  out : d'.out = d.out

theorem Kept.refl (d : Dev) : Kept d d := ⟨.refl d, rfl, rfl⟩

theorem Kept.trans {a b c : Dev} (h : Kept a b) (g : Kept b c) : Kept a c :=
  ⟨h.data.trans g.data, g.host.trans h.host, g.out.trans h.out⟩

theorem Kept.ofMedia {d d' : Dev} (h : d' = { d with media := d'.media })
    (m : d'.media =
      { d.media with
        store := { d.media.store with bands := d'.media.store.bands }
        journal := d'.media.journal
        seq := d'.media.seq
        journalSince := d'.media.journalSince
        units := d'.media.units
        jobs := d'.media.jobs
        refreshDue := d'.media.refreshDue
        folding := d'.media.folding }) : Kept d d' := ⟨.ofMedia h m, by rw [h], by rw [h]⟩

theorem gaugeCount_kept (src : Nat) (d : Dev) : Kept d (gaugeCount src d) := by
  refine ⟨(gaugeCount_same src d).data, ?_, ?_⟩ <;> unfold gaugeCount gaugeAdd <;> dsimp only <;> split <;> rfl

theorem mapGetD_set_ne {β : Type} (m : AMap β) (a b : Nat) (x y : β) (h : b ≠ a) : mapGetD (mapSet m a x) b y = mapGetD m b y := by
  unfold mapGetD
  rw [mapGet_set_ne m a b x h]

theorem addNum_data (k n : Nat) (d : Dev) (h : k = 0x382006 ∨ k = 0x382009) : Kept d (addNum k n d) := by
  refine ⟨⟨rfl, fun _ => rfl, .refl _, fun j h1 h2 => ?_, rfl⟩, rfl, rfl⟩
  unfold addNum setNum objNum
  exact mapGetD_set_ne _ _ _ _ _ (by rcases h with h | h <;> omega)

theorem journal_band_data (k : Nat) (b : Band) (d : Dev) : Kept d (journal (.band k b) d) := .ofMedia rfl rfl

theorem iter_data (n : Nat) (f : Dev → Dev) (h : ∀ d, Kept d (f d)) (d : Dev) : Kept d (iter n f d) := by
  induction n generalizing d with
  | zero => exact .refl d
  | succ n ih => exact (h d).trans (ih _)

theorem openBand_data (cls : Nat) (bw copies : Bool) (d : Dev) : Kept d (openBand cls bw copies d) := by
  unfold openBand
  split
  · exact journal_band_data _ _ _
  · exact .refl d

theorem ensureOpen_data (cls : Nat) (bw copies : Bool) (d : Dev) : Kept d (ensureOpen cls bw copies d) :=
  iter_data _ _ (fun d => openBand_data cls bw copies d) d

theorem takeAddress_data (cls : Nat) (bw copies : Bool) (d : Dev) : Kept d (takeAddress cls bw copies d).2 := by
  unfold takeAddress
  dsimp only
  split
  · exact ensureOpen_data _ _ _ _
  · rename_i k b _
    have h : ∀ x : Dev, Kept x (modifyMedia (fun m => { m with store := { m.store with bands := mapSet m.store.bands k { b with next := b.next + 1 } } }) x) :=
      fun x => .ofMedia rfl rfl
    split
    · exact (ensureOpen_data _ _ _ _).trans (h _)
    · exact ((ensureOpen_data _ _ _ _).trans (h _)).trans (journal_band_data _ _ _)

theorem placeCopy_data (ns cls lu : Nat) (data : Bytes) (d : Dev) : Kept d (placeUnit ns cls lu data true d).2 := by
  unfold placeUnit
  dsimp only
  have t := takeAddress_data cls (!true && intoBackwater d cls) true d
  split
  · rename_i h
    rw [h] at t
    exact t
  · rename_i v d1 h
    rw [h] at t
    exact t.trans (.ofMedia rfl rfl)

theorem copyUnit_data (cls : Nat) (u : Nat × Nat × Nat) (acc : List GcCopy × Dev) : Kept acc.2 (copyUnit cls u acc).2 := by
  unfold copyUnit
  dsimp only
  split
  · exact .refl _
  · have p := placeCopy_data u.1 cls u.2.1 (unitData acc.2 cls u.2.2) acc.2
    split
    · rename_i h
      rw [h] at p
      exact p
    · rename_i h
      rw [h] at p
      exact p

theorem copyUnits_data (cls : Nat) (us : List (Nat × Nat × Nat)) (acc : List GcCopy × Dev) :
    Kept acc.2 (us.foldl (fun acc u => copyUnit cls u acc) acc).2 := by
  induction us generalizing acc with
  | nil => exact .refl _
  | cons u us ih => exact (copyUnit_data cls u acc).trans (ih _)

theorem queueCommit_data (k : Nat) (d : Dev) : Kept d (queueCommit k d) := by
  unfold queueCommit
  split
  · exact .refl d
  · split
    · exact .ofMedia rfl rfl
    · exact .refl d

theorem foldl_data {α : Type} (f : Dev → α → Dev) (h : ∀ d a, Kept d (f d a)) (l : List α) (d : Dev) : Kept d (l.foldl f d) := by
  induction l generalizing d with
  | nil => exact .refl d
  | cons a l ih => exact (h d a).trans (ih _)

theorem startJob_data (k cause : Nat) (d : Dev) : Kept d (startJob k cause d) := by
  unfold startJob
  split
  · exact .refl d
  · rename_i b _
    split
    · exact .refl d
    · dsimp only
      refine Kept.trans ?_ (queueCommit_data _ _)
      refine Kept.trans ?_ (foldl_data _ (fun d c => gaugeCount_kept _ d) _ _)
      refine Kept.trans ?_ (addNum_data _ _ _ (.inl rfl))
      have c := copyUnits_data b.cls (validUnits (journal (.band k { b with state := .source }) d) k b)
        ([], journal (.band k { b with state := .source }) d)
      have m : ∀ (j : GcJob) (x : Dev), Kept x (modifyMedia (fun m =>
          { m with jobs := m.jobs ++ [j], refreshDue := m.refreshDue.filter (· ≠ k) }) x) := fun _ _ => .ofMedia rfl rfl
      split
      · exact (((journal_band_data _ _ d).trans c).trans (m _ _)).trans (addNum_data _ _ _ (.inr rfl))
      · exact ((journal_band_data _ _ d).trans c).trans (m _ _)

theorem foldStep_data (d : Dev) : Kept d (foldStep d) := by
  unfold foldStep
  dsimp only
  have m : ∀ (b : Bool), Kept d (modifyMedia (fun m => { m with folding := b }) d) := fun _ => .ofMedia rfl rfl
  split
  · split
    · exact (m _).trans (startJob_data _ _ _)
    · exact m _
  · exact m _

theorem reclaimClass_data (cls : Nat) (d : Dev) : Kept d (reclaimClass cls d) := by
  unfold reclaimClass
  split
  · exact .refl d
  · split
    · exact startJob_data _ _ _
    · split
      · split
        · exact startJob_data _ _ _
        · exact .refl d
      · split
        · split
          · exact startJob_data _ _ _
          · exact .refl d
        · exact .refl d

/-- What runs behind a command moves units and nothing else. -/
theorem background_data (d : Dev) : Kept d (background d) := by
  unfold background
  split
  · exact (((foldStep_data d).trans (reclaimClass_data 0 _)).trans (reclaimClass_data 1 _)).trans (reclaimClass_data 2 _)
  · exact .refl d

theorem Kept.grows {d d' : Dev} (h : Kept d d') : Dev.Grows d d' := .of h.host fun x hx => by rw [h.out]; exact hx

/-- Where a command's own work ends in its completion with reclamation behind it, it completes. -/
theorem CompletesMedia.of_done {i : Instr} {c : Cmd} {st : Status} {dw0 dw1 key : Nat} {work w : Dev} {s : State} {sent : List Output}
    (h : exec i s = .next { s with dev := background (done c st w dw0 dw1 key) }) (hq : hasQueues c.ctrl c.sq w) (hw : SameData work w)
    (h1 : st ≠ stSession) (h2 : st ≠ stTableFull) (ho : ∀ o ∈ sent, o ∈ w.out) : CompletesMedia i c st dw0 dw1 work s sent := by
  have k := background_data (done c st w dw0 dw1 key)
  refine ⟨_, h, rfl, (hw.trans (done_same c st w dw0 dw1 key h1 h2).data).trans k.data, ?_, fun o m => k.grows.out o ((done_grows c st w dw0 dw1 key).out o (ho o m))⟩
  refine (done_posted c st w dw0 dw1 key hq).grows k.grows ?_
  show (background (done c st w dw0 dw1 key)).media.state = _
  rw [k.data.media]

end Sys2Proof.Machine
end

