-- ==== Sys2Proof/Laws/Memory.lean ====
section
/-! SUPPORT. Laws/Memory.lean: memory keeps its one form under every operation that writes it, a byte reads as it was last written, and the other
bytes as before. -/
namespace Sys2Proof.Machine

/-- The form of memory: keys rise strictly, and no byte listed is 0. -/
theorem Memory.wf_iff (m : List Host.Cell) : Memory.wf m = true ↔ m.Pairwise (fun a b => a.1 < b.1) ∧ ∀ c ∈ m, c.2 ≠ 0 := by
  induction m with
  | nil => simp [Memory.wf]
  | cons x m ih =>
    obtain ⟨k, v⟩ := x
    cases m with
    | nil => simp [Memory.wf]
    | cons y m =>
      obtain ⟨k', v'⟩ := y
      rw [Memory.wf, Bool.and_eq_true, Bool.and_eq_true, ih, bne_iff_ne, decide_eq_true_eq]
      constructor
      · rintro ⟨⟨hv, hk⟩, hp, hn⟩
        refine ⟨List.pairwise_cons.2 ⟨?_, hp⟩, ?_⟩
        · intro c hc
          rcases List.mem_cons.1 hc with rfl | hc
          · exact hk
          · exact Nat.lt_trans hk ((List.pairwise_cons.1 hp).1 c hc)
        · intro c hc
          rcases List.mem_cons.1 hc with rfl | hc
          · exact hv
          · exact hn c hc
      · rintro ⟨hp, hn⟩
        have h := List.pairwise_cons.1 hp
        exact ⟨⟨hn (k, v) (by simp), h.1 (k', v') (by simp)⟩, h.2, fun c hc => hn c (List.mem_cons_of_mem _ hc)⟩

theorem mem_cellPut {m : List Host.Cell} {a : Nat} {b : Byte} {c : Host.Cell} (h : c ∈ cellPut m a b) : (c = (a, b) ∧ b ≠ 0) ∨ c ∈ m := by
  induction m with
  | nil =>
    unfold cellPut at h
    split at h
    · simp at h
    · simp at h; exact .inl ⟨h, by assumption⟩
  | cons x m ih =>
    obtain ⟨k, v⟩ := x
    unfold cellPut at h
    split at h
    · split at h
      · exact .inr h
      · rcases List.mem_cons.1 h with rfl | h
        · exact .inl ⟨rfl, by assumption⟩
        · exact .inr h
    · split at h
      · split at h
        · exact .inr (List.mem_cons_of_mem _ h)
        · rcases List.mem_cons.1 h with rfl | h
          · exact .inl ⟨rfl, by assumption⟩
          · exact .inr (List.mem_cons_of_mem _ h)
      · rcases List.mem_cons.1 h with rfl | h
        · exact .inr (by simp)
        · rcases ih h with h | h
          · exact .inl h
          · exact .inr (List.mem_cons_of_mem _ h)

/-- A byte written keeps the form. -/
theorem cellPut_wf {m : List Host.Cell} (a : Nat) (b : Byte) (h : Memory.wf m = true) : Memory.wf (cellPut m a b) = true := by
  rw [Memory.wf_iff] at h ⊢
  refine ⟨?_, fun c hc => ?_⟩
  · obtain ⟨hp, -⟩ := h
    induction m with
    | nil => unfold cellPut; split <;> simp
    | cons x m ih =>
      obtain ⟨k, v⟩ := x
      obtain ⟨hk, hm⟩ := List.pairwise_cons.1 hp
      unfold cellPut
      split
      · split
        · exact hp
        · refine List.pairwise_cons.2 ⟨fun c hc => ?_, hp⟩
          rcases List.mem_cons.1 hc with rfl | hc
          · assumption
          · exact Nat.lt_trans (by assumption) (hk c hc)
      · split
        · split
          · exact hm
          · rename_i e _
            subst e
            exact List.pairwise_cons.2 ⟨hk, hm⟩
        · refine List.pairwise_cons.2 ⟨fun c hc => ?_, ih hm⟩
          rcases mem_cellPut hc with ⟨rfl, -⟩ | hc
          · show k < a
            omega
          · exact hk c hc
  · rcases mem_cellPut hc with ⟨rfl, hb⟩ | hc
    · exact hb
    · exact h.2 c hc

/-- Bytes written keep the form. -/
theorem cellsPut_wf (bs : Bytes) : ∀ (m : List Host.Cell) (key : Nat), Memory.wf m = true → Memory.wf (cellsPut m key bs) = true := by
  induction bs with
  | nil => intro m key h; exact h
  | cons b bs ih => intro m key h; exact ih _ _ (cellPut_wf key b h)

/-- Bytes taken out, which read 0 from then on, keep the form. -/
theorem filter_wf {m : List Host.Cell} (p : Host.Cell → Bool) (h : Memory.wf m = true) : Memory.wf (m.filter p) = true := by
  rw [Memory.wf_iff] at h ⊢
  exact ⟨h.1.filter p, fun c hc => h.2 c (List.mem_filter.1 hc).1⟩

theorem memPut_wf (key : Nat) (bs : Bytes) (d : Dev) (h : Memory.wf d.mem = true) : Memory.wf (memPut key bs d).mem = true := cellsPut_wf bs d.mem key h

theorem zeroMem_wf (key len : Nat) (d : Dev) (h : Memory.wf d.mem = true) : Memory.wf (zeroMem key len d).mem = true := filter_wf _ h

theorem idleCore_wf (n : CoreId) (d : Dev) (h : Memory.wf d.mem = true) : Memory.wf (idleCore n d).mem = true := zeroMem_wf _ _ d h

theorem deviceReset_wf (cause : Nat) (d : Dev) (h : Memory.wf d.mem = true) : Memory.wf (deviceReset cause d).mem = true := filter_wf _ h

theorem reset_wf : State.reset.MemOk := rfl

/-! ## Reading what was written -/

theorem cellGet_below {m : List Host.Cell} {a : Nat} (h : ∀ c ∈ m, a < c.1) : cellGet m a = 0 := by
  cases m with
  | nil => rfl
  | cons x m =>
    obtain ⟨k, v⟩ := x
    have : a < k := h (k, v) (by simp)
    simp [cellGet, this, Nat.ne_of_lt this]

/-- A byte reads as it was last written. -/
theorem cellGet_put {m : List Host.Cell} (a : Nat) (b : Byte) (h : Memory.wf m = true) : cellGet (cellPut m a b) a = b := by
  have hp := ((Memory.wf_iff m).1 h).1
  clear h
  induction m with
  | nil => unfold cellPut; split <;> simp_all [cellGet]
  | cons x m ih =>
    obtain ⟨k, v⟩ := x
    obtain ⟨hk, hm⟩ := List.pairwise_cons.1 hp
    unfold cellPut
    split
    · split
      · simp_all [cellGet, Nat.ne_of_lt]
      · simp [cellGet]
    · split
      · split
        · rename_i e hb
          rw [hb]
          exact cellGet_below fun c hc => e ▸ hk c hc
        · simp [cellGet]
      · rename_i h1 h2
        simp [cellGet, h1, h2, ih hm]

/-- A byte written leaves every other byte as it was. -/
theorem cellGet_put_ne {m : List Host.Cell} (a c : Nat) (b : Byte) (h : Memory.wf m = true) (hc : c ≠ a) : cellGet (cellPut m a b) c = cellGet m c := by
  have hp := ((Memory.wf_iff m).1 h).1
  clear h
  induction m with
  | nil => unfold cellPut; split <;> simp [cellGet, hc]
  | cons x m ih =>
    obtain ⟨k, v⟩ := x
    obtain ⟨hk, hm⟩ := List.pairwise_cons.1 hp
    unfold cellPut
    split
    · split
      · rfl
      · rename_i h1 _
        by_cases h2 : c < a
        · have : c < k := by omega
          have : c ≠ k := by omega
          simp [cellGet, *]
        · simp [cellGet, hc, h2]
    · split
      · rename_i h1 e
        subst e
        split
        · by_cases h2 : c < a
          · rw [cellGet_below fun x hx => Nat.lt_trans h2 (hk x hx)]
            simp [cellGet, hc, h2]
          · simp [cellGet, hc, h2]
        · simp [cellGet, hc]
      · simp [cellGet, ih hm]

/-- Bytes written leave every byte outside them as it was. -/
theorem cellGet_puts_ne (bs : Bytes) : ∀ (m : List Host.Cell) (key c : Nat), Memory.wf m = true → c < key ∨ key + bs.length ≤ c →
    cellGet (cellsPut m key bs) c = cellGet m c := by
  induction bs with
  | nil => intro m key c _ _; rfl
  | cons b bs ih =>
    intro m key c h hc
    simp only [List.length_cons] at hc
    show cellGet (cellsPut (cellPut m key b) (key + 1) bs) c = _
    rw [ih _ _ _ (cellPut_wf key b h) (by omega), cellGet_put_ne _ _ _ h (by omega)]

/-- The bytes written read as written. -/
theorem memGet_put (bs : Bytes) : ∀ (key : Nat) (d : Dev), Memory.wf d.mem = true → memGet (memPut key bs d) key bs.length = bs := by
  induction bs with
  | nil => intro key d _; rfl
  | cons b bs ih =>
    intro key d h
    have h' := cellPut_wf key b h
    show cellGet (cellsPut (cellPut d.mem key b) (key + 1) bs) key :: memGet (memPut (key + 1) bs { d with mem := cellPut d.mem key b }) (key + 1) bs.length = _
    rw [cellGet_puts_ne _ _ _ _ h' (by omega), cellGet_put _ _ h, ih _ _ h']

end Sys2Proof.Machine
end

