-- ==== Sys2Proof/Laws/PerInstr.lean ====
section
/-! SUPPORT. Laws/PerInstr.lean: statements made per command. -/
namespace Sys2Proof.Laws
end Sys2Proof.Laws
end

