-- ==== Sys2Proof/Laws/State.lean ====
section
/-! SUPPORT. Laws/State.lean: what each update of the part does to each of its fields, so that no proof unfolds an update. -/
namespace Sys2Proof.Machine

/-! ## emit -/

@[simp] theorem emit_tm (o : Output) (d : Dev) : (emit o d).tm = d.tm := rfl
@[simp] theorem emit_freeCount (o : Output) (d : Dev) : (emit o d).freeCount = d.freeCount := rfl
@[simp] theorem emit_out (o : Output) (d : Dev) : (emit o d).out = o :: d.out := rfl
@[simp] theorem emit_num (o : Output) (d : Dev) : (emit o d).num = d.num := rfl
@[simp] theorem emit_oct (o : Output) (d : Dev) : (emit o d).oct = d.oct := rfl
@[simp] theorem emit_wear (o : Output) (d : Dev) : (emit o d).wear = d.wear := rfl
@[simp] theorem emit_fuses (o : Output) (d : Dev) : (emit o d).fuses = d.fuses := rfl
@[simp] theorem emit_variant (o : Output) (d : Dev) : (emit o d).variant = d.variant := rfl
@[simp] theorem emit_errLog (o : Output) (d : Dev) : (emit o d).errLog = d.errLog := rfl
@[simp] theorem emit_vioLog (o : Output) (d : Dev) : (emit o d).vioLog = d.vioLog := rfl
@[simp] theorem emit_gauge (o : Output) (d : Dev) : (emit o d).gauge = d.gauge := rfl
@[simp] theorem emit_mem (o : Output) (d : Dev) : (emit o d).mem = d.mem := rfl
@[simp] theorem emit_poisoned (o : Output) (d : Dev) : (emit o d).poisoned = d.poisoned := rfl
@[simp] theorem emit_integ (o : Output) (d : Dev) : (emit o d).integ = d.integ := rfl
@[simp] theorem emit_dram (o : Output) (d : Dev) : (emit o d).dram = d.dram := rfl
@[simp] theorem emit_cores (o : Output) (d : Dev) : (emit o d).cores = d.cores := rfl
@[simp] theorem emit_lineBufs (o : Output) (d : Dev) : (emit o d).lineBufs = d.lineBufs := rfl
@[simp] theorem emit_eddy (o : Output) (d : Dev) : (emit o d).eddy = d.eddy := rfl
@[simp] theorem emit_riffle (o : Output) (d : Dev) : (emit o d).riffle = d.riffle := rfl
@[simp] theorem emit_txn (o : Output) (d : Dev) : (emit o d).txn = d.txn := rfl
@[simp] theorem emit_host (o : Output) (d : Dev) : (emit o d).host = d.host := rfl
@[simp] theorem emit_power (o : Output) (d : Dev) : (emit o d).power = d.power := rfl
@[simp] theorem emit_fw (o : Output) (d : Dev) : (emit o d).fw = d.fw := rfl
@[simp] theorem emit_weir (o : Output) (d : Dev) : (emit o d).weir = d.weir := rfl
@[simp] theorem emit_keys (o : Output) (d : Dev) : (emit o d).keys = d.keys := rfl
@[simp] theorem emit_media (o : Output) (d : Dev) : (emit o d).media = d.media := rfl
@[simp] theorem emit_sess (o : Output) (d : Dev) : (emit o d).sess = d.sess := rfl
@[simp] theorem emit_profiles (o : Output) (d : Dev) : (emit o d).profiles = d.profiles := rfl
@[simp] theorem emit_reqs (o : Output) (d : Dev) : (emit o d).reqs = d.reqs := rfl
@[simp] theorem emit_rt (o : Output) (d : Dev) : (emit o d).rt = d.rt := rfl
@[simp] theorem emit_aop (o : Output) (d : Dev) : (emit o d).aop = d.aop := rfl
@[simp] theorem emit_cas (o : Output) (d : Dev) : (emit o d).cas = d.cas := rfl

/-! ## advanceTo -/

@[simp] theorem advanceTo_tm (now : Nat) (d : Dev) : (advanceTo now d).tm = max d.tm now := rfl
@[simp] theorem advanceTo_freeCount (now : Nat) (d : Dev) : (advanceTo now d).freeCount = d.freeCount := rfl
@[simp] theorem advanceTo_out (now : Nat) (d : Dev) : (advanceTo now d).out = d.out := rfl
@[simp] theorem advanceTo_num (now : Nat) (d : Dev) : (advanceTo now d).num = d.num := rfl
@[simp] theorem advanceTo_oct (now : Nat) (d : Dev) : (advanceTo now d).oct = d.oct := rfl
@[simp] theorem advanceTo_wear (now : Nat) (d : Dev) : (advanceTo now d).wear = d.wear := rfl
@[simp] theorem advanceTo_fuses (now : Nat) (d : Dev) : (advanceTo now d).fuses = d.fuses := rfl
@[simp] theorem advanceTo_variant (now : Nat) (d : Dev) : (advanceTo now d).variant = d.variant := rfl
@[simp] theorem advanceTo_errLog (now : Nat) (d : Dev) : (advanceTo now d).errLog = d.errLog := rfl
@[simp] theorem advanceTo_vioLog (now : Nat) (d : Dev) : (advanceTo now d).vioLog = d.vioLog := rfl
@[simp] theorem advanceTo_gauge (now : Nat) (d : Dev) : (advanceTo now d).gauge = d.gauge := rfl
@[simp] theorem advanceTo_mem (now : Nat) (d : Dev) : (advanceTo now d).mem = d.mem := rfl
@[simp] theorem advanceTo_poisoned (now : Nat) (d : Dev) : (advanceTo now d).poisoned = d.poisoned := rfl
@[simp] theorem advanceTo_integ (now : Nat) (d : Dev) : (advanceTo now d).integ = d.integ := rfl
@[simp] theorem advanceTo_dram (now : Nat) (d : Dev) : (advanceTo now d).dram = d.dram := rfl
@[simp] theorem advanceTo_cores (now : Nat) (d : Dev) : (advanceTo now d).cores = d.cores := rfl
@[simp] theorem advanceTo_lineBufs (now : Nat) (d : Dev) : (advanceTo now d).lineBufs = d.lineBufs := rfl
@[simp] theorem advanceTo_eddy (now : Nat) (d : Dev) : (advanceTo now d).eddy = d.eddy := rfl
@[simp] theorem advanceTo_riffle (now : Nat) (d : Dev) : (advanceTo now d).riffle = d.riffle := rfl
@[simp] theorem advanceTo_txn (now : Nat) (d : Dev) : (advanceTo now d).txn = d.txn := rfl
@[simp] theorem advanceTo_host (now : Nat) (d : Dev) : (advanceTo now d).host = d.host := rfl
@[simp] theorem advanceTo_power (now : Nat) (d : Dev) : (advanceTo now d).power = d.power := rfl
@[simp] theorem advanceTo_fw (now : Nat) (d : Dev) : (advanceTo now d).fw = d.fw := rfl
@[simp] theorem advanceTo_weir (now : Nat) (d : Dev) : (advanceTo now d).weir = d.weir := rfl
@[simp] theorem advanceTo_keys (now : Nat) (d : Dev) : (advanceTo now d).keys = d.keys := rfl
@[simp] theorem advanceTo_media (now : Nat) (d : Dev) : (advanceTo now d).media = d.media := rfl
@[simp] theorem advanceTo_sess (now : Nat) (d : Dev) : (advanceTo now d).sess = d.sess := rfl
@[simp] theorem advanceTo_profiles (now : Nat) (d : Dev) : (advanceTo now d).profiles = d.profiles := rfl
@[simp] theorem advanceTo_reqs (now : Nat) (d : Dev) : (advanceTo now d).reqs = d.reqs := rfl
@[simp] theorem advanceTo_rt (now : Nat) (d : Dev) : (advanceTo now d).rt = d.rt := rfl
@[simp] theorem advanceTo_aop (now : Nat) (d : Dev) : (advanceTo now d).aop = d.aop := rfl
@[simp] theorem advanceTo_cas (now : Nat) (d : Dev) : (advanceTo now d).cas = d.cas := rfl

/-! ## setNum -/

@[simp] theorem setNum_tm (k v : Nat) (d : Dev) : (setNum k v d).tm = d.tm := rfl
@[simp] theorem setNum_freeCount (k v : Nat) (d : Dev) : (setNum k v d).freeCount = d.freeCount := rfl
@[simp] theorem setNum_out (k v : Nat) (d : Dev) : (setNum k v d).out = d.out := rfl
@[simp] theorem setNum_num (k v : Nat) (d : Dev) : (setNum k v d).num = mapSet d.num k v := rfl
@[simp] theorem setNum_oct (k v : Nat) (d : Dev) : (setNum k v d).oct = d.oct := rfl
@[simp] theorem setNum_wear (k v : Nat) (d : Dev) : (setNum k v d).wear = d.wear := rfl
@[simp] theorem setNum_fuses (k v : Nat) (d : Dev) : (setNum k v d).fuses = d.fuses := rfl
@[simp] theorem setNum_variant (k v : Nat) (d : Dev) : (setNum k v d).variant = d.variant := rfl
@[simp] theorem setNum_errLog (k v : Nat) (d : Dev) : (setNum k v d).errLog = d.errLog := rfl
@[simp] theorem setNum_vioLog (k v : Nat) (d : Dev) : (setNum k v d).vioLog = d.vioLog := rfl
@[simp] theorem setNum_gauge (k v : Nat) (d : Dev) : (setNum k v d).gauge = d.gauge := rfl
@[simp] theorem setNum_mem (k v : Nat) (d : Dev) : (setNum k v d).mem = d.mem := rfl
@[simp] theorem setNum_poisoned (k v : Nat) (d : Dev) : (setNum k v d).poisoned = d.poisoned := rfl
@[simp] theorem setNum_integ (k v : Nat) (d : Dev) : (setNum k v d).integ = d.integ := rfl
@[simp] theorem setNum_dram (k v : Nat) (d : Dev) : (setNum k v d).dram = d.dram := rfl
@[simp] theorem setNum_cores (k v : Nat) (d : Dev) : (setNum k v d).cores = d.cores := rfl
@[simp] theorem setNum_lineBufs (k v : Nat) (d : Dev) : (setNum k v d).lineBufs = d.lineBufs := rfl
@[simp] theorem setNum_eddy (k v : Nat) (d : Dev) : (setNum k v d).eddy = d.eddy := rfl
@[simp] theorem setNum_riffle (k v : Nat) (d : Dev) : (setNum k v d).riffle = d.riffle := rfl
@[simp] theorem setNum_txn (k v : Nat) (d : Dev) : (setNum k v d).txn = d.txn := rfl
@[simp] theorem setNum_host (k v : Nat) (d : Dev) : (setNum k v d).host = d.host := rfl
@[simp] theorem setNum_power (k v : Nat) (d : Dev) : (setNum k v d).power = d.power := rfl
@[simp] theorem setNum_fw (k v : Nat) (d : Dev) : (setNum k v d).fw = d.fw := rfl
@[simp] theorem setNum_weir (k v : Nat) (d : Dev) : (setNum k v d).weir = d.weir := rfl
@[simp] theorem setNum_keys (k v : Nat) (d : Dev) : (setNum k v d).keys = d.keys := rfl
@[simp] theorem setNum_media (k v : Nat) (d : Dev) : (setNum k v d).media = d.media := rfl
@[simp] theorem setNum_sess (k v : Nat) (d : Dev) : (setNum k v d).sess = d.sess := rfl
@[simp] theorem setNum_profiles (k v : Nat) (d : Dev) : (setNum k v d).profiles = d.profiles := rfl
@[simp] theorem setNum_reqs (k v : Nat) (d : Dev) : (setNum k v d).reqs = d.reqs := rfl
@[simp] theorem setNum_rt (k v : Nat) (d : Dev) : (setNum k v d).rt = d.rt := rfl
@[simp] theorem setNum_aop (k v : Nat) (d : Dev) : (setNum k v d).aop = d.aop := rfl
@[simp] theorem setNum_cas (k v : Nat) (d : Dev) : (setNum k v d).cas = d.cas := rfl

/-! ## setOct -/

@[simp] theorem setOct_tm (k : Nat) (v : Bytes) (d : Dev) : (setOct k v d).tm = d.tm := rfl
@[simp] theorem setOct_freeCount (k : Nat) (v : Bytes) (d : Dev) : (setOct k v d).freeCount = d.freeCount := rfl
@[simp] theorem setOct_out (k : Nat) (v : Bytes) (d : Dev) : (setOct k v d).out = d.out := rfl
@[simp] theorem setOct_num (k : Nat) (v : Bytes) (d : Dev) : (setOct k v d).num = d.num := rfl
@[simp] theorem setOct_oct (k : Nat) (v : Bytes) (d : Dev) : (setOct k v d).oct = mapSet d.oct k v := rfl
@[simp] theorem setOct_wear (k : Nat) (v : Bytes) (d : Dev) : (setOct k v d).wear = d.wear := rfl
@[simp] theorem setOct_fuses (k : Nat) (v : Bytes) (d : Dev) : (setOct k v d).fuses = d.fuses := rfl
@[simp] theorem setOct_variant (k : Nat) (v : Bytes) (d : Dev) : (setOct k v d).variant = d.variant := rfl
@[simp] theorem setOct_errLog (k : Nat) (v : Bytes) (d : Dev) : (setOct k v d).errLog = d.errLog := rfl
@[simp] theorem setOct_vioLog (k : Nat) (v : Bytes) (d : Dev) : (setOct k v d).vioLog = d.vioLog := rfl
@[simp] theorem setOct_gauge (k : Nat) (v : Bytes) (d : Dev) : (setOct k v d).gauge = d.gauge := rfl
@[simp] theorem setOct_mem (k : Nat) (v : Bytes) (d : Dev) : (setOct k v d).mem = d.mem := rfl
@[simp] theorem setOct_poisoned (k : Nat) (v : Bytes) (d : Dev) : (setOct k v d).poisoned = d.poisoned := rfl
@[simp] theorem setOct_integ (k : Nat) (v : Bytes) (d : Dev) : (setOct k v d).integ = d.integ := rfl
@[simp] theorem setOct_dram (k : Nat) (v : Bytes) (d : Dev) : (setOct k v d).dram = d.dram := rfl
@[simp] theorem setOct_cores (k : Nat) (v : Bytes) (d : Dev) : (setOct k v d).cores = d.cores := rfl
@[simp] theorem setOct_lineBufs (k : Nat) (v : Bytes) (d : Dev) : (setOct k v d).lineBufs = d.lineBufs := rfl
@[simp] theorem setOct_eddy (k : Nat) (v : Bytes) (d : Dev) : (setOct k v d).eddy = d.eddy := rfl
@[simp] theorem setOct_riffle (k : Nat) (v : Bytes) (d : Dev) : (setOct k v d).riffle = d.riffle := rfl
@[simp] theorem setOct_txn (k : Nat) (v : Bytes) (d : Dev) : (setOct k v d).txn = d.txn := rfl
@[simp] theorem setOct_host (k : Nat) (v : Bytes) (d : Dev) : (setOct k v d).host = d.host := rfl
@[simp] theorem setOct_power (k : Nat) (v : Bytes) (d : Dev) : (setOct k v d).power = d.power := rfl
@[simp] theorem setOct_fw (k : Nat) (v : Bytes) (d : Dev) : (setOct k v d).fw = d.fw := rfl
@[simp] theorem setOct_weir (k : Nat) (v : Bytes) (d : Dev) : (setOct k v d).weir = d.weir := rfl
@[simp] theorem setOct_keys (k : Nat) (v : Bytes) (d : Dev) : (setOct k v d).keys = d.keys := rfl
@[simp] theorem setOct_media (k : Nat) (v : Bytes) (d : Dev) : (setOct k v d).media = d.media := rfl
@[simp] theorem setOct_sess (k : Nat) (v : Bytes) (d : Dev) : (setOct k v d).sess = d.sess := rfl
@[simp] theorem setOct_profiles (k : Nat) (v : Bytes) (d : Dev) : (setOct k v d).profiles = d.profiles := rfl
@[simp] theorem setOct_reqs (k : Nat) (v : Bytes) (d : Dev) : (setOct k v d).reqs = d.reqs := rfl
@[simp] theorem setOct_rt (k : Nat) (v : Bytes) (d : Dev) : (setOct k v d).rt = d.rt := rfl
@[simp] theorem setOct_aop (k : Nat) (v : Bytes) (d : Dev) : (setOct k v d).aop = d.aop := rfl
@[simp] theorem setOct_cas (k : Nat) (v : Bytes) (d : Dev) : (setOct k v d).cas = d.cas := rfl

/-! ## addNum -/

@[simp] theorem addNum_tm (k n : Nat) (d : Dev) : (addNum k n d).tm = d.tm := rfl
@[simp] theorem addNum_freeCount (k n : Nat) (d : Dev) : (addNum k n d).freeCount = d.freeCount := rfl
@[simp] theorem addNum_out (k n : Nat) (d : Dev) : (addNum k n d).out = d.out := rfl
@[simp] theorem addNum_num (k n : Nat) (d : Dev) : (addNum k n d).num = mapSet d.num k (objNum d k + n) := rfl
@[simp] theorem addNum_oct (k n : Nat) (d : Dev) : (addNum k n d).oct = d.oct := rfl
@[simp] theorem addNum_wear (k n : Nat) (d : Dev) : (addNum k n d).wear = d.wear := rfl
@[simp] theorem addNum_fuses (k n : Nat) (d : Dev) : (addNum k n d).fuses = d.fuses := rfl
@[simp] theorem addNum_variant (k n : Nat) (d : Dev) : (addNum k n d).variant = d.variant := rfl
@[simp] theorem addNum_errLog (k n : Nat) (d : Dev) : (addNum k n d).errLog = d.errLog := rfl
@[simp] theorem addNum_vioLog (k n : Nat) (d : Dev) : (addNum k n d).vioLog = d.vioLog := rfl
@[simp] theorem addNum_gauge (k n : Nat) (d : Dev) : (addNum k n d).gauge = d.gauge := rfl
@[simp] theorem addNum_mem (k n : Nat) (d : Dev) : (addNum k n d).mem = d.mem := rfl
@[simp] theorem addNum_poisoned (k n : Nat) (d : Dev) : (addNum k n d).poisoned = d.poisoned := rfl
@[simp] theorem addNum_integ (k n : Nat) (d : Dev) : (addNum k n d).integ = d.integ := rfl
@[simp] theorem addNum_dram (k n : Nat) (d : Dev) : (addNum k n d).dram = d.dram := rfl
@[simp] theorem addNum_cores (k n : Nat) (d : Dev) : (addNum k n d).cores = d.cores := rfl
@[simp] theorem addNum_lineBufs (k n : Nat) (d : Dev) : (addNum k n d).lineBufs = d.lineBufs := rfl
@[simp] theorem addNum_eddy (k n : Nat) (d : Dev) : (addNum k n d).eddy = d.eddy := rfl
@[simp] theorem addNum_riffle (k n : Nat) (d : Dev) : (addNum k n d).riffle = d.riffle := rfl
@[simp] theorem addNum_txn (k n : Nat) (d : Dev) : (addNum k n d).txn = d.txn := rfl
@[simp] theorem addNum_host (k n : Nat) (d : Dev) : (addNum k n d).host = d.host := rfl
@[simp] theorem addNum_power (k n : Nat) (d : Dev) : (addNum k n d).power = d.power := rfl
@[simp] theorem addNum_fw (k n : Nat) (d : Dev) : (addNum k n d).fw = d.fw := rfl
@[simp] theorem addNum_weir (k n : Nat) (d : Dev) : (addNum k n d).weir = d.weir := rfl
@[simp] theorem addNum_keys (k n : Nat) (d : Dev) : (addNum k n d).keys = d.keys := rfl
@[simp] theorem addNum_media (k n : Nat) (d : Dev) : (addNum k n d).media = d.media := rfl
@[simp] theorem addNum_sess (k n : Nat) (d : Dev) : (addNum k n d).sess = d.sess := rfl
@[simp] theorem addNum_profiles (k n : Nat) (d : Dev) : (addNum k n d).profiles = d.profiles := rfl
@[simp] theorem addNum_reqs (k n : Nat) (d : Dev) : (addNum k n d).reqs = d.reqs := rfl
@[simp] theorem addNum_rt (k n : Nat) (d : Dev) : (addNum k n d).rt = d.rt := rfl
@[simp] theorem addNum_aop (k n : Nat) (d : Dev) : (addNum k n d).aop = d.aop := rfl
@[simp] theorem addNum_cas (k n : Nat) (d : Dev) : (addNum k n d).cas = d.cas := rfl

/-! ## bump -/

@[simp] theorem bump_tm (k : Nat) (d : Dev) : (bump k d).tm = d.tm := rfl
@[simp] theorem bump_freeCount (k : Nat) (d : Dev) : (bump k d).freeCount = d.freeCount := rfl
@[simp] theorem bump_out (k : Nat) (d : Dev) : (bump k d).out = d.out := rfl
@[simp] theorem bump_num (k : Nat) (d : Dev) : (bump k d).num = mapSet d.num k (objNum d k + 1) := rfl
@[simp] theorem bump_oct (k : Nat) (d : Dev) : (bump k d).oct = d.oct := rfl
@[simp] theorem bump_wear (k : Nat) (d : Dev) : (bump k d).wear = d.wear := rfl
@[simp] theorem bump_fuses (k : Nat) (d : Dev) : (bump k d).fuses = d.fuses := rfl
@[simp] theorem bump_variant (k : Nat) (d : Dev) : (bump k d).variant = d.variant := rfl
@[simp] theorem bump_errLog (k : Nat) (d : Dev) : (bump k d).errLog = d.errLog := rfl
@[simp] theorem bump_vioLog (k : Nat) (d : Dev) : (bump k d).vioLog = d.vioLog := rfl
@[simp] theorem bump_gauge (k : Nat) (d : Dev) : (bump k d).gauge = d.gauge := rfl
@[simp] theorem bump_mem (k : Nat) (d : Dev) : (bump k d).mem = d.mem := rfl
@[simp] theorem bump_poisoned (k : Nat) (d : Dev) : (bump k d).poisoned = d.poisoned := rfl
@[simp] theorem bump_integ (k : Nat) (d : Dev) : (bump k d).integ = d.integ := rfl
@[simp] theorem bump_dram (k : Nat) (d : Dev) : (bump k d).dram = d.dram := rfl
@[simp] theorem bump_cores (k : Nat) (d : Dev) : (bump k d).cores = d.cores := rfl
@[simp] theorem bump_lineBufs (k : Nat) (d : Dev) : (bump k d).lineBufs = d.lineBufs := rfl
@[simp] theorem bump_eddy (k : Nat) (d : Dev) : (bump k d).eddy = d.eddy := rfl
@[simp] theorem bump_riffle (k : Nat) (d : Dev) : (bump k d).riffle = d.riffle := rfl
@[simp] theorem bump_txn (k : Nat) (d : Dev) : (bump k d).txn = d.txn := rfl
@[simp] theorem bump_host (k : Nat) (d : Dev) : (bump k d).host = d.host := rfl
@[simp] theorem bump_power (k : Nat) (d : Dev) : (bump k d).power = d.power := rfl
@[simp] theorem bump_fw (k : Nat) (d : Dev) : (bump k d).fw = d.fw := rfl
@[simp] theorem bump_weir (k : Nat) (d : Dev) : (bump k d).weir = d.weir := rfl
@[simp] theorem bump_keys (k : Nat) (d : Dev) : (bump k d).keys = d.keys := rfl
@[simp] theorem bump_media (k : Nat) (d : Dev) : (bump k d).media = d.media := rfl
@[simp] theorem bump_sess (k : Nat) (d : Dev) : (bump k d).sess = d.sess := rfl
@[simp] theorem bump_profiles (k : Nat) (d : Dev) : (bump k d).profiles = d.profiles := rfl
@[simp] theorem bump_reqs (k : Nat) (d : Dev) : (bump k d).reqs = d.reqs := rfl
@[simp] theorem bump_rt (k : Nat) (d : Dev) : (bump k d).rt = d.rt := rfl
@[simp] theorem bump_aop (k : Nat) (d : Dev) : (bump k d).aop = d.aop := rfl
@[simp] theorem bump_cas (k : Nat) (d : Dev) : (bump k d).cas = d.cas := rfl

/-! ## memPut -/

@[simp] theorem memPut_tm (key : Nat) (bs : Bytes) (d : Dev) : (memPut key bs d).tm = d.tm := rfl
@[simp] theorem memPut_freeCount (key : Nat) (bs : Bytes) (d : Dev) : (memPut key bs d).freeCount = d.freeCount := rfl
@[simp] theorem memPut_out (key : Nat) (bs : Bytes) (d : Dev) : (memPut key bs d).out = d.out := rfl
@[simp] theorem memPut_num (key : Nat) (bs : Bytes) (d : Dev) : (memPut key bs d).num = d.num := rfl
@[simp] theorem memPut_oct (key : Nat) (bs : Bytes) (d : Dev) : (memPut key bs d).oct = d.oct := rfl
@[simp] theorem memPut_wear (key : Nat) (bs : Bytes) (d : Dev) : (memPut key bs d).wear = d.wear := rfl
@[simp] theorem memPut_fuses (key : Nat) (bs : Bytes) (d : Dev) : (memPut key bs d).fuses = d.fuses := rfl
@[simp] theorem memPut_variant (key : Nat) (bs : Bytes) (d : Dev) : (memPut key bs d).variant = d.variant := rfl
@[simp] theorem memPut_errLog (key : Nat) (bs : Bytes) (d : Dev) : (memPut key bs d).errLog = d.errLog := rfl
@[simp] theorem memPut_vioLog (key : Nat) (bs : Bytes) (d : Dev) : (memPut key bs d).vioLog = d.vioLog := rfl
@[simp] theorem memPut_gauge (key : Nat) (bs : Bytes) (d : Dev) : (memPut key bs d).gauge = d.gauge := rfl
@[simp] theorem memPut_mem (key : Nat) (bs : Bytes) (d : Dev) : (memPut key bs d).mem = cellsPut d.mem key bs := rfl
@[simp] theorem memPut_poisoned (key : Nat) (bs : Bytes) (d : Dev) : (memPut key bs d).poisoned = d.poisoned := rfl
@[simp] theorem memPut_integ (key : Nat) (bs : Bytes) (d : Dev) : (memPut key bs d).integ = d.integ := rfl
@[simp] theorem memPut_dram (key : Nat) (bs : Bytes) (d : Dev) : (memPut key bs d).dram = d.dram := rfl
@[simp] theorem memPut_cores (key : Nat) (bs : Bytes) (d : Dev) : (memPut key bs d).cores = d.cores := rfl
@[simp] theorem memPut_lineBufs (key : Nat) (bs : Bytes) (d : Dev) : (memPut key bs d).lineBufs = d.lineBufs := rfl
@[simp] theorem memPut_eddy (key : Nat) (bs : Bytes) (d : Dev) : (memPut key bs d).eddy = d.eddy := rfl
@[simp] theorem memPut_riffle (key : Nat) (bs : Bytes) (d : Dev) : (memPut key bs d).riffle = d.riffle := rfl
@[simp] theorem memPut_txn (key : Nat) (bs : Bytes) (d : Dev) : (memPut key bs d).txn = d.txn := rfl
@[simp] theorem memPut_host (key : Nat) (bs : Bytes) (d : Dev) : (memPut key bs d).host = d.host := rfl
@[simp] theorem memPut_power (key : Nat) (bs : Bytes) (d : Dev) : (memPut key bs d).power = d.power := rfl
@[simp] theorem memPut_fw (key : Nat) (bs : Bytes) (d : Dev) : (memPut key bs d).fw = d.fw := rfl
@[simp] theorem memPut_weir (key : Nat) (bs : Bytes) (d : Dev) : (memPut key bs d).weir = d.weir := rfl
@[simp] theorem memPut_keys (key : Nat) (bs : Bytes) (d : Dev) : (memPut key bs d).keys = d.keys := rfl
@[simp] theorem memPut_media (key : Nat) (bs : Bytes) (d : Dev) : (memPut key bs d).media = d.media := rfl
@[simp] theorem memPut_sess (key : Nat) (bs : Bytes) (d : Dev) : (memPut key bs d).sess = d.sess := rfl
@[simp] theorem memPut_profiles (key : Nat) (bs : Bytes) (d : Dev) : (memPut key bs d).profiles = d.profiles := rfl
@[simp] theorem memPut_reqs (key : Nat) (bs : Bytes) (d : Dev) : (memPut key bs d).reqs = d.reqs := rfl
@[simp] theorem memPut_rt (key : Nat) (bs : Bytes) (d : Dev) : (memPut key bs d).rt = d.rt := rfl
@[simp] theorem memPut_aop (key : Nat) (bs : Bytes) (d : Dev) : (memPut key bs d).aop = d.aop := rfl
@[simp] theorem memPut_cas (key : Nat) (bs : Bytes) (d : Dev) : (memPut key bs d).cas = d.cas := rfl

/-! ## poisonWord -/

@[simp] theorem poisonWord_tm (w : Nat) (d : Dev) : (poisonWord w d).tm = d.tm := rfl
@[simp] theorem poisonWord_freeCount (w : Nat) (d : Dev) : (poisonWord w d).freeCount = d.freeCount := rfl
@[simp] theorem poisonWord_out (w : Nat) (d : Dev) : (poisonWord w d).out = d.out := rfl
@[simp] theorem poisonWord_num (w : Nat) (d : Dev) : (poisonWord w d).num = d.num := rfl
@[simp] theorem poisonWord_oct (w : Nat) (d : Dev) : (poisonWord w d).oct = d.oct := rfl
@[simp] theorem poisonWord_wear (w : Nat) (d : Dev) : (poisonWord w d).wear = d.wear := rfl
@[simp] theorem poisonWord_fuses (w : Nat) (d : Dev) : (poisonWord w d).fuses = d.fuses := rfl
@[simp] theorem poisonWord_variant (w : Nat) (d : Dev) : (poisonWord w d).variant = d.variant := rfl
@[simp] theorem poisonWord_errLog (w : Nat) (d : Dev) : (poisonWord w d).errLog = d.errLog := rfl
@[simp] theorem poisonWord_vioLog (w : Nat) (d : Dev) : (poisonWord w d).vioLog = d.vioLog := rfl
@[simp] theorem poisonWord_gauge (w : Nat) (d : Dev) : (poisonWord w d).gauge = d.gauge := rfl
@[simp] theorem poisonWord_mem (w : Nat) (d : Dev) : (poisonWord w d).mem = d.mem := rfl
@[simp] theorem poisonWord_poisoned (w : Nat) (d : Dev) : (poisonWord w d).poisoned = insNat w d.poisoned := rfl
@[simp] theorem poisonWord_integ (w : Nat) (d : Dev) : (poisonWord w d).integ = d.integ := rfl
@[simp] theorem poisonWord_dram (w : Nat) (d : Dev) : (poisonWord w d).dram = d.dram := rfl
@[simp] theorem poisonWord_cores (w : Nat) (d : Dev) : (poisonWord w d).cores = d.cores := rfl
@[simp] theorem poisonWord_lineBufs (w : Nat) (d : Dev) : (poisonWord w d).lineBufs = d.lineBufs := rfl
@[simp] theorem poisonWord_eddy (w : Nat) (d : Dev) : (poisonWord w d).eddy = d.eddy := rfl
@[simp] theorem poisonWord_riffle (w : Nat) (d : Dev) : (poisonWord w d).riffle = d.riffle := rfl
@[simp] theorem poisonWord_txn (w : Nat) (d : Dev) : (poisonWord w d).txn = d.txn := rfl
@[simp] theorem poisonWord_host (w : Nat) (d : Dev) : (poisonWord w d).host = d.host := rfl
@[simp] theorem poisonWord_power (w : Nat) (d : Dev) : (poisonWord w d).power = d.power := rfl
@[simp] theorem poisonWord_fw (w : Nat) (d : Dev) : (poisonWord w d).fw = d.fw := rfl
@[simp] theorem poisonWord_weir (w : Nat) (d : Dev) : (poisonWord w d).weir = d.weir := rfl
@[simp] theorem poisonWord_keys (w : Nat) (d : Dev) : (poisonWord w d).keys = d.keys := rfl
@[simp] theorem poisonWord_media (w : Nat) (d : Dev) : (poisonWord w d).media = d.media := rfl
@[simp] theorem poisonWord_sess (w : Nat) (d : Dev) : (poisonWord w d).sess = d.sess := rfl
@[simp] theorem poisonWord_profiles (w : Nat) (d : Dev) : (poisonWord w d).profiles = d.profiles := rfl
@[simp] theorem poisonWord_reqs (w : Nat) (d : Dev) : (poisonWord w d).reqs = d.reqs := rfl
@[simp] theorem poisonWord_rt (w : Nat) (d : Dev) : (poisonWord w d).rt = d.rt := rfl
@[simp] theorem poisonWord_aop (w : Nat) (d : Dev) : (poisonWord w d).aop = d.aop := rfl
@[simp] theorem poisonWord_cas (w : Nat) (d : Dev) : (poisonWord w d).cas = d.cas := rfl

/-! ## cleanWord -/

@[simp] theorem cleanWord_tm (w : Nat) (d : Dev) : (cleanWord w d).tm = d.tm := rfl
@[simp] theorem cleanWord_freeCount (w : Nat) (d : Dev) : (cleanWord w d).freeCount = d.freeCount := rfl
@[simp] theorem cleanWord_out (w : Nat) (d : Dev) : (cleanWord w d).out = d.out := rfl
@[simp] theorem cleanWord_num (w : Nat) (d : Dev) : (cleanWord w d).num = d.num := rfl
@[simp] theorem cleanWord_oct (w : Nat) (d : Dev) : (cleanWord w d).oct = d.oct := rfl
@[simp] theorem cleanWord_wear (w : Nat) (d : Dev) : (cleanWord w d).wear = d.wear := rfl
@[simp] theorem cleanWord_fuses (w : Nat) (d : Dev) : (cleanWord w d).fuses = d.fuses := rfl
@[simp] theorem cleanWord_variant (w : Nat) (d : Dev) : (cleanWord w d).variant = d.variant := rfl
@[simp] theorem cleanWord_errLog (w : Nat) (d : Dev) : (cleanWord w d).errLog = d.errLog := rfl
@[simp] theorem cleanWord_vioLog (w : Nat) (d : Dev) : (cleanWord w d).vioLog = d.vioLog := rfl
@[simp] theorem cleanWord_gauge (w : Nat) (d : Dev) : (cleanWord w d).gauge = d.gauge := rfl
@[simp] theorem cleanWord_mem (w : Nat) (d : Dev) : (cleanWord w d).mem = d.mem := rfl
@[simp] theorem cleanWord_poisoned (w : Nat) (d : Dev) : (cleanWord w d).poisoned = d.poisoned.filter (· ≠ w) := rfl
@[simp] theorem cleanWord_integ (w : Nat) (d : Dev) : (cleanWord w d).integ = d.integ := rfl
@[simp] theorem cleanWord_dram (w : Nat) (d : Dev) : (cleanWord w d).dram = d.dram := rfl
@[simp] theorem cleanWord_cores (w : Nat) (d : Dev) : (cleanWord w d).cores = d.cores := rfl
@[simp] theorem cleanWord_lineBufs (w : Nat) (d : Dev) : (cleanWord w d).lineBufs = d.lineBufs := rfl
@[simp] theorem cleanWord_eddy (w : Nat) (d : Dev) : (cleanWord w d).eddy = d.eddy := rfl
@[simp] theorem cleanWord_riffle (w : Nat) (d : Dev) : (cleanWord w d).riffle = d.riffle := rfl
@[simp] theorem cleanWord_txn (w : Nat) (d : Dev) : (cleanWord w d).txn = d.txn := rfl
@[simp] theorem cleanWord_host (w : Nat) (d : Dev) : (cleanWord w d).host = d.host := rfl
@[simp] theorem cleanWord_power (w : Nat) (d : Dev) : (cleanWord w d).power = d.power := rfl
@[simp] theorem cleanWord_fw (w : Nat) (d : Dev) : (cleanWord w d).fw = d.fw := rfl
@[simp] theorem cleanWord_weir (w : Nat) (d : Dev) : (cleanWord w d).weir = d.weir := rfl
@[simp] theorem cleanWord_keys (w : Nat) (d : Dev) : (cleanWord w d).keys = d.keys := rfl
@[simp] theorem cleanWord_media (w : Nat) (d : Dev) : (cleanWord w d).media = d.media := rfl
@[simp] theorem cleanWord_sess (w : Nat) (d : Dev) : (cleanWord w d).sess = d.sess := rfl
@[simp] theorem cleanWord_profiles (w : Nat) (d : Dev) : (cleanWord w d).profiles = d.profiles := rfl
@[simp] theorem cleanWord_reqs (w : Nat) (d : Dev) : (cleanWord w d).reqs = d.reqs := rfl
@[simp] theorem cleanWord_rt (w : Nat) (d : Dev) : (cleanWord w d).rt = d.rt := rfl
@[simp] theorem cleanWord_aop (w : Nat) (d : Dev) : (cleanWord w d).aop = d.aop := rfl
@[simp] theorem cleanWord_cas (w : Nat) (d : Dev) : (cleanWord w d).cas = d.cas := rfl

/-! ## zeroMem -/

@[simp] theorem zeroMem_tm (key len : Nat) (d : Dev) : (zeroMem key len d).tm = d.tm := rfl
@[simp] theorem zeroMem_freeCount (key len : Nat) (d : Dev) : (zeroMem key len d).freeCount = d.freeCount := rfl
@[simp] theorem zeroMem_out (key len : Nat) (d : Dev) : (zeroMem key len d).out = d.out := rfl
@[simp] theorem zeroMem_num (key len : Nat) (d : Dev) : (zeroMem key len d).num = d.num := rfl
@[simp] theorem zeroMem_oct (key len : Nat) (d : Dev) : (zeroMem key len d).oct = d.oct := rfl
@[simp] theorem zeroMem_wear (key len : Nat) (d : Dev) : (zeroMem key len d).wear = d.wear := rfl
@[simp] theorem zeroMem_fuses (key len : Nat) (d : Dev) : (zeroMem key len d).fuses = d.fuses := rfl
@[simp] theorem zeroMem_variant (key len : Nat) (d : Dev) : (zeroMem key len d).variant = d.variant := rfl
@[simp] theorem zeroMem_errLog (key len : Nat) (d : Dev) : (zeroMem key len d).errLog = d.errLog := rfl
@[simp] theorem zeroMem_vioLog (key len : Nat) (d : Dev) : (zeroMem key len d).vioLog = d.vioLog := rfl
@[simp] theorem zeroMem_gauge (key len : Nat) (d : Dev) : (zeroMem key len d).gauge = d.gauge := rfl
@[simp] theorem zeroMem_integ (key len : Nat) (d : Dev) : (zeroMem key len d).integ = d.integ := rfl
@[simp] theorem zeroMem_dram (key len : Nat) (d : Dev) : (zeroMem key len d).dram = d.dram := rfl
@[simp] theorem zeroMem_cores (key len : Nat) (d : Dev) : (zeroMem key len d).cores = d.cores := rfl
@[simp] theorem zeroMem_lineBufs (key len : Nat) (d : Dev) : (zeroMem key len d).lineBufs = d.lineBufs := rfl
@[simp] theorem zeroMem_eddy (key len : Nat) (d : Dev) : (zeroMem key len d).eddy = d.eddy := rfl
@[simp] theorem zeroMem_riffle (key len : Nat) (d : Dev) : (zeroMem key len d).riffle = d.riffle := rfl
@[simp] theorem zeroMem_txn (key len : Nat) (d : Dev) : (zeroMem key len d).txn = d.txn := rfl
@[simp] theorem zeroMem_host (key len : Nat) (d : Dev) : (zeroMem key len d).host = d.host := rfl
@[simp] theorem zeroMem_power (key len : Nat) (d : Dev) : (zeroMem key len d).power = d.power := rfl
@[simp] theorem zeroMem_fw (key len : Nat) (d : Dev) : (zeroMem key len d).fw = d.fw := rfl
@[simp] theorem zeroMem_weir (key len : Nat) (d : Dev) : (zeroMem key len d).weir = d.weir := rfl
@[simp] theorem zeroMem_keys (key len : Nat) (d : Dev) : (zeroMem key len d).keys = d.keys := rfl
@[simp] theorem zeroMem_media (key len : Nat) (d : Dev) : (zeroMem key len d).media = d.media := rfl
@[simp] theorem zeroMem_sess (key len : Nat) (d : Dev) : (zeroMem key len d).sess = d.sess := rfl
@[simp] theorem zeroMem_profiles (key len : Nat) (d : Dev) : (zeroMem key len d).profiles = d.profiles := rfl
@[simp] theorem zeroMem_reqs (key len : Nat) (d : Dev) : (zeroMem key len d).reqs = d.reqs := rfl
@[simp] theorem zeroMem_rt (key len : Nat) (d : Dev) : (zeroMem key len d).rt = d.rt := rfl
@[simp] theorem zeroMem_aop (key len : Nat) (d : Dev) : (zeroMem key len d).aop = d.aop := rfl
@[simp] theorem zeroMem_cas (key len : Nat) (d : Dev) : (zeroMem key len d).cas = d.cas := rfl

/-! ## modifyCore -/

@[simp] theorem modifyCore_tm (n : CoreId) (f : FxCore → FxCore) (d : Dev) : (modifyCore n f d).tm = d.tm := rfl
@[simp] theorem modifyCore_freeCount (n : CoreId) (f : FxCore → FxCore) (d : Dev) : (modifyCore n f d).freeCount = d.freeCount := rfl
@[simp] theorem modifyCore_out (n : CoreId) (f : FxCore → FxCore) (d : Dev) : (modifyCore n f d).out = d.out := rfl
@[simp] theorem modifyCore_num (n : CoreId) (f : FxCore → FxCore) (d : Dev) : (modifyCore n f d).num = d.num := rfl
@[simp] theorem modifyCore_oct (n : CoreId) (f : FxCore → FxCore) (d : Dev) : (modifyCore n f d).oct = d.oct := rfl
@[simp] theorem modifyCore_wear (n : CoreId) (f : FxCore → FxCore) (d : Dev) : (modifyCore n f d).wear = d.wear := rfl
@[simp] theorem modifyCore_fuses (n : CoreId) (f : FxCore → FxCore) (d : Dev) : (modifyCore n f d).fuses = d.fuses := rfl
@[simp] theorem modifyCore_variant (n : CoreId) (f : FxCore → FxCore) (d : Dev) : (modifyCore n f d).variant = d.variant := rfl
@[simp] theorem modifyCore_errLog (n : CoreId) (f : FxCore → FxCore) (d : Dev) : (modifyCore n f d).errLog = d.errLog := rfl
@[simp] theorem modifyCore_vioLog (n : CoreId) (f : FxCore → FxCore) (d : Dev) : (modifyCore n f d).vioLog = d.vioLog := rfl
@[simp] theorem modifyCore_gauge (n : CoreId) (f : FxCore → FxCore) (d : Dev) : (modifyCore n f d).gauge = d.gauge := rfl
@[simp] theorem modifyCore_mem (n : CoreId) (f : FxCore → FxCore) (d : Dev) : (modifyCore n f d).mem = d.mem := rfl
@[simp] theorem modifyCore_poisoned (n : CoreId) (f : FxCore → FxCore) (d : Dev) : (modifyCore n f d).poisoned = d.poisoned := rfl
@[simp] theorem modifyCore_integ (n : CoreId) (f : FxCore → FxCore) (d : Dev) : (modifyCore n f d).integ = d.integ := rfl
@[simp] theorem modifyCore_dram (n : CoreId) (f : FxCore → FxCore) (d : Dev) : (modifyCore n f d).dram = d.dram := rfl
@[simp] theorem modifyCore_cores (n : CoreId) (f : FxCore → FxCore) (d : Dev) : (modifyCore n f d).cores = d.cores.set n (f d.cores[n]) := rfl
@[simp] theorem modifyCore_lineBufs (n : CoreId) (f : FxCore → FxCore) (d : Dev) : (modifyCore n f d).lineBufs = d.lineBufs := rfl
@[simp] theorem modifyCore_eddy (n : CoreId) (f : FxCore → FxCore) (d : Dev) : (modifyCore n f d).eddy = d.eddy := rfl
@[simp] theorem modifyCore_riffle (n : CoreId) (f : FxCore → FxCore) (d : Dev) : (modifyCore n f d).riffle = d.riffle := rfl
@[simp] theorem modifyCore_txn (n : CoreId) (f : FxCore → FxCore) (d : Dev) : (modifyCore n f d).txn = d.txn := rfl
@[simp] theorem modifyCore_host (n : CoreId) (f : FxCore → FxCore) (d : Dev) : (modifyCore n f d).host = d.host := rfl
@[simp] theorem modifyCore_power (n : CoreId) (f : FxCore → FxCore) (d : Dev) : (modifyCore n f d).power = d.power := rfl
@[simp] theorem modifyCore_fw (n : CoreId) (f : FxCore → FxCore) (d : Dev) : (modifyCore n f d).fw = d.fw := rfl
@[simp] theorem modifyCore_weir (n : CoreId) (f : FxCore → FxCore) (d : Dev) : (modifyCore n f d).weir = d.weir := rfl
@[simp] theorem modifyCore_keys (n : CoreId) (f : FxCore → FxCore) (d : Dev) : (modifyCore n f d).keys = d.keys := rfl
@[simp] theorem modifyCore_media (n : CoreId) (f : FxCore → FxCore) (d : Dev) : (modifyCore n f d).media = d.media := rfl
@[simp] theorem modifyCore_sess (n : CoreId) (f : FxCore → FxCore) (d : Dev) : (modifyCore n f d).sess = d.sess := rfl
@[simp] theorem modifyCore_profiles (n : CoreId) (f : FxCore → FxCore) (d : Dev) : (modifyCore n f d).profiles = d.profiles := rfl
@[simp] theorem modifyCore_reqs (n : CoreId) (f : FxCore → FxCore) (d : Dev) : (modifyCore n f d).reqs = d.reqs := rfl
@[simp] theorem modifyCore_rt (n : CoreId) (f : FxCore → FxCore) (d : Dev) : (modifyCore n f d).rt = d.rt := rfl
@[simp] theorem modifyCore_aop (n : CoreId) (f : FxCore → FxCore) (d : Dev) : (modifyCore n f d).aop = d.aop := rfl
@[simp] theorem modifyCore_cas (n : CoreId) (f : FxCore → FxCore) (d : Dev) : (modifyCore n f d).cas = d.cas := rfl

/-! ## modifyCtrl -/

@[simp] theorem modifyCtrl_tm (id : Nat) (f : Ctrl → Ctrl) (d : Dev) : (modifyCtrl id f d).tm = d.tm := rfl
@[simp] theorem modifyCtrl_freeCount (id : Nat) (f : Ctrl → Ctrl) (d : Dev) : (modifyCtrl id f d).freeCount = d.freeCount := rfl
@[simp] theorem modifyCtrl_out (id : Nat) (f : Ctrl → Ctrl) (d : Dev) : (modifyCtrl id f d).out = d.out := rfl
@[simp] theorem modifyCtrl_num (id : Nat) (f : Ctrl → Ctrl) (d : Dev) : (modifyCtrl id f d).num = d.num := rfl
@[simp] theorem modifyCtrl_oct (id : Nat) (f : Ctrl → Ctrl) (d : Dev) : (modifyCtrl id f d).oct = d.oct := rfl
@[simp] theorem modifyCtrl_wear (id : Nat) (f : Ctrl → Ctrl) (d : Dev) : (modifyCtrl id f d).wear = d.wear := rfl
@[simp] theorem modifyCtrl_fuses (id : Nat) (f : Ctrl → Ctrl) (d : Dev) : (modifyCtrl id f d).fuses = d.fuses := rfl
@[simp] theorem modifyCtrl_variant (id : Nat) (f : Ctrl → Ctrl) (d : Dev) : (modifyCtrl id f d).variant = d.variant := rfl
@[simp] theorem modifyCtrl_errLog (id : Nat) (f : Ctrl → Ctrl) (d : Dev) : (modifyCtrl id f d).errLog = d.errLog := rfl
@[simp] theorem modifyCtrl_vioLog (id : Nat) (f : Ctrl → Ctrl) (d : Dev) : (modifyCtrl id f d).vioLog = d.vioLog := rfl
@[simp] theorem modifyCtrl_gauge (id : Nat) (f : Ctrl → Ctrl) (d : Dev) : (modifyCtrl id f d).gauge = d.gauge := rfl
@[simp] theorem modifyCtrl_mem (id : Nat) (f : Ctrl → Ctrl) (d : Dev) : (modifyCtrl id f d).mem = d.mem := rfl
@[simp] theorem modifyCtrl_poisoned (id : Nat) (f : Ctrl → Ctrl) (d : Dev) : (modifyCtrl id f d).poisoned = d.poisoned := rfl
@[simp] theorem modifyCtrl_integ (id : Nat) (f : Ctrl → Ctrl) (d : Dev) : (modifyCtrl id f d).integ = d.integ := rfl
@[simp] theorem modifyCtrl_dram (id : Nat) (f : Ctrl → Ctrl) (d : Dev) : (modifyCtrl id f d).dram = d.dram := rfl
@[simp] theorem modifyCtrl_cores (id : Nat) (f : Ctrl → Ctrl) (d : Dev) : (modifyCtrl id f d).cores = d.cores := rfl
@[simp] theorem modifyCtrl_lineBufs (id : Nat) (f : Ctrl → Ctrl) (d : Dev) : (modifyCtrl id f d).lineBufs = d.lineBufs := rfl
@[simp] theorem modifyCtrl_eddy (id : Nat) (f : Ctrl → Ctrl) (d : Dev) : (modifyCtrl id f d).eddy = d.eddy := rfl
@[simp] theorem modifyCtrl_riffle (id : Nat) (f : Ctrl → Ctrl) (d : Dev) : (modifyCtrl id f d).riffle = d.riffle := rfl
@[simp] theorem modifyCtrl_txn (id : Nat) (f : Ctrl → Ctrl) (d : Dev) : (modifyCtrl id f d).txn = d.txn := rfl
@[simp] theorem modifyCtrl_host (id : Nat) (f : Ctrl → Ctrl) (d : Dev) : (modifyCtrl id f d).host = { d.host with ctrls := mapUpdate d.host.ctrls id f } := rfl
@[simp] theorem modifyCtrl_power (id : Nat) (f : Ctrl → Ctrl) (d : Dev) : (modifyCtrl id f d).power = d.power := rfl
@[simp] theorem modifyCtrl_fw (id : Nat) (f : Ctrl → Ctrl) (d : Dev) : (modifyCtrl id f d).fw = d.fw := rfl
@[simp] theorem modifyCtrl_weir (id : Nat) (f : Ctrl → Ctrl) (d : Dev) : (modifyCtrl id f d).weir = d.weir := rfl
@[simp] theorem modifyCtrl_keys (id : Nat) (f : Ctrl → Ctrl) (d : Dev) : (modifyCtrl id f d).keys = d.keys := rfl
@[simp] theorem modifyCtrl_media (id : Nat) (f : Ctrl → Ctrl) (d : Dev) : (modifyCtrl id f d).media = d.media := rfl
@[simp] theorem modifyCtrl_sess (id : Nat) (f : Ctrl → Ctrl) (d : Dev) : (modifyCtrl id f d).sess = d.sess := rfl
@[simp] theorem modifyCtrl_profiles (id : Nat) (f : Ctrl → Ctrl) (d : Dev) : (modifyCtrl id f d).profiles = d.profiles := rfl
@[simp] theorem modifyCtrl_reqs (id : Nat) (f : Ctrl → Ctrl) (d : Dev) : (modifyCtrl id f d).reqs = d.reqs := rfl
@[simp] theorem modifyCtrl_rt (id : Nat) (f : Ctrl → Ctrl) (d : Dev) : (modifyCtrl id f d).rt = d.rt := rfl
@[simp] theorem modifyCtrl_aop (id : Nat) (f : Ctrl → Ctrl) (d : Dev) : (modifyCtrl id f d).aop = d.aop := rfl
@[simp] theorem modifyCtrl_cas (id : Nat) (f : Ctrl → Ctrl) (d : Dev) : (modifyCtrl id f d).cas = d.cas := rfl

/-! ## modifyPort -/

@[simp] theorem modifyPort_tm (p : Fin 2) (f : Port → Port) (d : Dev) : (modifyPort p f d).tm = d.tm := rfl
@[simp] theorem modifyPort_freeCount (p : Fin 2) (f : Port → Port) (d : Dev) : (modifyPort p f d).freeCount = d.freeCount := rfl
@[simp] theorem modifyPort_out (p : Fin 2) (f : Port → Port) (d : Dev) : (modifyPort p f d).out = d.out := rfl
@[simp] theorem modifyPort_num (p : Fin 2) (f : Port → Port) (d : Dev) : (modifyPort p f d).num = d.num := rfl
@[simp] theorem modifyPort_oct (p : Fin 2) (f : Port → Port) (d : Dev) : (modifyPort p f d).oct = d.oct := rfl
@[simp] theorem modifyPort_wear (p : Fin 2) (f : Port → Port) (d : Dev) : (modifyPort p f d).wear = d.wear := rfl
@[simp] theorem modifyPort_fuses (p : Fin 2) (f : Port → Port) (d : Dev) : (modifyPort p f d).fuses = d.fuses := rfl
@[simp] theorem modifyPort_variant (p : Fin 2) (f : Port → Port) (d : Dev) : (modifyPort p f d).variant = d.variant := rfl
@[simp] theorem modifyPort_errLog (p : Fin 2) (f : Port → Port) (d : Dev) : (modifyPort p f d).errLog = d.errLog := rfl
@[simp] theorem modifyPort_vioLog (p : Fin 2) (f : Port → Port) (d : Dev) : (modifyPort p f d).vioLog = d.vioLog := rfl
@[simp] theorem modifyPort_gauge (p : Fin 2) (f : Port → Port) (d : Dev) : (modifyPort p f d).gauge = d.gauge := rfl
@[simp] theorem modifyPort_mem (p : Fin 2) (f : Port → Port) (d : Dev) : (modifyPort p f d).mem = d.mem := rfl
@[simp] theorem modifyPort_poisoned (p : Fin 2) (f : Port → Port) (d : Dev) : (modifyPort p f d).poisoned = d.poisoned := rfl
@[simp] theorem modifyPort_integ (p : Fin 2) (f : Port → Port) (d : Dev) : (modifyPort p f d).integ = d.integ := rfl
@[simp] theorem modifyPort_dram (p : Fin 2) (f : Port → Port) (d : Dev) : (modifyPort p f d).dram = d.dram := rfl
@[simp] theorem modifyPort_cores (p : Fin 2) (f : Port → Port) (d : Dev) : (modifyPort p f d).cores = d.cores := rfl
@[simp] theorem modifyPort_lineBufs (p : Fin 2) (f : Port → Port) (d : Dev) : (modifyPort p f d).lineBufs = d.lineBufs := rfl
@[simp] theorem modifyPort_eddy (p : Fin 2) (f : Port → Port) (d : Dev) : (modifyPort p f d).eddy = d.eddy := rfl
@[simp] theorem modifyPort_riffle (p : Fin 2) (f : Port → Port) (d : Dev) : (modifyPort p f d).riffle = d.riffle := rfl
@[simp] theorem modifyPort_txn (p : Fin 2) (f : Port → Port) (d : Dev) : (modifyPort p f d).txn = d.txn := rfl
@[simp] theorem modifyPort_host (p : Fin 2) (f : Port → Port) (d : Dev) : (modifyPort p f d).host = { d.host with ports := d.host.ports.set p (f d.host.ports[p]) } := rfl
@[simp] theorem modifyPort_power (p : Fin 2) (f : Port → Port) (d : Dev) : (modifyPort p f d).power = d.power := rfl
@[simp] theorem modifyPort_fw (p : Fin 2) (f : Port → Port) (d : Dev) : (modifyPort p f d).fw = d.fw := rfl
@[simp] theorem modifyPort_weir (p : Fin 2) (f : Port → Port) (d : Dev) : (modifyPort p f d).weir = d.weir := rfl
@[simp] theorem modifyPort_keys (p : Fin 2) (f : Port → Port) (d : Dev) : (modifyPort p f d).keys = d.keys := rfl
@[simp] theorem modifyPort_media (p : Fin 2) (f : Port → Port) (d : Dev) : (modifyPort p f d).media = d.media := rfl
@[simp] theorem modifyPort_sess (p : Fin 2) (f : Port → Port) (d : Dev) : (modifyPort p f d).sess = d.sess := rfl
@[simp] theorem modifyPort_profiles (p : Fin 2) (f : Port → Port) (d : Dev) : (modifyPort p f d).profiles = d.profiles := rfl
@[simp] theorem modifyPort_reqs (p : Fin 2) (f : Port → Port) (d : Dev) : (modifyPort p f d).reqs = d.reqs := rfl
@[simp] theorem modifyPort_rt (p : Fin 2) (f : Port → Port) (d : Dev) : (modifyPort p f d).rt = d.rt := rfl
@[simp] theorem modifyPort_aop (p : Fin 2) (f : Port → Port) (d : Dev) : (modifyPort p f d).aop = d.aop := rfl
@[simp] theorem modifyPort_cas (p : Fin 2) (f : Port → Port) (d : Dev) : (modifyPort p f d).cas = d.cas := rfl

/-! ## modifyWindow -/

@[simp] theorem modifyWindow_tm (ctrl w : Nat) (f : LookupWindow → LookupWindow) (d : Dev) : (modifyWindow ctrl w f d).tm = d.tm := rfl
@[simp] theorem modifyWindow_freeCount (ctrl w : Nat) (f : LookupWindow → LookupWindow) (d : Dev) : (modifyWindow ctrl w f d).freeCount = d.freeCount := rfl
@[simp] theorem modifyWindow_out (ctrl w : Nat) (f : LookupWindow → LookupWindow) (d : Dev) : (modifyWindow ctrl w f d).out = d.out := rfl
@[simp] theorem modifyWindow_num (ctrl w : Nat) (f : LookupWindow → LookupWindow) (d : Dev) : (modifyWindow ctrl w f d).num = d.num := rfl
@[simp] theorem modifyWindow_oct (ctrl w : Nat) (f : LookupWindow → LookupWindow) (d : Dev) : (modifyWindow ctrl w f d).oct = d.oct := rfl
@[simp] theorem modifyWindow_wear (ctrl w : Nat) (f : LookupWindow → LookupWindow) (d : Dev) : (modifyWindow ctrl w f d).wear = d.wear := rfl
@[simp] theorem modifyWindow_fuses (ctrl w : Nat) (f : LookupWindow → LookupWindow) (d : Dev) : (modifyWindow ctrl w f d).fuses = d.fuses := rfl
@[simp] theorem modifyWindow_variant (ctrl w : Nat) (f : LookupWindow → LookupWindow) (d : Dev) : (modifyWindow ctrl w f d).variant = d.variant := rfl
@[simp] theorem modifyWindow_errLog (ctrl w : Nat) (f : LookupWindow → LookupWindow) (d : Dev) : (modifyWindow ctrl w f d).errLog = d.errLog := rfl
@[simp] theorem modifyWindow_vioLog (ctrl w : Nat) (f : LookupWindow → LookupWindow) (d : Dev) : (modifyWindow ctrl w f d).vioLog = d.vioLog := rfl
@[simp] theorem modifyWindow_gauge (ctrl w : Nat) (f : LookupWindow → LookupWindow) (d : Dev) : (modifyWindow ctrl w f d).gauge = d.gauge := rfl
@[simp] theorem modifyWindow_mem (ctrl w : Nat) (f : LookupWindow → LookupWindow) (d : Dev) : (modifyWindow ctrl w f d).mem = d.mem := rfl
@[simp] theorem modifyWindow_poisoned (ctrl w : Nat) (f : LookupWindow → LookupWindow) (d : Dev) : (modifyWindow ctrl w f d).poisoned = d.poisoned := rfl
@[simp] theorem modifyWindow_integ (ctrl w : Nat) (f : LookupWindow → LookupWindow) (d : Dev) : (modifyWindow ctrl w f d).integ = d.integ := rfl
@[simp] theorem modifyWindow_dram (ctrl w : Nat) (f : LookupWindow → LookupWindow) (d : Dev) : (modifyWindow ctrl w f d).dram = d.dram := rfl
@[simp] theorem modifyWindow_cores (ctrl w : Nat) (f : LookupWindow → LookupWindow) (d : Dev) : (modifyWindow ctrl w f d).cores = d.cores := rfl
@[simp] theorem modifyWindow_lineBufs (ctrl w : Nat) (f : LookupWindow → LookupWindow) (d : Dev) : (modifyWindow ctrl w f d).lineBufs = d.lineBufs := rfl
@[simp] theorem modifyWindow_eddy (ctrl w : Nat) (f : LookupWindow → LookupWindow) (d : Dev) : (modifyWindow ctrl w f d).eddy = d.eddy := rfl
@[simp] theorem modifyWindow_riffle (ctrl w : Nat) (f : LookupWindow → LookupWindow) (d : Dev) : (modifyWindow ctrl w f d).riffle = d.riffle := rfl
@[simp] theorem modifyWindow_txn (ctrl w : Nat) (f : LookupWindow → LookupWindow) (d : Dev) : (modifyWindow ctrl w f d).txn = d.txn := rfl
@[simp] theorem modifyWindow_power (ctrl w : Nat) (f : LookupWindow → LookupWindow) (d : Dev) : (modifyWindow ctrl w f d).power = d.power := rfl
@[simp] theorem modifyWindow_fw (ctrl w : Nat) (f : LookupWindow → LookupWindow) (d : Dev) : (modifyWindow ctrl w f d).fw = d.fw := rfl
@[simp] theorem modifyWindow_weir (ctrl w : Nat) (f : LookupWindow → LookupWindow) (d : Dev) : (modifyWindow ctrl w f d).weir = d.weir := rfl
@[simp] theorem modifyWindow_keys (ctrl w : Nat) (f : LookupWindow → LookupWindow) (d : Dev) : (modifyWindow ctrl w f d).keys = d.keys := rfl
@[simp] theorem modifyWindow_media (ctrl w : Nat) (f : LookupWindow → LookupWindow) (d : Dev) : (modifyWindow ctrl w f d).media = d.media := rfl
@[simp] theorem modifyWindow_sess (ctrl w : Nat) (f : LookupWindow → LookupWindow) (d : Dev) : (modifyWindow ctrl w f d).sess = d.sess := rfl
@[simp] theorem modifyWindow_profiles (ctrl w : Nat) (f : LookupWindow → LookupWindow) (d : Dev) : (modifyWindow ctrl w f d).profiles = d.profiles := rfl
@[simp] theorem modifyWindow_reqs (ctrl w : Nat) (f : LookupWindow → LookupWindow) (d : Dev) : (modifyWindow ctrl w f d).reqs = d.reqs := rfl
@[simp] theorem modifyWindow_rt (ctrl w : Nat) (f : LookupWindow → LookupWindow) (d : Dev) : (modifyWindow ctrl w f d).rt = d.rt := rfl
@[simp] theorem modifyWindow_aop (ctrl w : Nat) (f : LookupWindow → LookupWindow) (d : Dev) : (modifyWindow ctrl w f d).aop = d.aop := rfl
@[simp] theorem modifyWindow_cas (ctrl w : Nat) (f : LookupWindow → LookupWindow) (d : Dev) : (modifyWindow ctrl w f d).cas = d.cas := rfl

/-! ## setFeature -/

@[simp] theorem setFeature_tm (id key v : Nat) (d : Dev) : (setFeature id key v d).tm = d.tm := rfl
@[simp] theorem setFeature_freeCount (id key v : Nat) (d : Dev) : (setFeature id key v d).freeCount = d.freeCount := rfl
@[simp] theorem setFeature_out (id key v : Nat) (d : Dev) : (setFeature id key v d).out = d.out := rfl
@[simp] theorem setFeature_num (id key v : Nat) (d : Dev) : (setFeature id key v d).num = d.num := rfl
@[simp] theorem setFeature_oct (id key v : Nat) (d : Dev) : (setFeature id key v d).oct = d.oct := rfl
@[simp] theorem setFeature_wear (id key v : Nat) (d : Dev) : (setFeature id key v d).wear = d.wear := rfl
@[simp] theorem setFeature_fuses (id key v : Nat) (d : Dev) : (setFeature id key v d).fuses = d.fuses := rfl
@[simp] theorem setFeature_variant (id key v : Nat) (d : Dev) : (setFeature id key v d).variant = d.variant := rfl
@[simp] theorem setFeature_errLog (id key v : Nat) (d : Dev) : (setFeature id key v d).errLog = d.errLog := rfl
@[simp] theorem setFeature_vioLog (id key v : Nat) (d : Dev) : (setFeature id key v d).vioLog = d.vioLog := rfl
@[simp] theorem setFeature_gauge (id key v : Nat) (d : Dev) : (setFeature id key v d).gauge = d.gauge := rfl
@[simp] theorem setFeature_mem (id key v : Nat) (d : Dev) : (setFeature id key v d).mem = d.mem := rfl
@[simp] theorem setFeature_poisoned (id key v : Nat) (d : Dev) : (setFeature id key v d).poisoned = d.poisoned := rfl
@[simp] theorem setFeature_integ (id key v : Nat) (d : Dev) : (setFeature id key v d).integ = d.integ := rfl
@[simp] theorem setFeature_dram (id key v : Nat) (d : Dev) : (setFeature id key v d).dram = d.dram := rfl
@[simp] theorem setFeature_cores (id key v : Nat) (d : Dev) : (setFeature id key v d).cores = d.cores := rfl
@[simp] theorem setFeature_lineBufs (id key v : Nat) (d : Dev) : (setFeature id key v d).lineBufs = d.lineBufs := rfl
@[simp] theorem setFeature_eddy (id key v : Nat) (d : Dev) : (setFeature id key v d).eddy = d.eddy := rfl
@[simp] theorem setFeature_riffle (id key v : Nat) (d : Dev) : (setFeature id key v d).riffle = d.riffle := rfl
@[simp] theorem setFeature_txn (id key v : Nat) (d : Dev) : (setFeature id key v d).txn = d.txn := rfl
@[simp] theorem setFeature_power (id key v : Nat) (d : Dev) : (setFeature id key v d).power = d.power := rfl
@[simp] theorem setFeature_fw (id key v : Nat) (d : Dev) : (setFeature id key v d).fw = d.fw := rfl
@[simp] theorem setFeature_weir (id key v : Nat) (d : Dev) : (setFeature id key v d).weir = d.weir := rfl
@[simp] theorem setFeature_keys (id key v : Nat) (d : Dev) : (setFeature id key v d).keys = d.keys := rfl
@[simp] theorem setFeature_media (id key v : Nat) (d : Dev) : (setFeature id key v d).media = d.media := rfl
@[simp] theorem setFeature_sess (id key v : Nat) (d : Dev) : (setFeature id key v d).sess = d.sess := rfl
@[simp] theorem setFeature_profiles (id key v : Nat) (d : Dev) : (setFeature id key v d).profiles = d.profiles := rfl
@[simp] theorem setFeature_reqs (id key v : Nat) (d : Dev) : (setFeature id key v d).reqs = d.reqs := rfl
@[simp] theorem setFeature_rt (id key v : Nat) (d : Dev) : (setFeature id key v d).rt = d.rt := rfl
@[simp] theorem setFeature_aop (id key v : Nat) (d : Dev) : (setFeature id key v d).aop = d.aop := rfl
@[simp] theorem setFeature_cas (id key v : Nat) (d : Dev) : (setFeature id key v d).cas = d.cas := rfl

/-! ## modifySub -/

@[simp] theorem modifySub_tm (i : Fin 4) (f : SubChannel → SubChannel) (d : Dev) : (modifySub i f d).tm = d.tm := rfl
@[simp] theorem modifySub_freeCount (i : Fin 4) (f : SubChannel → SubChannel) (d : Dev) : (modifySub i f d).freeCount = d.freeCount := rfl
@[simp] theorem modifySub_out (i : Fin 4) (f : SubChannel → SubChannel) (d : Dev) : (modifySub i f d).out = d.out := rfl
@[simp] theorem modifySub_num (i : Fin 4) (f : SubChannel → SubChannel) (d : Dev) : (modifySub i f d).num = d.num := rfl
@[simp] theorem modifySub_oct (i : Fin 4) (f : SubChannel → SubChannel) (d : Dev) : (modifySub i f d).oct = d.oct := rfl
@[simp] theorem modifySub_wear (i : Fin 4) (f : SubChannel → SubChannel) (d : Dev) : (modifySub i f d).wear = d.wear := rfl
@[simp] theorem modifySub_fuses (i : Fin 4) (f : SubChannel → SubChannel) (d : Dev) : (modifySub i f d).fuses = d.fuses := rfl
@[simp] theorem modifySub_variant (i : Fin 4) (f : SubChannel → SubChannel) (d : Dev) : (modifySub i f d).variant = d.variant := rfl
@[simp] theorem modifySub_errLog (i : Fin 4) (f : SubChannel → SubChannel) (d : Dev) : (modifySub i f d).errLog = d.errLog := rfl
@[simp] theorem modifySub_vioLog (i : Fin 4) (f : SubChannel → SubChannel) (d : Dev) : (modifySub i f d).vioLog = d.vioLog := rfl
@[simp] theorem modifySub_gauge (i : Fin 4) (f : SubChannel → SubChannel) (d : Dev) : (modifySub i f d).gauge = d.gauge := rfl
@[simp] theorem modifySub_mem (i : Fin 4) (f : SubChannel → SubChannel) (d : Dev) : (modifySub i f d).mem = d.mem := rfl
@[simp] theorem modifySub_poisoned (i : Fin 4) (f : SubChannel → SubChannel) (d : Dev) : (modifySub i f d).poisoned = d.poisoned := rfl
@[simp] theorem modifySub_integ (i : Fin 4) (f : SubChannel → SubChannel) (d : Dev) : (modifySub i f d).integ = d.integ := rfl
@[simp] theorem modifySub_dram (i : Fin 4) (f : SubChannel → SubChannel) (d : Dev) : (modifySub i f d).dram = { d.dram with sub := d.dram.sub.set i (f d.dram.sub[i]) } := rfl
@[simp] theorem modifySub_cores (i : Fin 4) (f : SubChannel → SubChannel) (d : Dev) : (modifySub i f d).cores = d.cores := rfl
@[simp] theorem modifySub_lineBufs (i : Fin 4) (f : SubChannel → SubChannel) (d : Dev) : (modifySub i f d).lineBufs = d.lineBufs := rfl
@[simp] theorem modifySub_eddy (i : Fin 4) (f : SubChannel → SubChannel) (d : Dev) : (modifySub i f d).eddy = d.eddy := rfl
@[simp] theorem modifySub_riffle (i : Fin 4) (f : SubChannel → SubChannel) (d : Dev) : (modifySub i f d).riffle = d.riffle := rfl
@[simp] theorem modifySub_txn (i : Fin 4) (f : SubChannel → SubChannel) (d : Dev) : (modifySub i f d).txn = d.txn := rfl
@[simp] theorem modifySub_host (i : Fin 4) (f : SubChannel → SubChannel) (d : Dev) : (modifySub i f d).host = d.host := rfl
@[simp] theorem modifySub_power (i : Fin 4) (f : SubChannel → SubChannel) (d : Dev) : (modifySub i f d).power = d.power := rfl
@[simp] theorem modifySub_fw (i : Fin 4) (f : SubChannel → SubChannel) (d : Dev) : (modifySub i f d).fw = d.fw := rfl
@[simp] theorem modifySub_weir (i : Fin 4) (f : SubChannel → SubChannel) (d : Dev) : (modifySub i f d).weir = d.weir := rfl
@[simp] theorem modifySub_keys (i : Fin 4) (f : SubChannel → SubChannel) (d : Dev) : (modifySub i f d).keys = d.keys := rfl
@[simp] theorem modifySub_media (i : Fin 4) (f : SubChannel → SubChannel) (d : Dev) : (modifySub i f d).media = d.media := rfl
@[simp] theorem modifySub_sess (i : Fin 4) (f : SubChannel → SubChannel) (d : Dev) : (modifySub i f d).sess = d.sess := rfl
@[simp] theorem modifySub_profiles (i : Fin 4) (f : SubChannel → SubChannel) (d : Dev) : (modifySub i f d).profiles = d.profiles := rfl
@[simp] theorem modifySub_reqs (i : Fin 4) (f : SubChannel → SubChannel) (d : Dev) : (modifySub i f d).reqs = d.reqs := rfl
@[simp] theorem modifySub_rt (i : Fin 4) (f : SubChannel → SubChannel) (d : Dev) : (modifySub i f d).rt = d.rt := rfl
@[simp] theorem modifySub_aop (i : Fin 4) (f : SubChannel → SubChannel) (d : Dev) : (modifySub i f d).aop = d.aop := rfl
@[simp] theorem modifySub_cas (i : Fin 4) (f : SubChannel → SubChannel) (d : Dev) : (modifySub i f d).cas = d.cas := rfl

/-! ## modifyInteg -/

@[simp] theorem modifyInteg_tm (f : Integrity → Integrity) (d : Dev) : (modifyInteg f d).tm = d.tm := rfl
@[simp] theorem modifyInteg_freeCount (f : Integrity → Integrity) (d : Dev) : (modifyInteg f d).freeCount = d.freeCount := rfl
@[simp] theorem modifyInteg_out (f : Integrity → Integrity) (d : Dev) : (modifyInteg f d).out = d.out := rfl
@[simp] theorem modifyInteg_num (f : Integrity → Integrity) (d : Dev) : (modifyInteg f d).num = d.num := rfl
@[simp] theorem modifyInteg_oct (f : Integrity → Integrity) (d : Dev) : (modifyInteg f d).oct = d.oct := rfl
@[simp] theorem modifyInteg_wear (f : Integrity → Integrity) (d : Dev) : (modifyInteg f d).wear = d.wear := rfl
@[simp] theorem modifyInteg_fuses (f : Integrity → Integrity) (d : Dev) : (modifyInteg f d).fuses = d.fuses := rfl
@[simp] theorem modifyInteg_variant (f : Integrity → Integrity) (d : Dev) : (modifyInteg f d).variant = d.variant := rfl
@[simp] theorem modifyInteg_errLog (f : Integrity → Integrity) (d : Dev) : (modifyInteg f d).errLog = d.errLog := rfl
@[simp] theorem modifyInteg_vioLog (f : Integrity → Integrity) (d : Dev) : (modifyInteg f d).vioLog = d.vioLog := rfl
@[simp] theorem modifyInteg_gauge (f : Integrity → Integrity) (d : Dev) : (modifyInteg f d).gauge = d.gauge := rfl
@[simp] theorem modifyInteg_mem (f : Integrity → Integrity) (d : Dev) : (modifyInteg f d).mem = d.mem := rfl
@[simp] theorem modifyInteg_poisoned (f : Integrity → Integrity) (d : Dev) : (modifyInteg f d).poisoned = d.poisoned := rfl
@[simp] theorem modifyInteg_integ (f : Integrity → Integrity) (d : Dev) : (modifyInteg f d).integ = f d.integ := rfl
@[simp] theorem modifyInteg_dram (f : Integrity → Integrity) (d : Dev) : (modifyInteg f d).dram = d.dram := rfl
@[simp] theorem modifyInteg_cores (f : Integrity → Integrity) (d : Dev) : (modifyInteg f d).cores = d.cores := rfl
@[simp] theorem modifyInteg_lineBufs (f : Integrity → Integrity) (d : Dev) : (modifyInteg f d).lineBufs = d.lineBufs := rfl
@[simp] theorem modifyInteg_eddy (f : Integrity → Integrity) (d : Dev) : (modifyInteg f d).eddy = d.eddy := rfl
@[simp] theorem modifyInteg_riffle (f : Integrity → Integrity) (d : Dev) : (modifyInteg f d).riffle = d.riffle := rfl
@[simp] theorem modifyInteg_txn (f : Integrity → Integrity) (d : Dev) : (modifyInteg f d).txn = d.txn := rfl
@[simp] theorem modifyInteg_host (f : Integrity → Integrity) (d : Dev) : (modifyInteg f d).host = d.host := rfl
@[simp] theorem modifyInteg_power (f : Integrity → Integrity) (d : Dev) : (modifyInteg f d).power = d.power := rfl
@[simp] theorem modifyInteg_fw (f : Integrity → Integrity) (d : Dev) : (modifyInteg f d).fw = d.fw := rfl
@[simp] theorem modifyInteg_weir (f : Integrity → Integrity) (d : Dev) : (modifyInteg f d).weir = d.weir := rfl
@[simp] theorem modifyInteg_keys (f : Integrity → Integrity) (d : Dev) : (modifyInteg f d).keys = d.keys := rfl
@[simp] theorem modifyInteg_media (f : Integrity → Integrity) (d : Dev) : (modifyInteg f d).media = d.media := rfl
@[simp] theorem modifyInteg_sess (f : Integrity → Integrity) (d : Dev) : (modifyInteg f d).sess = d.sess := rfl
@[simp] theorem modifyInteg_profiles (f : Integrity → Integrity) (d : Dev) : (modifyInteg f d).profiles = d.profiles := rfl
@[simp] theorem modifyInteg_reqs (f : Integrity → Integrity) (d : Dev) : (modifyInteg f d).reqs = d.reqs := rfl
@[simp] theorem modifyInteg_rt (f : Integrity → Integrity) (d : Dev) : (modifyInteg f d).rt = d.rt := rfl
@[simp] theorem modifyInteg_aop (f : Integrity → Integrity) (d : Dev) : (modifyInteg f d).aop = d.aop := rfl
@[simp] theorem modifyInteg_cas (f : Integrity → Integrity) (d : Dev) : (modifyInteg f d).cas = d.cas := rfl

/-! ## modifyPower -/

@[simp] theorem modifyPower_tm (f : Power → Power) (d : Dev) : (modifyPower f d).tm = d.tm := rfl
@[simp] theorem modifyPower_freeCount (f : Power → Power) (d : Dev) : (modifyPower f d).freeCount = d.freeCount := rfl
@[simp] theorem modifyPower_out (f : Power → Power) (d : Dev) : (modifyPower f d).out = d.out := rfl
@[simp] theorem modifyPower_num (f : Power → Power) (d : Dev) : (modifyPower f d).num = d.num := rfl
@[simp] theorem modifyPower_oct (f : Power → Power) (d : Dev) : (modifyPower f d).oct = d.oct := rfl
@[simp] theorem modifyPower_wear (f : Power → Power) (d : Dev) : (modifyPower f d).wear = d.wear := rfl
@[simp] theorem modifyPower_fuses (f : Power → Power) (d : Dev) : (modifyPower f d).fuses = d.fuses := rfl
@[simp] theorem modifyPower_variant (f : Power → Power) (d : Dev) : (modifyPower f d).variant = d.variant := rfl
@[simp] theorem modifyPower_errLog (f : Power → Power) (d : Dev) : (modifyPower f d).errLog = d.errLog := rfl
@[simp] theorem modifyPower_vioLog (f : Power → Power) (d : Dev) : (modifyPower f d).vioLog = d.vioLog := rfl
@[simp] theorem modifyPower_gauge (f : Power → Power) (d : Dev) : (modifyPower f d).gauge = d.gauge := rfl
@[simp] theorem modifyPower_mem (f : Power → Power) (d : Dev) : (modifyPower f d).mem = d.mem := rfl
@[simp] theorem modifyPower_poisoned (f : Power → Power) (d : Dev) : (modifyPower f d).poisoned = d.poisoned := rfl
@[simp] theorem modifyPower_integ (f : Power → Power) (d : Dev) : (modifyPower f d).integ = d.integ := rfl
@[simp] theorem modifyPower_dram (f : Power → Power) (d : Dev) : (modifyPower f d).dram = d.dram := rfl
@[simp] theorem modifyPower_cores (f : Power → Power) (d : Dev) : (modifyPower f d).cores = d.cores := rfl
@[simp] theorem modifyPower_lineBufs (f : Power → Power) (d : Dev) : (modifyPower f d).lineBufs = d.lineBufs := rfl
@[simp] theorem modifyPower_eddy (f : Power → Power) (d : Dev) : (modifyPower f d).eddy = d.eddy := rfl
@[simp] theorem modifyPower_riffle (f : Power → Power) (d : Dev) : (modifyPower f d).riffle = d.riffle := rfl
@[simp] theorem modifyPower_txn (f : Power → Power) (d : Dev) : (modifyPower f d).txn = d.txn := rfl
@[simp] theorem modifyPower_host (f : Power → Power) (d : Dev) : (modifyPower f d).host = d.host := rfl
@[simp] theorem modifyPower_power (f : Power → Power) (d : Dev) : (modifyPower f d).power = f d.power := rfl
@[simp] theorem modifyPower_fw (f : Power → Power) (d : Dev) : (modifyPower f d).fw = d.fw := rfl
@[simp] theorem modifyPower_weir (f : Power → Power) (d : Dev) : (modifyPower f d).weir = d.weir := rfl
@[simp] theorem modifyPower_keys (f : Power → Power) (d : Dev) : (modifyPower f d).keys = d.keys := rfl
@[simp] theorem modifyPower_media (f : Power → Power) (d : Dev) : (modifyPower f d).media = d.media := rfl
@[simp] theorem modifyPower_sess (f : Power → Power) (d : Dev) : (modifyPower f d).sess = d.sess := rfl
@[simp] theorem modifyPower_profiles (f : Power → Power) (d : Dev) : (modifyPower f d).profiles = d.profiles := rfl
@[simp] theorem modifyPower_reqs (f : Power → Power) (d : Dev) : (modifyPower f d).reqs = d.reqs := rfl
@[simp] theorem modifyPower_rt (f : Power → Power) (d : Dev) : (modifyPower f d).rt = d.rt := rfl
@[simp] theorem modifyPower_aop (f : Power → Power) (d : Dev) : (modifyPower f d).aop = d.aop := rfl
@[simp] theorem modifyPower_cas (f : Power → Power) (d : Dev) : (modifyPower f d).cas = d.cas := rfl

/-! ## modifyWeir -/

@[simp] theorem modifyWeir_tm (f : Weir → Weir) (d : Dev) : (modifyWeir f d).tm = d.tm := rfl
@[simp] theorem modifyWeir_freeCount (f : Weir → Weir) (d : Dev) : (modifyWeir f d).freeCount = d.freeCount := rfl
@[simp] theorem modifyWeir_out (f : Weir → Weir) (d : Dev) : (modifyWeir f d).out = d.out := rfl
@[simp] theorem modifyWeir_num (f : Weir → Weir) (d : Dev) : (modifyWeir f d).num = d.num := rfl
@[simp] theorem modifyWeir_oct (f : Weir → Weir) (d : Dev) : (modifyWeir f d).oct = d.oct := rfl
@[simp] theorem modifyWeir_wear (f : Weir → Weir) (d : Dev) : (modifyWeir f d).wear = d.wear := rfl
@[simp] theorem modifyWeir_fuses (f : Weir → Weir) (d : Dev) : (modifyWeir f d).fuses = d.fuses := rfl
@[simp] theorem modifyWeir_variant (f : Weir → Weir) (d : Dev) : (modifyWeir f d).variant = d.variant := rfl
@[simp] theorem modifyWeir_errLog (f : Weir → Weir) (d : Dev) : (modifyWeir f d).errLog = d.errLog := rfl
@[simp] theorem modifyWeir_vioLog (f : Weir → Weir) (d : Dev) : (modifyWeir f d).vioLog = d.vioLog := rfl
@[simp] theorem modifyWeir_gauge (f : Weir → Weir) (d : Dev) : (modifyWeir f d).gauge = d.gauge := rfl
@[simp] theorem modifyWeir_mem (f : Weir → Weir) (d : Dev) : (modifyWeir f d).mem = d.mem := rfl
@[simp] theorem modifyWeir_poisoned (f : Weir → Weir) (d : Dev) : (modifyWeir f d).poisoned = d.poisoned := rfl
@[simp] theorem modifyWeir_integ (f : Weir → Weir) (d : Dev) : (modifyWeir f d).integ = d.integ := rfl
@[simp] theorem modifyWeir_dram (f : Weir → Weir) (d : Dev) : (modifyWeir f d).dram = d.dram := rfl
@[simp] theorem modifyWeir_cores (f : Weir → Weir) (d : Dev) : (modifyWeir f d).cores = d.cores := rfl
@[simp] theorem modifyWeir_lineBufs (f : Weir → Weir) (d : Dev) : (modifyWeir f d).lineBufs = d.lineBufs := rfl
@[simp] theorem modifyWeir_eddy (f : Weir → Weir) (d : Dev) : (modifyWeir f d).eddy = d.eddy := rfl
@[simp] theorem modifyWeir_riffle (f : Weir → Weir) (d : Dev) : (modifyWeir f d).riffle = d.riffle := rfl
@[simp] theorem modifyWeir_txn (f : Weir → Weir) (d : Dev) : (modifyWeir f d).txn = d.txn := rfl
@[simp] theorem modifyWeir_host (f : Weir → Weir) (d : Dev) : (modifyWeir f d).host = d.host := rfl
@[simp] theorem modifyWeir_power (f : Weir → Weir) (d : Dev) : (modifyWeir f d).power = d.power := rfl
@[simp] theorem modifyWeir_fw (f : Weir → Weir) (d : Dev) : (modifyWeir f d).fw = d.fw := rfl
@[simp] theorem modifyWeir_weir (f : Weir → Weir) (d : Dev) : (modifyWeir f d).weir = f d.weir := rfl
@[simp] theorem modifyWeir_keys (f : Weir → Weir) (d : Dev) : (modifyWeir f d).keys = d.keys := rfl
@[simp] theorem modifyWeir_media (f : Weir → Weir) (d : Dev) : (modifyWeir f d).media = d.media := rfl
@[simp] theorem modifyWeir_sess (f : Weir → Weir) (d : Dev) : (modifyWeir f d).sess = d.sess := rfl
@[simp] theorem modifyWeir_profiles (f : Weir → Weir) (d : Dev) : (modifyWeir f d).profiles = d.profiles := rfl
@[simp] theorem modifyWeir_reqs (f : Weir → Weir) (d : Dev) : (modifyWeir f d).reqs = d.reqs := rfl
@[simp] theorem modifyWeir_rt (f : Weir → Weir) (d : Dev) : (modifyWeir f d).rt = d.rt := rfl
@[simp] theorem modifyWeir_aop (f : Weir → Weir) (d : Dev) : (modifyWeir f d).aop = d.aop := rfl
@[simp] theorem modifyWeir_cas (f : Weir → Weir) (d : Dev) : (modifyWeir f d).cas = d.cas := rfl

/-! ## modifyKeys -/

@[simp] theorem modifyKeys_tm (f : KeyStore → KeyStore) (d : Dev) : (modifyKeys f d).tm = d.tm := rfl
@[simp] theorem modifyKeys_freeCount (f : KeyStore → KeyStore) (d : Dev) : (modifyKeys f d).freeCount = d.freeCount := rfl
@[simp] theorem modifyKeys_out (f : KeyStore → KeyStore) (d : Dev) : (modifyKeys f d).out = d.out := rfl
@[simp] theorem modifyKeys_num (f : KeyStore → KeyStore) (d : Dev) : (modifyKeys f d).num = d.num := rfl
@[simp] theorem modifyKeys_oct (f : KeyStore → KeyStore) (d : Dev) : (modifyKeys f d).oct = d.oct := rfl
@[simp] theorem modifyKeys_wear (f : KeyStore → KeyStore) (d : Dev) : (modifyKeys f d).wear = d.wear := rfl
@[simp] theorem modifyKeys_fuses (f : KeyStore → KeyStore) (d : Dev) : (modifyKeys f d).fuses = d.fuses := rfl
@[simp] theorem modifyKeys_variant (f : KeyStore → KeyStore) (d : Dev) : (modifyKeys f d).variant = d.variant := rfl
@[simp] theorem modifyKeys_errLog (f : KeyStore → KeyStore) (d : Dev) : (modifyKeys f d).errLog = d.errLog := rfl
@[simp] theorem modifyKeys_vioLog (f : KeyStore → KeyStore) (d : Dev) : (modifyKeys f d).vioLog = d.vioLog := rfl
@[simp] theorem modifyKeys_gauge (f : KeyStore → KeyStore) (d : Dev) : (modifyKeys f d).gauge = d.gauge := rfl
@[simp] theorem modifyKeys_mem (f : KeyStore → KeyStore) (d : Dev) : (modifyKeys f d).mem = d.mem := rfl
@[simp] theorem modifyKeys_poisoned (f : KeyStore → KeyStore) (d : Dev) : (modifyKeys f d).poisoned = d.poisoned := rfl
@[simp] theorem modifyKeys_integ (f : KeyStore → KeyStore) (d : Dev) : (modifyKeys f d).integ = d.integ := rfl
@[simp] theorem modifyKeys_dram (f : KeyStore → KeyStore) (d : Dev) : (modifyKeys f d).dram = d.dram := rfl
@[simp] theorem modifyKeys_cores (f : KeyStore → KeyStore) (d : Dev) : (modifyKeys f d).cores = d.cores := rfl
@[simp] theorem modifyKeys_lineBufs (f : KeyStore → KeyStore) (d : Dev) : (modifyKeys f d).lineBufs = d.lineBufs := rfl
@[simp] theorem modifyKeys_eddy (f : KeyStore → KeyStore) (d : Dev) : (modifyKeys f d).eddy = d.eddy := rfl
@[simp] theorem modifyKeys_riffle (f : KeyStore → KeyStore) (d : Dev) : (modifyKeys f d).riffle = d.riffle := rfl
@[simp] theorem modifyKeys_txn (f : KeyStore → KeyStore) (d : Dev) : (modifyKeys f d).txn = d.txn := rfl
@[simp] theorem modifyKeys_host (f : KeyStore → KeyStore) (d : Dev) : (modifyKeys f d).host = d.host := rfl
@[simp] theorem modifyKeys_power (f : KeyStore → KeyStore) (d : Dev) : (modifyKeys f d).power = d.power := rfl
@[simp] theorem modifyKeys_fw (f : KeyStore → KeyStore) (d : Dev) : (modifyKeys f d).fw = d.fw := rfl
@[simp] theorem modifyKeys_weir (f : KeyStore → KeyStore) (d : Dev) : (modifyKeys f d).weir = d.weir := rfl
@[simp] theorem modifyKeys_keys (f : KeyStore → KeyStore) (d : Dev) : (modifyKeys f d).keys = f d.keys := rfl
@[simp] theorem modifyKeys_media (f : KeyStore → KeyStore) (d : Dev) : (modifyKeys f d).media = d.media := rfl
@[simp] theorem modifyKeys_sess (f : KeyStore → KeyStore) (d : Dev) : (modifyKeys f d).sess = d.sess := rfl
@[simp] theorem modifyKeys_profiles (f : KeyStore → KeyStore) (d : Dev) : (modifyKeys f d).profiles = d.profiles := rfl
@[simp] theorem modifyKeys_reqs (f : KeyStore → KeyStore) (d : Dev) : (modifyKeys f d).reqs = d.reqs := rfl
@[simp] theorem modifyKeys_rt (f : KeyStore → KeyStore) (d : Dev) : (modifyKeys f d).rt = d.rt := rfl
@[simp] theorem modifyKeys_aop (f : KeyStore → KeyStore) (d : Dev) : (modifyKeys f d).aop = d.aop := rfl
@[simp] theorem modifyKeys_cas (f : KeyStore → KeyStore) (d : Dev) : (modifyKeys f d).cas = d.cas := rfl

/-! ## modifySlot -/

@[simp] theorem modifySlot_tm (n : Nat) (f : KeySlot → KeySlot) (d : Dev) : (modifySlot n f d).tm = d.tm := rfl
@[simp] theorem modifySlot_freeCount (n : Nat) (f : KeySlot → KeySlot) (d : Dev) : (modifySlot n f d).freeCount = d.freeCount := rfl
@[simp] theorem modifySlot_out (n : Nat) (f : KeySlot → KeySlot) (d : Dev) : (modifySlot n f d).out = d.out := rfl
@[simp] theorem modifySlot_num (n : Nat) (f : KeySlot → KeySlot) (d : Dev) : (modifySlot n f d).num = d.num := rfl
@[simp] theorem modifySlot_oct (n : Nat) (f : KeySlot → KeySlot) (d : Dev) : (modifySlot n f d).oct = d.oct := rfl
@[simp] theorem modifySlot_wear (n : Nat) (f : KeySlot → KeySlot) (d : Dev) : (modifySlot n f d).wear = d.wear := rfl
@[simp] theorem modifySlot_fuses (n : Nat) (f : KeySlot → KeySlot) (d : Dev) : (modifySlot n f d).fuses = d.fuses := rfl
@[simp] theorem modifySlot_variant (n : Nat) (f : KeySlot → KeySlot) (d : Dev) : (modifySlot n f d).variant = d.variant := rfl
@[simp] theorem modifySlot_errLog (n : Nat) (f : KeySlot → KeySlot) (d : Dev) : (modifySlot n f d).errLog = d.errLog := rfl
@[simp] theorem modifySlot_vioLog (n : Nat) (f : KeySlot → KeySlot) (d : Dev) : (modifySlot n f d).vioLog = d.vioLog := rfl
@[simp] theorem modifySlot_gauge (n : Nat) (f : KeySlot → KeySlot) (d : Dev) : (modifySlot n f d).gauge = d.gauge := rfl
@[simp] theorem modifySlot_mem (n : Nat) (f : KeySlot → KeySlot) (d : Dev) : (modifySlot n f d).mem = d.mem := rfl
@[simp] theorem modifySlot_poisoned (n : Nat) (f : KeySlot → KeySlot) (d : Dev) : (modifySlot n f d).poisoned = d.poisoned := rfl
@[simp] theorem modifySlot_integ (n : Nat) (f : KeySlot → KeySlot) (d : Dev) : (modifySlot n f d).integ = d.integ := rfl
@[simp] theorem modifySlot_dram (n : Nat) (f : KeySlot → KeySlot) (d : Dev) : (modifySlot n f d).dram = d.dram := rfl
@[simp] theorem modifySlot_cores (n : Nat) (f : KeySlot → KeySlot) (d : Dev) : (modifySlot n f d).cores = d.cores := rfl
@[simp] theorem modifySlot_lineBufs (n : Nat) (f : KeySlot → KeySlot) (d : Dev) : (modifySlot n f d).lineBufs = d.lineBufs := rfl
@[simp] theorem modifySlot_eddy (n : Nat) (f : KeySlot → KeySlot) (d : Dev) : (modifySlot n f d).eddy = d.eddy := rfl
@[simp] theorem modifySlot_riffle (n : Nat) (f : KeySlot → KeySlot) (d : Dev) : (modifySlot n f d).riffle = d.riffle := rfl
@[simp] theorem modifySlot_txn (n : Nat) (f : KeySlot → KeySlot) (d : Dev) : (modifySlot n f d).txn = d.txn := rfl
@[simp] theorem modifySlot_host (n : Nat) (f : KeySlot → KeySlot) (d : Dev) : (modifySlot n f d).host = d.host := rfl
@[simp] theorem modifySlot_power (n : Nat) (f : KeySlot → KeySlot) (d : Dev) : (modifySlot n f d).power = d.power := rfl
@[simp] theorem modifySlot_fw (n : Nat) (f : KeySlot → KeySlot) (d : Dev) : (modifySlot n f d).fw = d.fw := rfl
@[simp] theorem modifySlot_weir (n : Nat) (f : KeySlot → KeySlot) (d : Dev) : (modifySlot n f d).weir = d.weir := rfl
@[simp] theorem modifySlot_media (n : Nat) (f : KeySlot → KeySlot) (d : Dev) : (modifySlot n f d).media = d.media := rfl
@[simp] theorem modifySlot_sess (n : Nat) (f : KeySlot → KeySlot) (d : Dev) : (modifySlot n f d).sess = d.sess := rfl
@[simp] theorem modifySlot_profiles (n : Nat) (f : KeySlot → KeySlot) (d : Dev) : (modifySlot n f d).profiles = d.profiles := rfl
@[simp] theorem modifySlot_reqs (n : Nat) (f : KeySlot → KeySlot) (d : Dev) : (modifySlot n f d).reqs = d.reqs := rfl
@[simp] theorem modifySlot_rt (n : Nat) (f : KeySlot → KeySlot) (d : Dev) : (modifySlot n f d).rt = d.rt := rfl
@[simp] theorem modifySlot_aop (n : Nat) (f : KeySlot → KeySlot) (d : Dev) : (modifySlot n f d).aop = d.aop := rfl
@[simp] theorem modifySlot_cas (n : Nat) (f : KeySlot → KeySlot) (d : Dev) : (modifySlot n f d).cas = d.cas := rfl

/-! ## modifyGen -/

@[simp] theorem modifyGen_tm (n g : Nat) (f : KeyGen → KeyGen) (d : Dev) : (modifyGen n g f d).tm = d.tm := rfl
@[simp] theorem modifyGen_freeCount (n g : Nat) (f : KeyGen → KeyGen) (d : Dev) : (modifyGen n g f d).freeCount = d.freeCount := rfl
@[simp] theorem modifyGen_out (n g : Nat) (f : KeyGen → KeyGen) (d : Dev) : (modifyGen n g f d).out = d.out := rfl
@[simp] theorem modifyGen_num (n g : Nat) (f : KeyGen → KeyGen) (d : Dev) : (modifyGen n g f d).num = d.num := rfl
@[simp] theorem modifyGen_oct (n g : Nat) (f : KeyGen → KeyGen) (d : Dev) : (modifyGen n g f d).oct = d.oct := rfl
@[simp] theorem modifyGen_wear (n g : Nat) (f : KeyGen → KeyGen) (d : Dev) : (modifyGen n g f d).wear = d.wear := rfl
@[simp] theorem modifyGen_fuses (n g : Nat) (f : KeyGen → KeyGen) (d : Dev) : (modifyGen n g f d).fuses = d.fuses := rfl
@[simp] theorem modifyGen_variant (n g : Nat) (f : KeyGen → KeyGen) (d : Dev) : (modifyGen n g f d).variant = d.variant := rfl
@[simp] theorem modifyGen_errLog (n g : Nat) (f : KeyGen → KeyGen) (d : Dev) : (modifyGen n g f d).errLog = d.errLog := rfl
@[simp] theorem modifyGen_vioLog (n g : Nat) (f : KeyGen → KeyGen) (d : Dev) : (modifyGen n g f d).vioLog = d.vioLog := rfl
@[simp] theorem modifyGen_gauge (n g : Nat) (f : KeyGen → KeyGen) (d : Dev) : (modifyGen n g f d).gauge = d.gauge := rfl
@[simp] theorem modifyGen_mem (n g : Nat) (f : KeyGen → KeyGen) (d : Dev) : (modifyGen n g f d).mem = d.mem := rfl
@[simp] theorem modifyGen_poisoned (n g : Nat) (f : KeyGen → KeyGen) (d : Dev) : (modifyGen n g f d).poisoned = d.poisoned := rfl
@[simp] theorem modifyGen_integ (n g : Nat) (f : KeyGen → KeyGen) (d : Dev) : (modifyGen n g f d).integ = d.integ := rfl
@[simp] theorem modifyGen_dram (n g : Nat) (f : KeyGen → KeyGen) (d : Dev) : (modifyGen n g f d).dram = d.dram := rfl
@[simp] theorem modifyGen_cores (n g : Nat) (f : KeyGen → KeyGen) (d : Dev) : (modifyGen n g f d).cores = d.cores := rfl
@[simp] theorem modifyGen_lineBufs (n g : Nat) (f : KeyGen → KeyGen) (d : Dev) : (modifyGen n g f d).lineBufs = d.lineBufs := rfl
@[simp] theorem modifyGen_eddy (n g : Nat) (f : KeyGen → KeyGen) (d : Dev) : (modifyGen n g f d).eddy = d.eddy := rfl
@[simp] theorem modifyGen_riffle (n g : Nat) (f : KeyGen → KeyGen) (d : Dev) : (modifyGen n g f d).riffle = d.riffle := rfl
@[simp] theorem modifyGen_txn (n g : Nat) (f : KeyGen → KeyGen) (d : Dev) : (modifyGen n g f d).txn = d.txn := rfl
@[simp] theorem modifyGen_host (n g : Nat) (f : KeyGen → KeyGen) (d : Dev) : (modifyGen n g f d).host = d.host := rfl
@[simp] theorem modifyGen_power (n g : Nat) (f : KeyGen → KeyGen) (d : Dev) : (modifyGen n g f d).power = d.power := rfl
@[simp] theorem modifyGen_fw (n g : Nat) (f : KeyGen → KeyGen) (d : Dev) : (modifyGen n g f d).fw = d.fw := rfl
@[simp] theorem modifyGen_weir (n g : Nat) (f : KeyGen → KeyGen) (d : Dev) : (modifyGen n g f d).weir = d.weir := rfl
@[simp] theorem modifyGen_media (n g : Nat) (f : KeyGen → KeyGen) (d : Dev) : (modifyGen n g f d).media = d.media := rfl
@[simp] theorem modifyGen_sess (n g : Nat) (f : KeyGen → KeyGen) (d : Dev) : (modifyGen n g f d).sess = d.sess := rfl
@[simp] theorem modifyGen_profiles (n g : Nat) (f : KeyGen → KeyGen) (d : Dev) : (modifyGen n g f d).profiles = d.profiles := rfl
@[simp] theorem modifyGen_reqs (n g : Nat) (f : KeyGen → KeyGen) (d : Dev) : (modifyGen n g f d).reqs = d.reqs := rfl
@[simp] theorem modifyGen_rt (n g : Nat) (f : KeyGen → KeyGen) (d : Dev) : (modifyGen n g f d).rt = d.rt := rfl
@[simp] theorem modifyGen_aop (n g : Nat) (f : KeyGen → KeyGen) (d : Dev) : (modifyGen n g f d).aop = d.aop := rfl
@[simp] theorem modifyGen_cas (n g : Nat) (f : KeyGen → KeyGen) (d : Dev) : (modifyGen n g f d).cas = d.cas := rfl

/-! ## modifyEstuary -/

@[simp] theorem modifyEstuary_tm (u : Fin 2) (f : EstuaryUnit → EstuaryUnit) (d : Dev) : (modifyEstuary u f d).tm = d.tm := rfl
@[simp] theorem modifyEstuary_freeCount (u : Fin 2) (f : EstuaryUnit → EstuaryUnit) (d : Dev) : (modifyEstuary u f d).freeCount = d.freeCount := rfl
@[simp] theorem modifyEstuary_out (u : Fin 2) (f : EstuaryUnit → EstuaryUnit) (d : Dev) : (modifyEstuary u f d).out = d.out := rfl
@[simp] theorem modifyEstuary_num (u : Fin 2) (f : EstuaryUnit → EstuaryUnit) (d : Dev) : (modifyEstuary u f d).num = d.num := rfl
@[simp] theorem modifyEstuary_oct (u : Fin 2) (f : EstuaryUnit → EstuaryUnit) (d : Dev) : (modifyEstuary u f d).oct = d.oct := rfl
@[simp] theorem modifyEstuary_wear (u : Fin 2) (f : EstuaryUnit → EstuaryUnit) (d : Dev) : (modifyEstuary u f d).wear = d.wear := rfl
@[simp] theorem modifyEstuary_fuses (u : Fin 2) (f : EstuaryUnit → EstuaryUnit) (d : Dev) : (modifyEstuary u f d).fuses = d.fuses := rfl
@[simp] theorem modifyEstuary_variant (u : Fin 2) (f : EstuaryUnit → EstuaryUnit) (d : Dev) : (modifyEstuary u f d).variant = d.variant := rfl
@[simp] theorem modifyEstuary_errLog (u : Fin 2) (f : EstuaryUnit → EstuaryUnit) (d : Dev) : (modifyEstuary u f d).errLog = d.errLog := rfl
@[simp] theorem modifyEstuary_vioLog (u : Fin 2) (f : EstuaryUnit → EstuaryUnit) (d : Dev) : (modifyEstuary u f d).vioLog = d.vioLog := rfl
@[simp] theorem modifyEstuary_gauge (u : Fin 2) (f : EstuaryUnit → EstuaryUnit) (d : Dev) : (modifyEstuary u f d).gauge = d.gauge := rfl
@[simp] theorem modifyEstuary_mem (u : Fin 2) (f : EstuaryUnit → EstuaryUnit) (d : Dev) : (modifyEstuary u f d).mem = d.mem := rfl
@[simp] theorem modifyEstuary_poisoned (u : Fin 2) (f : EstuaryUnit → EstuaryUnit) (d : Dev) : (modifyEstuary u f d).poisoned = d.poisoned := rfl
@[simp] theorem modifyEstuary_integ (u : Fin 2) (f : EstuaryUnit → EstuaryUnit) (d : Dev) : (modifyEstuary u f d).integ = d.integ := rfl
@[simp] theorem modifyEstuary_dram (u : Fin 2) (f : EstuaryUnit → EstuaryUnit) (d : Dev) : (modifyEstuary u f d).dram = d.dram := rfl
@[simp] theorem modifyEstuary_cores (u : Fin 2) (f : EstuaryUnit → EstuaryUnit) (d : Dev) : (modifyEstuary u f d).cores = d.cores := rfl
@[simp] theorem modifyEstuary_lineBufs (u : Fin 2) (f : EstuaryUnit → EstuaryUnit) (d : Dev) : (modifyEstuary u f d).lineBufs = d.lineBufs := rfl
@[simp] theorem modifyEstuary_eddy (u : Fin 2) (f : EstuaryUnit → EstuaryUnit) (d : Dev) : (modifyEstuary u f d).eddy = d.eddy := rfl
@[simp] theorem modifyEstuary_riffle (u : Fin 2) (f : EstuaryUnit → EstuaryUnit) (d : Dev) : (modifyEstuary u f d).riffle = d.riffle := rfl
@[simp] theorem modifyEstuary_txn (u : Fin 2) (f : EstuaryUnit → EstuaryUnit) (d : Dev) : (modifyEstuary u f d).txn = d.txn := rfl
@[simp] theorem modifyEstuary_host (u : Fin 2) (f : EstuaryUnit → EstuaryUnit) (d : Dev) : (modifyEstuary u f d).host = d.host := rfl
@[simp] theorem modifyEstuary_power (u : Fin 2) (f : EstuaryUnit → EstuaryUnit) (d : Dev) : (modifyEstuary u f d).power = d.power := rfl
@[simp] theorem modifyEstuary_fw (u : Fin 2) (f : EstuaryUnit → EstuaryUnit) (d : Dev) : (modifyEstuary u f d).fw = d.fw := rfl
@[simp] theorem modifyEstuary_weir (u : Fin 2) (f : EstuaryUnit → EstuaryUnit) (d : Dev) : (modifyEstuary u f d).weir = d.weir := rfl
@[simp] theorem modifyEstuary_media (u : Fin 2) (f : EstuaryUnit → EstuaryUnit) (d : Dev) : (modifyEstuary u f d).media = d.media := rfl
@[simp] theorem modifyEstuary_sess (u : Fin 2) (f : EstuaryUnit → EstuaryUnit) (d : Dev) : (modifyEstuary u f d).sess = d.sess := rfl
@[simp] theorem modifyEstuary_profiles (u : Fin 2) (f : EstuaryUnit → EstuaryUnit) (d : Dev) : (modifyEstuary u f d).profiles = d.profiles := rfl
@[simp] theorem modifyEstuary_reqs (u : Fin 2) (f : EstuaryUnit → EstuaryUnit) (d : Dev) : (modifyEstuary u f d).reqs = d.reqs := rfl
@[simp] theorem modifyEstuary_rt (u : Fin 2) (f : EstuaryUnit → EstuaryUnit) (d : Dev) : (modifyEstuary u f d).rt = d.rt := rfl
@[simp] theorem modifyEstuary_aop (u : Fin 2) (f : EstuaryUnit → EstuaryUnit) (d : Dev) : (modifyEstuary u f d).aop = d.aop := rfl
@[simp] theorem modifyEstuary_cas (u : Fin 2) (f : EstuaryUnit → EstuaryUnit) (d : Dev) : (modifyEstuary u f d).cas = d.cas := rfl

/-! ## modifyMedia -/

@[simp] theorem modifyMedia_tm (f : Media → Media) (d : Dev) : (modifyMedia f d).tm = d.tm := rfl
@[simp] theorem modifyMedia_freeCount (f : Media → Media) (d : Dev) : (modifyMedia f d).freeCount = d.freeCount := rfl
@[simp] theorem modifyMedia_out (f : Media → Media) (d : Dev) : (modifyMedia f d).out = d.out := rfl
@[simp] theorem modifyMedia_num (f : Media → Media) (d : Dev) : (modifyMedia f d).num = d.num := rfl
@[simp] theorem modifyMedia_oct (f : Media → Media) (d : Dev) : (modifyMedia f d).oct = d.oct := rfl
@[simp] theorem modifyMedia_wear (f : Media → Media) (d : Dev) : (modifyMedia f d).wear = d.wear := rfl
@[simp] theorem modifyMedia_fuses (f : Media → Media) (d : Dev) : (modifyMedia f d).fuses = d.fuses := rfl
@[simp] theorem modifyMedia_variant (f : Media → Media) (d : Dev) : (modifyMedia f d).variant = d.variant := rfl
@[simp] theorem modifyMedia_errLog (f : Media → Media) (d : Dev) : (modifyMedia f d).errLog = d.errLog := rfl
@[simp] theorem modifyMedia_vioLog (f : Media → Media) (d : Dev) : (modifyMedia f d).vioLog = d.vioLog := rfl
@[simp] theorem modifyMedia_gauge (f : Media → Media) (d : Dev) : (modifyMedia f d).gauge = d.gauge := rfl
@[simp] theorem modifyMedia_mem (f : Media → Media) (d : Dev) : (modifyMedia f d).mem = d.mem := rfl
@[simp] theorem modifyMedia_poisoned (f : Media → Media) (d : Dev) : (modifyMedia f d).poisoned = d.poisoned := rfl
@[simp] theorem modifyMedia_integ (f : Media → Media) (d : Dev) : (modifyMedia f d).integ = d.integ := rfl
@[simp] theorem modifyMedia_dram (f : Media → Media) (d : Dev) : (modifyMedia f d).dram = d.dram := rfl
@[simp] theorem modifyMedia_cores (f : Media → Media) (d : Dev) : (modifyMedia f d).cores = d.cores := rfl
@[simp] theorem modifyMedia_lineBufs (f : Media → Media) (d : Dev) : (modifyMedia f d).lineBufs = d.lineBufs := rfl
@[simp] theorem modifyMedia_eddy (f : Media → Media) (d : Dev) : (modifyMedia f d).eddy = d.eddy := rfl
@[simp] theorem modifyMedia_riffle (f : Media → Media) (d : Dev) : (modifyMedia f d).riffle = d.riffle := rfl
@[simp] theorem modifyMedia_txn (f : Media → Media) (d : Dev) : (modifyMedia f d).txn = d.txn := rfl
@[simp] theorem modifyMedia_host (f : Media → Media) (d : Dev) : (modifyMedia f d).host = d.host := rfl
@[simp] theorem modifyMedia_power (f : Media → Media) (d : Dev) : (modifyMedia f d).power = d.power := rfl
@[simp] theorem modifyMedia_fw (f : Media → Media) (d : Dev) : (modifyMedia f d).fw = d.fw := rfl
@[simp] theorem modifyMedia_weir (f : Media → Media) (d : Dev) : (modifyMedia f d).weir = d.weir := rfl
@[simp] theorem modifyMedia_keys (f : Media → Media) (d : Dev) : (modifyMedia f d).keys = d.keys := rfl
@[simp] theorem modifyMedia_media (f : Media → Media) (d : Dev) : (modifyMedia f d).media = f d.media := rfl
@[simp] theorem modifyMedia_sess (f : Media → Media) (d : Dev) : (modifyMedia f d).sess = d.sess := rfl
@[simp] theorem modifyMedia_profiles (f : Media → Media) (d : Dev) : (modifyMedia f d).profiles = d.profiles := rfl
@[simp] theorem modifyMedia_reqs (f : Media → Media) (d : Dev) : (modifyMedia f d).reqs = d.reqs := rfl
@[simp] theorem modifyMedia_rt (f : Media → Media) (d : Dev) : (modifyMedia f d).rt = d.rt := rfl
@[simp] theorem modifyMedia_aop (f : Media → Media) (d : Dev) : (modifyMedia f d).aop = d.aop := rfl
@[simp] theorem modifyMedia_cas (f : Media → Media) (d : Dev) : (modifyMedia f d).cas = d.cas := rfl

/-! ## modifyWear -/

@[simp] theorem modifyWear_tm (row block : Nat) (f : BlockWear → BlockWear) (d : Dev) : (modifyWear row block f d).tm = d.tm := rfl
@[simp] theorem modifyWear_freeCount (row block : Nat) (f : BlockWear → BlockWear) (d : Dev) : (modifyWear row block f d).freeCount = d.freeCount := rfl
@[simp] theorem modifyWear_out (row block : Nat) (f : BlockWear → BlockWear) (d : Dev) : (modifyWear row block f d).out = d.out := rfl
@[simp] theorem modifyWear_num (row block : Nat) (f : BlockWear → BlockWear) (d : Dev) : (modifyWear row block f d).num = d.num := rfl
@[simp] theorem modifyWear_oct (row block : Nat) (f : BlockWear → BlockWear) (d : Dev) : (modifyWear row block f d).oct = d.oct := rfl
@[simp] theorem modifyWear_wear (row block : Nat) (f : BlockWear → BlockWear) (d : Dev) : (modifyWear row block f d).wear = d.wear := rfl
@[simp] theorem modifyWear_fuses (row block : Nat) (f : BlockWear → BlockWear) (d : Dev) : (modifyWear row block f d).fuses = d.fuses := rfl
@[simp] theorem modifyWear_variant (row block : Nat) (f : BlockWear → BlockWear) (d : Dev) : (modifyWear row block f d).variant = d.variant := rfl
@[simp] theorem modifyWear_errLog (row block : Nat) (f : BlockWear → BlockWear) (d : Dev) : (modifyWear row block f d).errLog = d.errLog := rfl
@[simp] theorem modifyWear_vioLog (row block : Nat) (f : BlockWear → BlockWear) (d : Dev) : (modifyWear row block f d).vioLog = d.vioLog := rfl
@[simp] theorem modifyWear_gauge (row block : Nat) (f : BlockWear → BlockWear) (d : Dev) : (modifyWear row block f d).gauge = d.gauge := rfl
@[simp] theorem modifyWear_mem (row block : Nat) (f : BlockWear → BlockWear) (d : Dev) : (modifyWear row block f d).mem = d.mem := rfl
@[simp] theorem modifyWear_poisoned (row block : Nat) (f : BlockWear → BlockWear) (d : Dev) : (modifyWear row block f d).poisoned = d.poisoned := rfl
@[simp] theorem modifyWear_integ (row block : Nat) (f : BlockWear → BlockWear) (d : Dev) : (modifyWear row block f d).integ = d.integ := rfl
@[simp] theorem modifyWear_dram (row block : Nat) (f : BlockWear → BlockWear) (d : Dev) : (modifyWear row block f d).dram = d.dram := rfl
@[simp] theorem modifyWear_cores (row block : Nat) (f : BlockWear → BlockWear) (d : Dev) : (modifyWear row block f d).cores = d.cores := rfl
@[simp] theorem modifyWear_lineBufs (row block : Nat) (f : BlockWear → BlockWear) (d : Dev) : (modifyWear row block f d).lineBufs = d.lineBufs := rfl
@[simp] theorem modifyWear_eddy (row block : Nat) (f : BlockWear → BlockWear) (d : Dev) : (modifyWear row block f d).eddy = d.eddy := rfl
@[simp] theorem modifyWear_riffle (row block : Nat) (f : BlockWear → BlockWear) (d : Dev) : (modifyWear row block f d).riffle = d.riffle := rfl
@[simp] theorem modifyWear_txn (row block : Nat) (f : BlockWear → BlockWear) (d : Dev) : (modifyWear row block f d).txn = d.txn := rfl
@[simp] theorem modifyWear_host (row block : Nat) (f : BlockWear → BlockWear) (d : Dev) : (modifyWear row block f d).host = d.host := rfl
@[simp] theorem modifyWear_power (row block : Nat) (f : BlockWear → BlockWear) (d : Dev) : (modifyWear row block f d).power = d.power := rfl
@[simp] theorem modifyWear_fw (row block : Nat) (f : BlockWear → BlockWear) (d : Dev) : (modifyWear row block f d).fw = d.fw := rfl
@[simp] theorem modifyWear_weir (row block : Nat) (f : BlockWear → BlockWear) (d : Dev) : (modifyWear row block f d).weir = d.weir := rfl
@[simp] theorem modifyWear_keys (row block : Nat) (f : BlockWear → BlockWear) (d : Dev) : (modifyWear row block f d).keys = d.keys := rfl
@[simp] theorem modifyWear_sess (row block : Nat) (f : BlockWear → BlockWear) (d : Dev) : (modifyWear row block f d).sess = d.sess := rfl
@[simp] theorem modifyWear_profiles (row block : Nat) (f : BlockWear → BlockWear) (d : Dev) : (modifyWear row block f d).profiles = d.profiles := rfl
@[simp] theorem modifyWear_reqs (row block : Nat) (f : BlockWear → BlockWear) (d : Dev) : (modifyWear row block f d).reqs = d.reqs := rfl
@[simp] theorem modifyWear_rt (row block : Nat) (f : BlockWear → BlockWear) (d : Dev) : (modifyWear row block f d).rt = d.rt := rfl
@[simp] theorem modifyWear_aop (row block : Nat) (f : BlockWear → BlockWear) (d : Dev) : (modifyWear row block f d).aop = d.aop := rfl
@[simp] theorem modifyWear_cas (row block : Nat) (f : BlockWear → BlockWear) (d : Dev) : (modifyWear row block f d).cas = d.cas := rfl

/-! ## journal -/

@[simp] theorem journal_tm (r : JRec) (d : Dev) : (journal r d).tm = d.tm := rfl
@[simp] theorem journal_freeCount (r : JRec) (d : Dev) : (journal r d).freeCount = d.freeCount := rfl
@[simp] theorem journal_out (r : JRec) (d : Dev) : (journal r d).out = d.out := rfl
@[simp] theorem journal_num (r : JRec) (d : Dev) : (journal r d).num = d.num := rfl
@[simp] theorem journal_oct (r : JRec) (d : Dev) : (journal r d).oct = d.oct := rfl
@[simp] theorem journal_wear (r : JRec) (d : Dev) : (journal r d).wear = d.wear := rfl
@[simp] theorem journal_fuses (r : JRec) (d : Dev) : (journal r d).fuses = d.fuses := rfl
@[simp] theorem journal_variant (r : JRec) (d : Dev) : (journal r d).variant = d.variant := rfl
@[simp] theorem journal_errLog (r : JRec) (d : Dev) : (journal r d).errLog = d.errLog := rfl
@[simp] theorem journal_vioLog (r : JRec) (d : Dev) : (journal r d).vioLog = d.vioLog := rfl
@[simp] theorem journal_gauge (r : JRec) (d : Dev) : (journal r d).gauge = d.gauge := rfl
@[simp] theorem journal_mem (r : JRec) (d : Dev) : (journal r d).mem = d.mem := rfl
@[simp] theorem journal_poisoned (r : JRec) (d : Dev) : (journal r d).poisoned = d.poisoned := rfl
@[simp] theorem journal_integ (r : JRec) (d : Dev) : (journal r d).integ = d.integ := rfl
@[simp] theorem journal_dram (r : JRec) (d : Dev) : (journal r d).dram = d.dram := rfl
@[simp] theorem journal_cores (r : JRec) (d : Dev) : (journal r d).cores = d.cores := rfl
@[simp] theorem journal_lineBufs (r : JRec) (d : Dev) : (journal r d).lineBufs = d.lineBufs := rfl
@[simp] theorem journal_eddy (r : JRec) (d : Dev) : (journal r d).eddy = d.eddy := rfl
@[simp] theorem journal_riffle (r : JRec) (d : Dev) : (journal r d).riffle = d.riffle := rfl
@[simp] theorem journal_txn (r : JRec) (d : Dev) : (journal r d).txn = d.txn := rfl
@[simp] theorem journal_host (r : JRec) (d : Dev) : (journal r d).host = d.host := rfl
@[simp] theorem journal_power (r : JRec) (d : Dev) : (journal r d).power = d.power := rfl
@[simp] theorem journal_fw (r : JRec) (d : Dev) : (journal r d).fw = d.fw := rfl
@[simp] theorem journal_weir (r : JRec) (d : Dev) : (journal r d).weir = d.weir := rfl
@[simp] theorem journal_keys (r : JRec) (d : Dev) : (journal r d).keys = d.keys := rfl
@[simp] theorem journal_sess (r : JRec) (d : Dev) : (journal r d).sess = d.sess := rfl
@[simp] theorem journal_profiles (r : JRec) (d : Dev) : (journal r d).profiles = d.profiles := rfl
@[simp] theorem journal_reqs (r : JRec) (d : Dev) : (journal r d).reqs = d.reqs := rfl
@[simp] theorem journal_rt (r : JRec) (d : Dev) : (journal r d).rt = d.rt := rfl
@[simp] theorem journal_aop (r : JRec) (d : Dev) : (journal r d).aop = d.aop := rfl
@[simp] theorem journal_cas (r : JRec) (d : Dev) : (journal r d).cas = d.cas := rfl

/-! ## markProgrammed -/

@[simp] theorem markProgrammed_tm (u : Nat) (d : Dev) : (markProgrammed u d).tm = d.tm := rfl
@[simp] theorem markProgrammed_freeCount (u : Nat) (d : Dev) : (markProgrammed u d).freeCount = d.freeCount := rfl
@[simp] theorem markProgrammed_out (u : Nat) (d : Dev) : (markProgrammed u d).out = d.out := rfl
@[simp] theorem markProgrammed_num (u : Nat) (d : Dev) : (markProgrammed u d).num = d.num := rfl
@[simp] theorem markProgrammed_oct (u : Nat) (d : Dev) : (markProgrammed u d).oct = d.oct := rfl
@[simp] theorem markProgrammed_wear (u : Nat) (d : Dev) : (markProgrammed u d).wear = d.wear := rfl
@[simp] theorem markProgrammed_fuses (u : Nat) (d : Dev) : (markProgrammed u d).fuses = d.fuses := rfl
@[simp] theorem markProgrammed_variant (u : Nat) (d : Dev) : (markProgrammed u d).variant = d.variant := rfl
@[simp] theorem markProgrammed_errLog (u : Nat) (d : Dev) : (markProgrammed u d).errLog = d.errLog := rfl
@[simp] theorem markProgrammed_vioLog (u : Nat) (d : Dev) : (markProgrammed u d).vioLog = d.vioLog := rfl
@[simp] theorem markProgrammed_gauge (u : Nat) (d : Dev) : (markProgrammed u d).gauge = d.gauge := rfl
@[simp] theorem markProgrammed_mem (u : Nat) (d : Dev) : (markProgrammed u d).mem = d.mem := rfl
@[simp] theorem markProgrammed_poisoned (u : Nat) (d : Dev) : (markProgrammed u d).poisoned = d.poisoned := rfl
@[simp] theorem markProgrammed_integ (u : Nat) (d : Dev) : (markProgrammed u d).integ = d.integ := rfl
@[simp] theorem markProgrammed_dram (u : Nat) (d : Dev) : (markProgrammed u d).dram = d.dram := rfl
@[simp] theorem markProgrammed_cores (u : Nat) (d : Dev) : (markProgrammed u d).cores = d.cores := rfl
@[simp] theorem markProgrammed_lineBufs (u : Nat) (d : Dev) : (markProgrammed u d).lineBufs = d.lineBufs := rfl
@[simp] theorem markProgrammed_eddy (u : Nat) (d : Dev) : (markProgrammed u d).eddy = d.eddy := rfl
@[simp] theorem markProgrammed_riffle (u : Nat) (d : Dev) : (markProgrammed u d).riffle = d.riffle := rfl
@[simp] theorem markProgrammed_txn (u : Nat) (d : Dev) : (markProgrammed u d).txn = d.txn := rfl
@[simp] theorem markProgrammed_host (u : Nat) (d : Dev) : (markProgrammed u d).host = d.host := rfl
@[simp] theorem markProgrammed_power (u : Nat) (d : Dev) : (markProgrammed u d).power = d.power := rfl
@[simp] theorem markProgrammed_fw (u : Nat) (d : Dev) : (markProgrammed u d).fw = d.fw := rfl
@[simp] theorem markProgrammed_weir (u : Nat) (d : Dev) : (markProgrammed u d).weir = d.weir := rfl
@[simp] theorem markProgrammed_keys (u : Nat) (d : Dev) : (markProgrammed u d).keys = d.keys := rfl
@[simp] theorem markProgrammed_sess (u : Nat) (d : Dev) : (markProgrammed u d).sess = d.sess := rfl
@[simp] theorem markProgrammed_profiles (u : Nat) (d : Dev) : (markProgrammed u d).profiles = d.profiles := rfl
@[simp] theorem markProgrammed_reqs (u : Nat) (d : Dev) : (markProgrammed u d).reqs = d.reqs := rfl
@[simp] theorem markProgrammed_rt (u : Nat) (d : Dev) : (markProgrammed u d).rt = d.rt := rfl
@[simp] theorem markProgrammed_aop (u : Nat) (d : Dev) : (markProgrammed u d).aop = d.aop := rfl
@[simp] theorem markProgrammed_cas (u : Nat) (d : Dev) : (markProgrammed u d).cas = d.cas := rfl

/-! ## modifySess -/

@[simp] theorem modifySess_tm (f : Sessions → Sessions) (d : Dev) : (modifySess f d).tm = d.tm := rfl
@[simp] theorem modifySess_freeCount (f : Sessions → Sessions) (d : Dev) : (modifySess f d).freeCount = d.freeCount := rfl
@[simp] theorem modifySess_out (f : Sessions → Sessions) (d : Dev) : (modifySess f d).out = d.out := rfl
@[simp] theorem modifySess_num (f : Sessions → Sessions) (d : Dev) : (modifySess f d).num = d.num := rfl
@[simp] theorem modifySess_oct (f : Sessions → Sessions) (d : Dev) : (modifySess f d).oct = d.oct := rfl
@[simp] theorem modifySess_wear (f : Sessions → Sessions) (d : Dev) : (modifySess f d).wear = d.wear := rfl
@[simp] theorem modifySess_fuses (f : Sessions → Sessions) (d : Dev) : (modifySess f d).fuses = d.fuses := rfl
@[simp] theorem modifySess_variant (f : Sessions → Sessions) (d : Dev) : (modifySess f d).variant = d.variant := rfl
@[simp] theorem modifySess_errLog (f : Sessions → Sessions) (d : Dev) : (modifySess f d).errLog = d.errLog := rfl
@[simp] theorem modifySess_vioLog (f : Sessions → Sessions) (d : Dev) : (modifySess f d).vioLog = d.vioLog := rfl
@[simp] theorem modifySess_gauge (f : Sessions → Sessions) (d : Dev) : (modifySess f d).gauge = d.gauge := rfl
@[simp] theorem modifySess_mem (f : Sessions → Sessions) (d : Dev) : (modifySess f d).mem = d.mem := rfl
@[simp] theorem modifySess_poisoned (f : Sessions → Sessions) (d : Dev) : (modifySess f d).poisoned = d.poisoned := rfl
@[simp] theorem modifySess_integ (f : Sessions → Sessions) (d : Dev) : (modifySess f d).integ = d.integ := rfl
@[simp] theorem modifySess_dram (f : Sessions → Sessions) (d : Dev) : (modifySess f d).dram = d.dram := rfl
@[simp] theorem modifySess_cores (f : Sessions → Sessions) (d : Dev) : (modifySess f d).cores = d.cores := rfl
@[simp] theorem modifySess_lineBufs (f : Sessions → Sessions) (d : Dev) : (modifySess f d).lineBufs = d.lineBufs := rfl
@[simp] theorem modifySess_eddy (f : Sessions → Sessions) (d : Dev) : (modifySess f d).eddy = d.eddy := rfl
@[simp] theorem modifySess_riffle (f : Sessions → Sessions) (d : Dev) : (modifySess f d).riffle = d.riffle := rfl
@[simp] theorem modifySess_txn (f : Sessions → Sessions) (d : Dev) : (modifySess f d).txn = d.txn := rfl
@[simp] theorem modifySess_host (f : Sessions → Sessions) (d : Dev) : (modifySess f d).host = d.host := rfl
@[simp] theorem modifySess_power (f : Sessions → Sessions) (d : Dev) : (modifySess f d).power = d.power := rfl
@[simp] theorem modifySess_fw (f : Sessions → Sessions) (d : Dev) : (modifySess f d).fw = d.fw := rfl
@[simp] theorem modifySess_weir (f : Sessions → Sessions) (d : Dev) : (modifySess f d).weir = d.weir := rfl
@[simp] theorem modifySess_keys (f : Sessions → Sessions) (d : Dev) : (modifySess f d).keys = d.keys := rfl
@[simp] theorem modifySess_media (f : Sessions → Sessions) (d : Dev) : (modifySess f d).media = d.media := rfl
@[simp] theorem modifySess_sess (f : Sessions → Sessions) (d : Dev) : (modifySess f d).sess = f d.sess := rfl
@[simp] theorem modifySess_profiles (f : Sessions → Sessions) (d : Dev) : (modifySess f d).profiles = d.profiles := rfl
@[simp] theorem modifySess_reqs (f : Sessions → Sessions) (d : Dev) : (modifySess f d).reqs = d.reqs := rfl
@[simp] theorem modifySess_rt (f : Sessions → Sessions) (d : Dev) : (modifySess f d).rt = d.rt := rfl
@[simp] theorem modifySess_aop (f : Sessions → Sessions) (d : Dev) : (modifySess f d).aop = d.aop := rfl
@[simp] theorem modifySess_cas (f : Sessions → Sessions) (d : Dev) : (modifySess f d).cas = d.cas := rfl

/-! ## modifyReq -/

@[simp] theorem modifyReq_tm (tag : Nat) (f : Req → Req) (d : Dev) : (modifyReq tag f d).tm = d.tm := rfl
@[simp] theorem modifyReq_freeCount (tag : Nat) (f : Req → Req) (d : Dev) : (modifyReq tag f d).freeCount = d.freeCount := rfl
@[simp] theorem modifyReq_out (tag : Nat) (f : Req → Req) (d : Dev) : (modifyReq tag f d).out = d.out := rfl
@[simp] theorem modifyReq_num (tag : Nat) (f : Req → Req) (d : Dev) : (modifyReq tag f d).num = d.num := rfl
@[simp] theorem modifyReq_oct (tag : Nat) (f : Req → Req) (d : Dev) : (modifyReq tag f d).oct = d.oct := rfl
@[simp] theorem modifyReq_wear (tag : Nat) (f : Req → Req) (d : Dev) : (modifyReq tag f d).wear = d.wear := rfl
@[simp] theorem modifyReq_fuses (tag : Nat) (f : Req → Req) (d : Dev) : (modifyReq tag f d).fuses = d.fuses := rfl
@[simp] theorem modifyReq_variant (tag : Nat) (f : Req → Req) (d : Dev) : (modifyReq tag f d).variant = d.variant := rfl
@[simp] theorem modifyReq_errLog (tag : Nat) (f : Req → Req) (d : Dev) : (modifyReq tag f d).errLog = d.errLog := rfl
@[simp] theorem modifyReq_vioLog (tag : Nat) (f : Req → Req) (d : Dev) : (modifyReq tag f d).vioLog = d.vioLog := rfl
@[simp] theorem modifyReq_gauge (tag : Nat) (f : Req → Req) (d : Dev) : (modifyReq tag f d).gauge = d.gauge := rfl
@[simp] theorem modifyReq_mem (tag : Nat) (f : Req → Req) (d : Dev) : (modifyReq tag f d).mem = d.mem := rfl
@[simp] theorem modifyReq_poisoned (tag : Nat) (f : Req → Req) (d : Dev) : (modifyReq tag f d).poisoned = d.poisoned := rfl
@[simp] theorem modifyReq_integ (tag : Nat) (f : Req → Req) (d : Dev) : (modifyReq tag f d).integ = d.integ := rfl
@[simp] theorem modifyReq_dram (tag : Nat) (f : Req → Req) (d : Dev) : (modifyReq tag f d).dram = d.dram := rfl
@[simp] theorem modifyReq_cores (tag : Nat) (f : Req → Req) (d : Dev) : (modifyReq tag f d).cores = d.cores := rfl
@[simp] theorem modifyReq_lineBufs (tag : Nat) (f : Req → Req) (d : Dev) : (modifyReq tag f d).lineBufs = d.lineBufs := rfl
@[simp] theorem modifyReq_eddy (tag : Nat) (f : Req → Req) (d : Dev) : (modifyReq tag f d).eddy = d.eddy := rfl
@[simp] theorem modifyReq_riffle (tag : Nat) (f : Req → Req) (d : Dev) : (modifyReq tag f d).riffle = d.riffle := rfl
@[simp] theorem modifyReq_txn (tag : Nat) (f : Req → Req) (d : Dev) : (modifyReq tag f d).txn = d.txn := rfl
@[simp] theorem modifyReq_host (tag : Nat) (f : Req → Req) (d : Dev) : (modifyReq tag f d).host = d.host := rfl
@[simp] theorem modifyReq_power (tag : Nat) (f : Req → Req) (d : Dev) : (modifyReq tag f d).power = d.power := rfl
@[simp] theorem modifyReq_fw (tag : Nat) (f : Req → Req) (d : Dev) : (modifyReq tag f d).fw = d.fw := rfl
@[simp] theorem modifyReq_weir (tag : Nat) (f : Req → Req) (d : Dev) : (modifyReq tag f d).weir = d.weir := rfl
@[simp] theorem modifyReq_keys (tag : Nat) (f : Req → Req) (d : Dev) : (modifyReq tag f d).keys = d.keys := rfl
@[simp] theorem modifyReq_media (tag : Nat) (f : Req → Req) (d : Dev) : (modifyReq tag f d).media = d.media := rfl
@[simp] theorem modifyReq_sess (tag : Nat) (f : Req → Req) (d : Dev) : (modifyReq tag f d).sess = d.sess := rfl
@[simp] theorem modifyReq_profiles (tag : Nat) (f : Req → Req) (d : Dev) : (modifyReq tag f d).profiles = d.profiles := rfl
@[simp] theorem modifyReq_reqs (tag : Nat) (f : Req → Req) (d : Dev) : (modifyReq tag f d).reqs = mapUpdate d.reqs tag f := rfl
@[simp] theorem modifyReq_rt (tag : Nat) (f : Req → Req) (d : Dev) : (modifyReq tag f d).rt = d.rt := rfl
@[simp] theorem modifyReq_aop (tag : Nat) (f : Req → Req) (d : Dev) : (modifyReq tag f d).aop = d.aop := rfl
@[simp] theorem modifyReq_cas (tag : Nat) (f : Req → Req) (d : Dev) : (modifyReq tag f d).cas = d.cas := rfl

/-! ## modifyRt -/

@[simp] theorem modifyRt_tm (f : Runtime → Runtime) (d : Dev) : (modifyRt f d).tm = d.tm := rfl
@[simp] theorem modifyRt_freeCount (f : Runtime → Runtime) (d : Dev) : (modifyRt f d).freeCount = d.freeCount := rfl
@[simp] theorem modifyRt_out (f : Runtime → Runtime) (d : Dev) : (modifyRt f d).out = d.out := rfl
@[simp] theorem modifyRt_num (f : Runtime → Runtime) (d : Dev) : (modifyRt f d).num = d.num := rfl
@[simp] theorem modifyRt_oct (f : Runtime → Runtime) (d : Dev) : (modifyRt f d).oct = d.oct := rfl
@[simp] theorem modifyRt_wear (f : Runtime → Runtime) (d : Dev) : (modifyRt f d).wear = d.wear := rfl
@[simp] theorem modifyRt_fuses (f : Runtime → Runtime) (d : Dev) : (modifyRt f d).fuses = d.fuses := rfl
@[simp] theorem modifyRt_variant (f : Runtime → Runtime) (d : Dev) : (modifyRt f d).variant = d.variant := rfl
@[simp] theorem modifyRt_errLog (f : Runtime → Runtime) (d : Dev) : (modifyRt f d).errLog = d.errLog := rfl
@[simp] theorem modifyRt_vioLog (f : Runtime → Runtime) (d : Dev) : (modifyRt f d).vioLog = d.vioLog := rfl
@[simp] theorem modifyRt_gauge (f : Runtime → Runtime) (d : Dev) : (modifyRt f d).gauge = d.gauge := rfl
@[simp] theorem modifyRt_mem (f : Runtime → Runtime) (d : Dev) : (modifyRt f d).mem = d.mem := rfl
@[simp] theorem modifyRt_poisoned (f : Runtime → Runtime) (d : Dev) : (modifyRt f d).poisoned = d.poisoned := rfl
@[simp] theorem modifyRt_integ (f : Runtime → Runtime) (d : Dev) : (modifyRt f d).integ = d.integ := rfl
@[simp] theorem modifyRt_dram (f : Runtime → Runtime) (d : Dev) : (modifyRt f d).dram = d.dram := rfl
@[simp] theorem modifyRt_cores (f : Runtime → Runtime) (d : Dev) : (modifyRt f d).cores = d.cores := rfl
@[simp] theorem modifyRt_lineBufs (f : Runtime → Runtime) (d : Dev) : (modifyRt f d).lineBufs = d.lineBufs := rfl
@[simp] theorem modifyRt_eddy (f : Runtime → Runtime) (d : Dev) : (modifyRt f d).eddy = d.eddy := rfl
@[simp] theorem modifyRt_riffle (f : Runtime → Runtime) (d : Dev) : (modifyRt f d).riffle = d.riffle := rfl
@[simp] theorem modifyRt_txn (f : Runtime → Runtime) (d : Dev) : (modifyRt f d).txn = d.txn := rfl
@[simp] theorem modifyRt_host (f : Runtime → Runtime) (d : Dev) : (modifyRt f d).host = d.host := rfl
@[simp] theorem modifyRt_power (f : Runtime → Runtime) (d : Dev) : (modifyRt f d).power = d.power := rfl
@[simp] theorem modifyRt_fw (f : Runtime → Runtime) (d : Dev) : (modifyRt f d).fw = d.fw := rfl
@[simp] theorem modifyRt_weir (f : Runtime → Runtime) (d : Dev) : (modifyRt f d).weir = d.weir := rfl
@[simp] theorem modifyRt_keys (f : Runtime → Runtime) (d : Dev) : (modifyRt f d).keys = d.keys := rfl
@[simp] theorem modifyRt_media (f : Runtime → Runtime) (d : Dev) : (modifyRt f d).media = d.media := rfl
@[simp] theorem modifyRt_sess (f : Runtime → Runtime) (d : Dev) : (modifyRt f d).sess = d.sess := rfl
@[simp] theorem modifyRt_profiles (f : Runtime → Runtime) (d : Dev) : (modifyRt f d).profiles = d.profiles := rfl
@[simp] theorem modifyRt_reqs (f : Runtime → Runtime) (d : Dev) : (modifyRt f d).reqs = d.reqs := rfl
@[simp] theorem modifyRt_rt (f : Runtime → Runtime) (d : Dev) : (modifyRt f d).rt = f d.rt := rfl
@[simp] theorem modifyRt_aop (f : Runtime → Runtime) (d : Dev) : (modifyRt f d).aop = d.aop := rfl
@[simp] theorem modifyRt_cas (f : Runtime → Runtime) (d : Dev) : (modifyRt f d).cas = d.cas := rfl

/-! ## modifyProg -/

@[simp] theorem modifyProg_tm (n : Nat) (f : ProgSlot → ProgSlot) (d : Dev) : (modifyProg n f d).tm = d.tm := rfl
@[simp] theorem modifyProg_freeCount (n : Nat) (f : ProgSlot → ProgSlot) (d : Dev) : (modifyProg n f d).freeCount = d.freeCount := rfl
@[simp] theorem modifyProg_out (n : Nat) (f : ProgSlot → ProgSlot) (d : Dev) : (modifyProg n f d).out = d.out := rfl
@[simp] theorem modifyProg_num (n : Nat) (f : ProgSlot → ProgSlot) (d : Dev) : (modifyProg n f d).num = d.num := rfl
@[simp] theorem modifyProg_oct (n : Nat) (f : ProgSlot → ProgSlot) (d : Dev) : (modifyProg n f d).oct = d.oct := rfl
@[simp] theorem modifyProg_wear (n : Nat) (f : ProgSlot → ProgSlot) (d : Dev) : (modifyProg n f d).wear = d.wear := rfl
@[simp] theorem modifyProg_fuses (n : Nat) (f : ProgSlot → ProgSlot) (d : Dev) : (modifyProg n f d).fuses = d.fuses := rfl
@[simp] theorem modifyProg_variant (n : Nat) (f : ProgSlot → ProgSlot) (d : Dev) : (modifyProg n f d).variant = d.variant := rfl
@[simp] theorem modifyProg_errLog (n : Nat) (f : ProgSlot → ProgSlot) (d : Dev) : (modifyProg n f d).errLog = d.errLog := rfl
@[simp] theorem modifyProg_vioLog (n : Nat) (f : ProgSlot → ProgSlot) (d : Dev) : (modifyProg n f d).vioLog = d.vioLog := rfl
@[simp] theorem modifyProg_gauge (n : Nat) (f : ProgSlot → ProgSlot) (d : Dev) : (modifyProg n f d).gauge = d.gauge := rfl
@[simp] theorem modifyProg_mem (n : Nat) (f : ProgSlot → ProgSlot) (d : Dev) : (modifyProg n f d).mem = d.mem := rfl
@[simp] theorem modifyProg_poisoned (n : Nat) (f : ProgSlot → ProgSlot) (d : Dev) : (modifyProg n f d).poisoned = d.poisoned := rfl
@[simp] theorem modifyProg_integ (n : Nat) (f : ProgSlot → ProgSlot) (d : Dev) : (modifyProg n f d).integ = d.integ := rfl
@[simp] theorem modifyProg_dram (n : Nat) (f : ProgSlot → ProgSlot) (d : Dev) : (modifyProg n f d).dram = d.dram := rfl
@[simp] theorem modifyProg_cores (n : Nat) (f : ProgSlot → ProgSlot) (d : Dev) : (modifyProg n f d).cores = d.cores := rfl
@[simp] theorem modifyProg_lineBufs (n : Nat) (f : ProgSlot → ProgSlot) (d : Dev) : (modifyProg n f d).lineBufs = d.lineBufs := rfl
@[simp] theorem modifyProg_eddy (n : Nat) (f : ProgSlot → ProgSlot) (d : Dev) : (modifyProg n f d).eddy = d.eddy := rfl
@[simp] theorem modifyProg_riffle (n : Nat) (f : ProgSlot → ProgSlot) (d : Dev) : (modifyProg n f d).riffle = d.riffle := rfl
@[simp] theorem modifyProg_txn (n : Nat) (f : ProgSlot → ProgSlot) (d : Dev) : (modifyProg n f d).txn = d.txn := rfl
@[simp] theorem modifyProg_host (n : Nat) (f : ProgSlot → ProgSlot) (d : Dev) : (modifyProg n f d).host = d.host := rfl
@[simp] theorem modifyProg_power (n : Nat) (f : ProgSlot → ProgSlot) (d : Dev) : (modifyProg n f d).power = d.power := rfl
@[simp] theorem modifyProg_fw (n : Nat) (f : ProgSlot → ProgSlot) (d : Dev) : (modifyProg n f d).fw = d.fw := rfl
@[simp] theorem modifyProg_weir (n : Nat) (f : ProgSlot → ProgSlot) (d : Dev) : (modifyProg n f d).weir = d.weir := rfl
@[simp] theorem modifyProg_keys (n : Nat) (f : ProgSlot → ProgSlot) (d : Dev) : (modifyProg n f d).keys = d.keys := rfl
@[simp] theorem modifyProg_media (n : Nat) (f : ProgSlot → ProgSlot) (d : Dev) : (modifyProg n f d).media = d.media := rfl
@[simp] theorem modifyProg_sess (n : Nat) (f : ProgSlot → ProgSlot) (d : Dev) : (modifyProg n f d).sess = d.sess := rfl
@[simp] theorem modifyProg_profiles (n : Nat) (f : ProgSlot → ProgSlot) (d : Dev) : (modifyProg n f d).profiles = d.profiles := rfl
@[simp] theorem modifyProg_reqs (n : Nat) (f : ProgSlot → ProgSlot) (d : Dev) : (modifyProg n f d).reqs = d.reqs := rfl
@[simp] theorem modifyProg_aop (n : Nat) (f : ProgSlot → ProgSlot) (d : Dev) : (modifyProg n f d).aop = d.aop := rfl
@[simp] theorem modifyProg_cas (n : Nat) (f : ProgSlot → ProgSlot) (d : Dev) : (modifyProg n f d).cas = d.cas := rfl

/-! ## modifyRiffle -/

@[simp] theorem modifyRiffle_tm (i : Fin 2) (f : RiffleUnit → RiffleUnit) (d : Dev) : (modifyRiffle i f d).tm = d.tm := rfl
@[simp] theorem modifyRiffle_freeCount (i : Fin 2) (f : RiffleUnit → RiffleUnit) (d : Dev) : (modifyRiffle i f d).freeCount = d.freeCount := rfl
@[simp] theorem modifyRiffle_out (i : Fin 2) (f : RiffleUnit → RiffleUnit) (d : Dev) : (modifyRiffle i f d).out = d.out := rfl
@[simp] theorem modifyRiffle_num (i : Fin 2) (f : RiffleUnit → RiffleUnit) (d : Dev) : (modifyRiffle i f d).num = d.num := rfl
@[simp] theorem modifyRiffle_oct (i : Fin 2) (f : RiffleUnit → RiffleUnit) (d : Dev) : (modifyRiffle i f d).oct = d.oct := rfl
@[simp] theorem modifyRiffle_wear (i : Fin 2) (f : RiffleUnit → RiffleUnit) (d : Dev) : (modifyRiffle i f d).wear = d.wear := rfl
@[simp] theorem modifyRiffle_fuses (i : Fin 2) (f : RiffleUnit → RiffleUnit) (d : Dev) : (modifyRiffle i f d).fuses = d.fuses := rfl
@[simp] theorem modifyRiffle_variant (i : Fin 2) (f : RiffleUnit → RiffleUnit) (d : Dev) : (modifyRiffle i f d).variant = d.variant := rfl
@[simp] theorem modifyRiffle_errLog (i : Fin 2) (f : RiffleUnit → RiffleUnit) (d : Dev) : (modifyRiffle i f d).errLog = d.errLog := rfl
@[simp] theorem modifyRiffle_vioLog (i : Fin 2) (f : RiffleUnit → RiffleUnit) (d : Dev) : (modifyRiffle i f d).vioLog = d.vioLog := rfl
@[simp] theorem modifyRiffle_gauge (i : Fin 2) (f : RiffleUnit → RiffleUnit) (d : Dev) : (modifyRiffle i f d).gauge = d.gauge := rfl
@[simp] theorem modifyRiffle_mem (i : Fin 2) (f : RiffleUnit → RiffleUnit) (d : Dev) : (modifyRiffle i f d).mem = d.mem := rfl
@[simp] theorem modifyRiffle_poisoned (i : Fin 2) (f : RiffleUnit → RiffleUnit) (d : Dev) : (modifyRiffle i f d).poisoned = d.poisoned := rfl
@[simp] theorem modifyRiffle_integ (i : Fin 2) (f : RiffleUnit → RiffleUnit) (d : Dev) : (modifyRiffle i f d).integ = d.integ := rfl
@[simp] theorem modifyRiffle_dram (i : Fin 2) (f : RiffleUnit → RiffleUnit) (d : Dev) : (modifyRiffle i f d).dram = d.dram := rfl
@[simp] theorem modifyRiffle_cores (i : Fin 2) (f : RiffleUnit → RiffleUnit) (d : Dev) : (modifyRiffle i f d).cores = d.cores := rfl
@[simp] theorem modifyRiffle_lineBufs (i : Fin 2) (f : RiffleUnit → RiffleUnit) (d : Dev) : (modifyRiffle i f d).lineBufs = d.lineBufs := rfl
@[simp] theorem modifyRiffle_eddy (i : Fin 2) (f : RiffleUnit → RiffleUnit) (d : Dev) : (modifyRiffle i f d).eddy = d.eddy := rfl
@[simp] theorem modifyRiffle_riffle (i : Fin 2) (f : RiffleUnit → RiffleUnit) (d : Dev) : (modifyRiffle i f d).riffle = d.riffle.set i (f d.riffle[i]) := rfl
@[simp] theorem modifyRiffle_txn (i : Fin 2) (f : RiffleUnit → RiffleUnit) (d : Dev) : (modifyRiffle i f d).txn = d.txn := rfl
@[simp] theorem modifyRiffle_host (i : Fin 2) (f : RiffleUnit → RiffleUnit) (d : Dev) : (modifyRiffle i f d).host = d.host := rfl
@[simp] theorem modifyRiffle_power (i : Fin 2) (f : RiffleUnit → RiffleUnit) (d : Dev) : (modifyRiffle i f d).power = d.power := rfl
@[simp] theorem modifyRiffle_fw (i : Fin 2) (f : RiffleUnit → RiffleUnit) (d : Dev) : (modifyRiffle i f d).fw = d.fw := rfl
@[simp] theorem modifyRiffle_weir (i : Fin 2) (f : RiffleUnit → RiffleUnit) (d : Dev) : (modifyRiffle i f d).weir = d.weir := rfl
@[simp] theorem modifyRiffle_keys (i : Fin 2) (f : RiffleUnit → RiffleUnit) (d : Dev) : (modifyRiffle i f d).keys = d.keys := rfl
@[simp] theorem modifyRiffle_media (i : Fin 2) (f : RiffleUnit → RiffleUnit) (d : Dev) : (modifyRiffle i f d).media = d.media := rfl
@[simp] theorem modifyRiffle_sess (i : Fin 2) (f : RiffleUnit → RiffleUnit) (d : Dev) : (modifyRiffle i f d).sess = d.sess := rfl
@[simp] theorem modifyRiffle_profiles (i : Fin 2) (f : RiffleUnit → RiffleUnit) (d : Dev) : (modifyRiffle i f d).profiles = d.profiles := rfl
@[simp] theorem modifyRiffle_reqs (i : Fin 2) (f : RiffleUnit → RiffleUnit) (d : Dev) : (modifyRiffle i f d).reqs = d.reqs := rfl
@[simp] theorem modifyRiffle_rt (i : Fin 2) (f : RiffleUnit → RiffleUnit) (d : Dev) : (modifyRiffle i f d).rt = d.rt := rfl
@[simp] theorem modifyRiffle_aop (i : Fin 2) (f : RiffleUnit → RiffleUnit) (d : Dev) : (modifyRiffle i f d).aop = d.aop := rfl
@[simp] theorem modifyRiffle_cas (i : Fin 2) (f : RiffleUnit → RiffleUnit) (d : Dev) : (modifyRiffle i f d).cas = d.cas := rfl

/-! ## modifyFw -/

@[simp] theorem modifyFw_tm (f : Firmware → Firmware) (d : Dev) : (modifyFw f d).tm = d.tm := rfl
@[simp] theorem modifyFw_freeCount (f : Firmware → Firmware) (d : Dev) : (modifyFw f d).freeCount = d.freeCount := rfl
@[simp] theorem modifyFw_out (f : Firmware → Firmware) (d : Dev) : (modifyFw f d).out = d.out := rfl
@[simp] theorem modifyFw_num (f : Firmware → Firmware) (d : Dev) : (modifyFw f d).num = d.num := rfl
@[simp] theorem modifyFw_oct (f : Firmware → Firmware) (d : Dev) : (modifyFw f d).oct = d.oct := rfl
@[simp] theorem modifyFw_wear (f : Firmware → Firmware) (d : Dev) : (modifyFw f d).wear = d.wear := rfl
@[simp] theorem modifyFw_fuses (f : Firmware → Firmware) (d : Dev) : (modifyFw f d).fuses = d.fuses := rfl
@[simp] theorem modifyFw_variant (f : Firmware → Firmware) (d : Dev) : (modifyFw f d).variant = d.variant := rfl
@[simp] theorem modifyFw_errLog (f : Firmware → Firmware) (d : Dev) : (modifyFw f d).errLog = d.errLog := rfl
@[simp] theorem modifyFw_vioLog (f : Firmware → Firmware) (d : Dev) : (modifyFw f d).vioLog = d.vioLog := rfl
@[simp] theorem modifyFw_gauge (f : Firmware → Firmware) (d : Dev) : (modifyFw f d).gauge = d.gauge := rfl
@[simp] theorem modifyFw_mem (f : Firmware → Firmware) (d : Dev) : (modifyFw f d).mem = d.mem := rfl
@[simp] theorem modifyFw_poisoned (f : Firmware → Firmware) (d : Dev) : (modifyFw f d).poisoned = d.poisoned := rfl
@[simp] theorem modifyFw_integ (f : Firmware → Firmware) (d : Dev) : (modifyFw f d).integ = d.integ := rfl
@[simp] theorem modifyFw_dram (f : Firmware → Firmware) (d : Dev) : (modifyFw f d).dram = d.dram := rfl
@[simp] theorem modifyFw_cores (f : Firmware → Firmware) (d : Dev) : (modifyFw f d).cores = d.cores := rfl
@[simp] theorem modifyFw_lineBufs (f : Firmware → Firmware) (d : Dev) : (modifyFw f d).lineBufs = d.lineBufs := rfl
@[simp] theorem modifyFw_eddy (f : Firmware → Firmware) (d : Dev) : (modifyFw f d).eddy = d.eddy := rfl
@[simp] theorem modifyFw_riffle (f : Firmware → Firmware) (d : Dev) : (modifyFw f d).riffle = d.riffle := rfl
@[simp] theorem modifyFw_txn (f : Firmware → Firmware) (d : Dev) : (modifyFw f d).txn = d.txn := rfl
@[simp] theorem modifyFw_host (f : Firmware → Firmware) (d : Dev) : (modifyFw f d).host = d.host := rfl
@[simp] theorem modifyFw_power (f : Firmware → Firmware) (d : Dev) : (modifyFw f d).power = d.power := rfl
@[simp] theorem modifyFw_fw (f : Firmware → Firmware) (d : Dev) : (modifyFw f d).fw = f d.fw := rfl
@[simp] theorem modifyFw_weir (f : Firmware → Firmware) (d : Dev) : (modifyFw f d).weir = d.weir := rfl
@[simp] theorem modifyFw_keys (f : Firmware → Firmware) (d : Dev) : (modifyFw f d).keys = d.keys := rfl
@[simp] theorem modifyFw_media (f : Firmware → Firmware) (d : Dev) : (modifyFw f d).media = d.media := rfl
@[simp] theorem modifyFw_sess (f : Firmware → Firmware) (d : Dev) : (modifyFw f d).sess = d.sess := rfl
@[simp] theorem modifyFw_profiles (f : Firmware → Firmware) (d : Dev) : (modifyFw f d).profiles = d.profiles := rfl
@[simp] theorem modifyFw_reqs (f : Firmware → Firmware) (d : Dev) : (modifyFw f d).reqs = d.reqs := rfl
@[simp] theorem modifyFw_rt (f : Firmware → Firmware) (d : Dev) : (modifyFw f d).rt = d.rt := rfl
@[simp] theorem modifyFw_aop (f : Firmware → Firmware) (d : Dev) : (modifyFw f d).aop = d.aop := rfl
@[simp] theorem modifyFw_cas (f : Firmware → Firmware) (d : Dev) : (modifyFw f d).cas = d.cas := rfl

/-! ## modifyAop -/

@[simp] theorem modifyAop_tm (f : Aop → Aop) (d : Dev) : (modifyAop f d).tm = d.tm := rfl
@[simp] theorem modifyAop_freeCount (f : Aop → Aop) (d : Dev) : (modifyAop f d).freeCount = d.freeCount := rfl
@[simp] theorem modifyAop_out (f : Aop → Aop) (d : Dev) : (modifyAop f d).out = d.out := rfl
@[simp] theorem modifyAop_num (f : Aop → Aop) (d : Dev) : (modifyAop f d).num = d.num := rfl
@[simp] theorem modifyAop_oct (f : Aop → Aop) (d : Dev) : (modifyAop f d).oct = d.oct := rfl
@[simp] theorem modifyAop_wear (f : Aop → Aop) (d : Dev) : (modifyAop f d).wear = d.wear := rfl
@[simp] theorem modifyAop_fuses (f : Aop → Aop) (d : Dev) : (modifyAop f d).fuses = d.fuses := rfl
@[simp] theorem modifyAop_variant (f : Aop → Aop) (d : Dev) : (modifyAop f d).variant = d.variant := rfl
@[simp] theorem modifyAop_errLog (f : Aop → Aop) (d : Dev) : (modifyAop f d).errLog = d.errLog := rfl
@[simp] theorem modifyAop_vioLog (f : Aop → Aop) (d : Dev) : (modifyAop f d).vioLog = d.vioLog := rfl
@[simp] theorem modifyAop_gauge (f : Aop → Aop) (d : Dev) : (modifyAop f d).gauge = d.gauge := rfl
@[simp] theorem modifyAop_mem (f : Aop → Aop) (d : Dev) : (modifyAop f d).mem = d.mem := rfl
@[simp] theorem modifyAop_poisoned (f : Aop → Aop) (d : Dev) : (modifyAop f d).poisoned = d.poisoned := rfl
@[simp] theorem modifyAop_integ (f : Aop → Aop) (d : Dev) : (modifyAop f d).integ = d.integ := rfl
@[simp] theorem modifyAop_dram (f : Aop → Aop) (d : Dev) : (modifyAop f d).dram = d.dram := rfl
@[simp] theorem modifyAop_cores (f : Aop → Aop) (d : Dev) : (modifyAop f d).cores = d.cores := rfl
@[simp] theorem modifyAop_lineBufs (f : Aop → Aop) (d : Dev) : (modifyAop f d).lineBufs = d.lineBufs := rfl
@[simp] theorem modifyAop_eddy (f : Aop → Aop) (d : Dev) : (modifyAop f d).eddy = d.eddy := rfl
@[simp] theorem modifyAop_riffle (f : Aop → Aop) (d : Dev) : (modifyAop f d).riffle = d.riffle := rfl
@[simp] theorem modifyAop_txn (f : Aop → Aop) (d : Dev) : (modifyAop f d).txn = d.txn := rfl
@[simp] theorem modifyAop_host (f : Aop → Aop) (d : Dev) : (modifyAop f d).host = d.host := rfl
@[simp] theorem modifyAop_power (f : Aop → Aop) (d : Dev) : (modifyAop f d).power = d.power := rfl
@[simp] theorem modifyAop_fw (f : Aop → Aop) (d : Dev) : (modifyAop f d).fw = d.fw := rfl
@[simp] theorem modifyAop_weir (f : Aop → Aop) (d : Dev) : (modifyAop f d).weir = d.weir := rfl
@[simp] theorem modifyAop_keys (f : Aop → Aop) (d : Dev) : (modifyAop f d).keys = d.keys := rfl
@[simp] theorem modifyAop_media (f : Aop → Aop) (d : Dev) : (modifyAop f d).media = d.media := rfl
@[simp] theorem modifyAop_sess (f : Aop → Aop) (d : Dev) : (modifyAop f d).sess = d.sess := rfl
@[simp] theorem modifyAop_profiles (f : Aop → Aop) (d : Dev) : (modifyAop f d).profiles = d.profiles := rfl
@[simp] theorem modifyAop_reqs (f : Aop → Aop) (d : Dev) : (modifyAop f d).reqs = d.reqs := rfl
@[simp] theorem modifyAop_rt (f : Aop → Aop) (d : Dev) : (modifyAop f d).rt = d.rt := rfl
@[simp] theorem modifyAop_aop (f : Aop → Aop) (d : Dev) : (modifyAop f d).aop = f d.aop := rfl
@[simp] theorem modifyAop_cas (f : Aop → Aop) (d : Dev) : (modifyAop f d).cas = d.cas := rfl

/-! ## modifyCas -/

@[simp] theorem modifyCas_tm (f : Cascade → Cascade) (d : Dev) : (modifyCas f d).tm = d.tm := rfl
@[simp] theorem modifyCas_freeCount (f : Cascade → Cascade) (d : Dev) : (modifyCas f d).freeCount = d.freeCount := rfl
@[simp] theorem modifyCas_out (f : Cascade → Cascade) (d : Dev) : (modifyCas f d).out = d.out := rfl
@[simp] theorem modifyCas_num (f : Cascade → Cascade) (d : Dev) : (modifyCas f d).num = d.num := rfl
@[simp] theorem modifyCas_oct (f : Cascade → Cascade) (d : Dev) : (modifyCas f d).oct = d.oct := rfl
@[simp] theorem modifyCas_wear (f : Cascade → Cascade) (d : Dev) : (modifyCas f d).wear = d.wear := rfl
@[simp] theorem modifyCas_fuses (f : Cascade → Cascade) (d : Dev) : (modifyCas f d).fuses = d.fuses := rfl
@[simp] theorem modifyCas_variant (f : Cascade → Cascade) (d : Dev) : (modifyCas f d).variant = d.variant := rfl
@[simp] theorem modifyCas_errLog (f : Cascade → Cascade) (d : Dev) : (modifyCas f d).errLog = d.errLog := rfl
@[simp] theorem modifyCas_vioLog (f : Cascade → Cascade) (d : Dev) : (modifyCas f d).vioLog = d.vioLog := rfl
@[simp] theorem modifyCas_gauge (f : Cascade → Cascade) (d : Dev) : (modifyCas f d).gauge = d.gauge := rfl
@[simp] theorem modifyCas_mem (f : Cascade → Cascade) (d : Dev) : (modifyCas f d).mem = d.mem := rfl
@[simp] theorem modifyCas_poisoned (f : Cascade → Cascade) (d : Dev) : (modifyCas f d).poisoned = d.poisoned := rfl
@[simp] theorem modifyCas_integ (f : Cascade → Cascade) (d : Dev) : (modifyCas f d).integ = d.integ := rfl
@[simp] theorem modifyCas_dram (f : Cascade → Cascade) (d : Dev) : (modifyCas f d).dram = d.dram := rfl
@[simp] theorem modifyCas_cores (f : Cascade → Cascade) (d : Dev) : (modifyCas f d).cores = d.cores := rfl
@[simp] theorem modifyCas_lineBufs (f : Cascade → Cascade) (d : Dev) : (modifyCas f d).lineBufs = d.lineBufs := rfl
@[simp] theorem modifyCas_eddy (f : Cascade → Cascade) (d : Dev) : (modifyCas f d).eddy = d.eddy := rfl
@[simp] theorem modifyCas_riffle (f : Cascade → Cascade) (d : Dev) : (modifyCas f d).riffle = d.riffle := rfl
@[simp] theorem modifyCas_txn (f : Cascade → Cascade) (d : Dev) : (modifyCas f d).txn = d.txn := rfl
@[simp] theorem modifyCas_host (f : Cascade → Cascade) (d : Dev) : (modifyCas f d).host = d.host := rfl
@[simp] theorem modifyCas_power (f : Cascade → Cascade) (d : Dev) : (modifyCas f d).power = d.power := rfl
@[simp] theorem modifyCas_fw (f : Cascade → Cascade) (d : Dev) : (modifyCas f d).fw = d.fw := rfl
@[simp] theorem modifyCas_weir (f : Cascade → Cascade) (d : Dev) : (modifyCas f d).weir = d.weir := rfl
@[simp] theorem modifyCas_keys (f : Cascade → Cascade) (d : Dev) : (modifyCas f d).keys = d.keys := rfl
@[simp] theorem modifyCas_media (f : Cascade → Cascade) (d : Dev) : (modifyCas f d).media = d.media := rfl
@[simp] theorem modifyCas_sess (f : Cascade → Cascade) (d : Dev) : (modifyCas f d).sess = d.sess := rfl
@[simp] theorem modifyCas_profiles (f : Cascade → Cascade) (d : Dev) : (modifyCas f d).profiles = d.profiles := rfl
@[simp] theorem modifyCas_reqs (f : Cascade → Cascade) (d : Dev) : (modifyCas f d).reqs = d.reqs := rfl
@[simp] theorem modifyCas_rt (f : Cascade → Cascade) (d : Dev) : (modifyCas f d).rt = d.rt := rfl
@[simp] theorem modifyCas_aop (f : Cascade → Cascade) (d : Dev) : (modifyCas f d).aop = d.aop := rfl
@[simp] theorem modifyCas_cas (f : Cascade → Cascade) (d : Dev) : (modifyCas f d).cas = f d.cas := rfl

/-! ## modifyCfl -/

@[simp] theorem modifyCfl_tm (p : Fin 2) (f : CflPort → CflPort) (d : Dev) : (modifyCfl p f d).tm = d.tm := rfl
@[simp] theorem modifyCfl_freeCount (p : Fin 2) (f : CflPort → CflPort) (d : Dev) : (modifyCfl p f d).freeCount = d.freeCount := rfl
@[simp] theorem modifyCfl_out (p : Fin 2) (f : CflPort → CflPort) (d : Dev) : (modifyCfl p f d).out = d.out := rfl
@[simp] theorem modifyCfl_num (p : Fin 2) (f : CflPort → CflPort) (d : Dev) : (modifyCfl p f d).num = d.num := rfl
@[simp] theorem modifyCfl_oct (p : Fin 2) (f : CflPort → CflPort) (d : Dev) : (modifyCfl p f d).oct = d.oct := rfl
@[simp] theorem modifyCfl_wear (p : Fin 2) (f : CflPort → CflPort) (d : Dev) : (modifyCfl p f d).wear = d.wear := rfl
@[simp] theorem modifyCfl_fuses (p : Fin 2) (f : CflPort → CflPort) (d : Dev) : (modifyCfl p f d).fuses = d.fuses := rfl
@[simp] theorem modifyCfl_variant (p : Fin 2) (f : CflPort → CflPort) (d : Dev) : (modifyCfl p f d).variant = d.variant := rfl
@[simp] theorem modifyCfl_errLog (p : Fin 2) (f : CflPort → CflPort) (d : Dev) : (modifyCfl p f d).errLog = d.errLog := rfl
@[simp] theorem modifyCfl_vioLog (p : Fin 2) (f : CflPort → CflPort) (d : Dev) : (modifyCfl p f d).vioLog = d.vioLog := rfl
@[simp] theorem modifyCfl_gauge (p : Fin 2) (f : CflPort → CflPort) (d : Dev) : (modifyCfl p f d).gauge = d.gauge := rfl
@[simp] theorem modifyCfl_mem (p : Fin 2) (f : CflPort → CflPort) (d : Dev) : (modifyCfl p f d).mem = d.mem := rfl
@[simp] theorem modifyCfl_poisoned (p : Fin 2) (f : CflPort → CflPort) (d : Dev) : (modifyCfl p f d).poisoned = d.poisoned := rfl
@[simp] theorem modifyCfl_integ (p : Fin 2) (f : CflPort → CflPort) (d : Dev) : (modifyCfl p f d).integ = d.integ := rfl
@[simp] theorem modifyCfl_dram (p : Fin 2) (f : CflPort → CflPort) (d : Dev) : (modifyCfl p f d).dram = d.dram := rfl
@[simp] theorem modifyCfl_cores (p : Fin 2) (f : CflPort → CflPort) (d : Dev) : (modifyCfl p f d).cores = d.cores := rfl
@[simp] theorem modifyCfl_lineBufs (p : Fin 2) (f : CflPort → CflPort) (d : Dev) : (modifyCfl p f d).lineBufs = d.lineBufs := rfl
@[simp] theorem modifyCfl_eddy (p : Fin 2) (f : CflPort → CflPort) (d : Dev) : (modifyCfl p f d).eddy = d.eddy := rfl
@[simp] theorem modifyCfl_riffle (p : Fin 2) (f : CflPort → CflPort) (d : Dev) : (modifyCfl p f d).riffle = d.riffle := rfl
@[simp] theorem modifyCfl_txn (p : Fin 2) (f : CflPort → CflPort) (d : Dev) : (modifyCfl p f d).txn = d.txn := rfl
@[simp] theorem modifyCfl_host (p : Fin 2) (f : CflPort → CflPort) (d : Dev) : (modifyCfl p f d).host = d.host := rfl
@[simp] theorem modifyCfl_power (p : Fin 2) (f : CflPort → CflPort) (d : Dev) : (modifyCfl p f d).power = d.power := rfl
@[simp] theorem modifyCfl_fw (p : Fin 2) (f : CflPort → CflPort) (d : Dev) : (modifyCfl p f d).fw = d.fw := rfl
@[simp] theorem modifyCfl_weir (p : Fin 2) (f : CflPort → CflPort) (d : Dev) : (modifyCfl p f d).weir = d.weir := rfl
@[simp] theorem modifyCfl_keys (p : Fin 2) (f : CflPort → CflPort) (d : Dev) : (modifyCfl p f d).keys = d.keys := rfl
@[simp] theorem modifyCfl_media (p : Fin 2) (f : CflPort → CflPort) (d : Dev) : (modifyCfl p f d).media = d.media := rfl
@[simp] theorem modifyCfl_sess (p : Fin 2) (f : CflPort → CflPort) (d : Dev) : (modifyCfl p f d).sess = d.sess := rfl
@[simp] theorem modifyCfl_profiles (p : Fin 2) (f : CflPort → CflPort) (d : Dev) : (modifyCfl p f d).profiles = d.profiles := rfl
@[simp] theorem modifyCfl_reqs (p : Fin 2) (f : CflPort → CflPort) (d : Dev) : (modifyCfl p f d).reqs = d.reqs := rfl
@[simp] theorem modifyCfl_rt (p : Fin 2) (f : CflPort → CflPort) (d : Dev) : (modifyCfl p f d).rt = d.rt := rfl
@[simp] theorem modifyCfl_aop (p : Fin 2) (f : CflPort → CflPort) (d : Dev) : (modifyCfl p f d).aop = d.aop := rfl
@[simp] theorem modifyCfl_cas (p : Fin 2) (f : CflPort → CflPort) (d : Dev) : (modifyCfl p f d).cas = { d.cas with ports := d.cas.ports.set p (f d.cas.ports[p]) } := rfl

/-! ## sendFlit -/

@[simp] theorem sendFlit_tm (kind m : Nat) (fields : List Nat) (d : Dev) : (sendFlit kind m fields d).tm = d.tm := rfl
@[simp] theorem sendFlit_freeCount (kind m : Nat) (fields : List Nat) (d : Dev) : (sendFlit kind m fields d).freeCount = d.freeCount := rfl
@[simp] theorem sendFlit_num (kind m : Nat) (fields : List Nat) (d : Dev) : (sendFlit kind m fields d).num = d.num := rfl
@[simp] theorem sendFlit_oct (kind m : Nat) (fields : List Nat) (d : Dev) : (sendFlit kind m fields d).oct = d.oct := rfl
@[simp] theorem sendFlit_wear (kind m : Nat) (fields : List Nat) (d : Dev) : (sendFlit kind m fields d).wear = d.wear := rfl
@[simp] theorem sendFlit_fuses (kind m : Nat) (fields : List Nat) (d : Dev) : (sendFlit kind m fields d).fuses = d.fuses := rfl
@[simp] theorem sendFlit_variant (kind m : Nat) (fields : List Nat) (d : Dev) : (sendFlit kind m fields d).variant = d.variant := rfl
@[simp] theorem sendFlit_errLog (kind m : Nat) (fields : List Nat) (d : Dev) : (sendFlit kind m fields d).errLog = d.errLog := rfl
@[simp] theorem sendFlit_vioLog (kind m : Nat) (fields : List Nat) (d : Dev) : (sendFlit kind m fields d).vioLog = d.vioLog := rfl
@[simp] theorem sendFlit_gauge (kind m : Nat) (fields : List Nat) (d : Dev) : (sendFlit kind m fields d).gauge = d.gauge := rfl
@[simp] theorem sendFlit_mem (kind m : Nat) (fields : List Nat) (d : Dev) : (sendFlit kind m fields d).mem = d.mem := rfl
@[simp] theorem sendFlit_poisoned (kind m : Nat) (fields : List Nat) (d : Dev) : (sendFlit kind m fields d).poisoned = d.poisoned := rfl
@[simp] theorem sendFlit_integ (kind m : Nat) (fields : List Nat) (d : Dev) : (sendFlit kind m fields d).integ = d.integ := rfl
@[simp] theorem sendFlit_dram (kind m : Nat) (fields : List Nat) (d : Dev) : (sendFlit kind m fields d).dram = d.dram := rfl
@[simp] theorem sendFlit_cores (kind m : Nat) (fields : List Nat) (d : Dev) : (sendFlit kind m fields d).cores = d.cores := rfl
@[simp] theorem sendFlit_lineBufs (kind m : Nat) (fields : List Nat) (d : Dev) : (sendFlit kind m fields d).lineBufs = d.lineBufs := rfl
@[simp] theorem sendFlit_eddy (kind m : Nat) (fields : List Nat) (d : Dev) : (sendFlit kind m fields d).eddy = d.eddy := rfl
@[simp] theorem sendFlit_riffle (kind m : Nat) (fields : List Nat) (d : Dev) : (sendFlit kind m fields d).riffle = d.riffle := rfl
@[simp] theorem sendFlit_txn (kind m : Nat) (fields : List Nat) (d : Dev) : (sendFlit kind m fields d).txn = d.txn := rfl
@[simp] theorem sendFlit_host (kind m : Nat) (fields : List Nat) (d : Dev) : (sendFlit kind m fields d).host = d.host := rfl
@[simp] theorem sendFlit_power (kind m : Nat) (fields : List Nat) (d : Dev) : (sendFlit kind m fields d).power = d.power := rfl
@[simp] theorem sendFlit_fw (kind m : Nat) (fields : List Nat) (d : Dev) : (sendFlit kind m fields d).fw = d.fw := rfl
@[simp] theorem sendFlit_weir (kind m : Nat) (fields : List Nat) (d : Dev) : (sendFlit kind m fields d).weir = d.weir := rfl
@[simp] theorem sendFlit_keys (kind m : Nat) (fields : List Nat) (d : Dev) : (sendFlit kind m fields d).keys = d.keys := rfl
@[simp] theorem sendFlit_media (kind m : Nat) (fields : List Nat) (d : Dev) : (sendFlit kind m fields d).media = d.media := rfl
@[simp] theorem sendFlit_sess (kind m : Nat) (fields : List Nat) (d : Dev) : (sendFlit kind m fields d).sess = d.sess := rfl
@[simp] theorem sendFlit_profiles (kind m : Nat) (fields : List Nat) (d : Dev) : (sendFlit kind m fields d).profiles = d.profiles := rfl
@[simp] theorem sendFlit_reqs (kind m : Nat) (fields : List Nat) (d : Dev) : (sendFlit kind m fields d).reqs = d.reqs := rfl
@[simp] theorem sendFlit_rt (kind m : Nat) (fields : List Nat) (d : Dev) : (sendFlit kind m fields d).rt = d.rt := rfl
@[simp] theorem sendFlit_aop (kind m : Nat) (fields : List Nat) (d : Dev) : (sendFlit kind m fields d).aop = d.aop := rfl

/-! ## sendJoin -/

@[simp] theorem sendJoin_tm (p : Fin 2) (d : Dev) : (sendJoin p d).tm = d.tm := rfl
@[simp] theorem sendJoin_freeCount (p : Fin 2) (d : Dev) : (sendJoin p d).freeCount = d.freeCount := rfl
@[simp] theorem sendJoin_num (p : Fin 2) (d : Dev) : (sendJoin p d).num = d.num := rfl
@[simp] theorem sendJoin_oct (p : Fin 2) (d : Dev) : (sendJoin p d).oct = d.oct := rfl
@[simp] theorem sendJoin_wear (p : Fin 2) (d : Dev) : (sendJoin p d).wear = d.wear := rfl
@[simp] theorem sendJoin_fuses (p : Fin 2) (d : Dev) : (sendJoin p d).fuses = d.fuses := rfl
@[simp] theorem sendJoin_variant (p : Fin 2) (d : Dev) : (sendJoin p d).variant = d.variant := rfl
@[simp] theorem sendJoin_errLog (p : Fin 2) (d : Dev) : (sendJoin p d).errLog = d.errLog := rfl
@[simp] theorem sendJoin_vioLog (p : Fin 2) (d : Dev) : (sendJoin p d).vioLog = d.vioLog := rfl
@[simp] theorem sendJoin_gauge (p : Fin 2) (d : Dev) : (sendJoin p d).gauge = d.gauge := rfl
@[simp] theorem sendJoin_mem (p : Fin 2) (d : Dev) : (sendJoin p d).mem = d.mem := rfl
@[simp] theorem sendJoin_poisoned (p : Fin 2) (d : Dev) : (sendJoin p d).poisoned = d.poisoned := rfl
@[simp] theorem sendJoin_integ (p : Fin 2) (d : Dev) : (sendJoin p d).integ = d.integ := rfl
@[simp] theorem sendJoin_dram (p : Fin 2) (d : Dev) : (sendJoin p d).dram = d.dram := rfl
@[simp] theorem sendJoin_cores (p : Fin 2) (d : Dev) : (sendJoin p d).cores = d.cores := rfl
@[simp] theorem sendJoin_lineBufs (p : Fin 2) (d : Dev) : (sendJoin p d).lineBufs = d.lineBufs := rfl
@[simp] theorem sendJoin_eddy (p : Fin 2) (d : Dev) : (sendJoin p d).eddy = d.eddy := rfl
@[simp] theorem sendJoin_riffle (p : Fin 2) (d : Dev) : (sendJoin p d).riffle = d.riffle := rfl
@[simp] theorem sendJoin_txn (p : Fin 2) (d : Dev) : (sendJoin p d).txn = d.txn := rfl
@[simp] theorem sendJoin_host (p : Fin 2) (d : Dev) : (sendJoin p d).host = d.host := rfl
@[simp] theorem sendJoin_power (p : Fin 2) (d : Dev) : (sendJoin p d).power = d.power := rfl
@[simp] theorem sendJoin_fw (p : Fin 2) (d : Dev) : (sendJoin p d).fw = d.fw := rfl
@[simp] theorem sendJoin_weir (p : Fin 2) (d : Dev) : (sendJoin p d).weir = d.weir := rfl
@[simp] theorem sendJoin_keys (p : Fin 2) (d : Dev) : (sendJoin p d).keys = d.keys := rfl
@[simp] theorem sendJoin_media (p : Fin 2) (d : Dev) : (sendJoin p d).media = d.media := rfl
@[simp] theorem sendJoin_sess (p : Fin 2) (d : Dev) : (sendJoin p d).sess = d.sess := rfl
@[simp] theorem sendJoin_profiles (p : Fin 2) (d : Dev) : (sendJoin p d).profiles = d.profiles := rfl
@[simp] theorem sendJoin_reqs (p : Fin 2) (d : Dev) : (sendJoin p d).reqs = d.reqs := rfl
@[simp] theorem sendJoin_rt (p : Fin 2) (d : Dev) : (sendJoin p d).rt = d.rt := rfl
@[simp] theorem sendJoin_aop (p : Fin 2) (d : Dev) : (sendJoin p d).aop = d.aop := rfl

/-! ## endForward -/

@[simp] theorem endForward_tm (t : Nat) (d : Dev) : (endForward t d).tm = d.tm := rfl
@[simp] theorem endForward_freeCount (t : Nat) (d : Dev) : (endForward t d).freeCount = d.freeCount := rfl
@[simp] theorem endForward_out (t : Nat) (d : Dev) : (endForward t d).out = d.out := rfl
@[simp] theorem endForward_num (t : Nat) (d : Dev) : (endForward t d).num = d.num := rfl
@[simp] theorem endForward_oct (t : Nat) (d : Dev) : (endForward t d).oct = d.oct := rfl
@[simp] theorem endForward_wear (t : Nat) (d : Dev) : (endForward t d).wear = d.wear := rfl
@[simp] theorem endForward_fuses (t : Nat) (d : Dev) : (endForward t d).fuses = d.fuses := rfl
@[simp] theorem endForward_variant (t : Nat) (d : Dev) : (endForward t d).variant = d.variant := rfl
@[simp] theorem endForward_errLog (t : Nat) (d : Dev) : (endForward t d).errLog = d.errLog := rfl
@[simp] theorem endForward_vioLog (t : Nat) (d : Dev) : (endForward t d).vioLog = d.vioLog := rfl
@[simp] theorem endForward_gauge (t : Nat) (d : Dev) : (endForward t d).gauge = d.gauge := rfl
@[simp] theorem endForward_mem (t : Nat) (d : Dev) : (endForward t d).mem = d.mem := rfl
@[simp] theorem endForward_poisoned (t : Nat) (d : Dev) : (endForward t d).poisoned = d.poisoned := rfl
@[simp] theorem endForward_integ (t : Nat) (d : Dev) : (endForward t d).integ = d.integ := rfl
@[simp] theorem endForward_dram (t : Nat) (d : Dev) : (endForward t d).dram = d.dram := rfl
@[simp] theorem endForward_cores (t : Nat) (d : Dev) : (endForward t d).cores = d.cores := rfl
@[simp] theorem endForward_lineBufs (t : Nat) (d : Dev) : (endForward t d).lineBufs = d.lineBufs := rfl
@[simp] theorem endForward_eddy (t : Nat) (d : Dev) : (endForward t d).eddy = d.eddy := rfl
@[simp] theorem endForward_riffle (t : Nat) (d : Dev) : (endForward t d).riffle = d.riffle := rfl
@[simp] theorem endForward_txn (t : Nat) (d : Dev) : (endForward t d).txn = d.txn := rfl
@[simp] theorem endForward_host (t : Nat) (d : Dev) : (endForward t d).host = d.host := rfl
@[simp] theorem endForward_power (t : Nat) (d : Dev) : (endForward t d).power = d.power := rfl
@[simp] theorem endForward_fw (t : Nat) (d : Dev) : (endForward t d).fw = d.fw := rfl
@[simp] theorem endForward_weir (t : Nat) (d : Dev) : (endForward t d).weir = d.weir := rfl
@[simp] theorem endForward_keys (t : Nat) (d : Dev) : (endForward t d).keys = d.keys := rfl
@[simp] theorem endForward_media (t : Nat) (d : Dev) : (endForward t d).media = d.media := rfl
@[simp] theorem endForward_sess (t : Nat) (d : Dev) : (endForward t d).sess = d.sess := rfl
@[simp] theorem endForward_profiles (t : Nat) (d : Dev) : (endForward t d).profiles = d.profiles := rfl
@[simp] theorem endForward_reqs (t : Nat) (d : Dev) : (endForward t d).reqs = d.reqs := rfl
@[simp] theorem endForward_rt (t : Nat) (d : Dev) : (endForward t d).rt = d.rt := rfl
@[simp] theorem endForward_aop (t : Nat) (d : Dev) : (endForward t d).aop = d.aop := rfl
@[simp] theorem endForward_cas (t : Nat) (d : Dev) : (endForward t d).cas = { d.cas with forwards := mapErase d.cas.forwards t } := rfl

/-! ## Reading back -/

@[simp] theorem objNum_setNum (k v : Nat) (d : Dev) : objNum (setNum k v d) k = v := by simp [objNum, mapGetD, mapGet_set]

theorem objNum_setNum_ne {j k : Nat} (v : Nat) (d : Dev) (h : j ≠ k) : objNum (setNum k v d) j = objNum d j := by
  simp [objNum, mapGetD, mapGet_set_ne _ _ _ _ h]

@[simp] theorem objNum_bump (k : Nat) (d : Dev) : objNum (bump k d) k = objNum d k + 1 := objNum_setNum _ _ _

theorem objNum_bump_ne {j k : Nat} (d : Dev) (h : j ≠ k) : objNum (bump k d) j = objNum d j := objNum_setNum_ne _ _ h

@[simp] theorem modifyCore_cores_same (n : CoreId) (f : FxCore → FxCore) (d : Dev) : (modifyCore n f d).cores[n] = f d.cores[n] := by
  simp [modifyCore]

theorem modifyCore_cores_other {m n : CoreId} (f : FxCore → FxCore) (d : Dev) (h : m ≠ n) : (modifyCore n f d).cores[m] = d.cores[m] := by
  have h' : n.val ≠ m.val := fun e => h (Fin.ext e.symm)
  simp [modifyCore, Vector.getElem_set_ne _ _ h']

@[simp] theorem modifyPort_get (p : Fin 2) (f : Port → Port) (d : Dev) : (modifyPort p f d).host.ports[p] = f d.host.ports[p] := by
  simp [modifyPort]

@[simp] theorem modifyCfl_get (p : Fin 2) (f : CflPort → CflPort) (d : Dev) : (modifyCfl p f d).cas.ports[p] = f d.cas.ports[p] := by
  simp [modifyCfl, modifyCas]

@[simp] theorem modifySub_get (i : Fin 4) (f : SubChannel → SubChannel) (d : Dev) : (modifySub i f d).dram.sub[i] = f d.dram.sub[i] := by
  simp [modifySub]

theorem modifyReq_get (tag tag' : Nat) (f : Req → Req) (d : Dev) :
    mapGet (modifyReq tag f d).reqs tag' = if tag' = tag then (mapGet d.reqs tag').map f else mapGet d.reqs tag' := mapGet_update _ _ _ _

theorem keySlot_modify (n : Nat) (f : KeySlot → KeySlot) (d : Dev) : keySlot (modifySlot n f d) n = f (keySlot d n) := by
  simp [keySlot, modifySlot, modifyKeys, mapGetD, mapGet_set]

theorem keySlot_modify_ne {m n : Nat} (f : KeySlot → KeySlot) (d : Dev) (h : m ≠ n) : keySlot (modifySlot n f d) m = keySlot d m := by
  simp [keySlot, modifySlot, modifyKeys, mapGetD, mapGet_set_ne _ _ _ _ h]

theorem getCtrl_modify_self {id : Nat} {f : Ctrl → Ctrl} {d : Dev} {k : Ctrl} (h : getCtrl d id = some k) : getCtrl (modifyCtrl id f d) id = some (f k) := by
  rw [getCtrl_modify, if_pos rfl, h]
  rfl

end Sys2Proof.Machine
end

