-- ==== Sys2Proof/Tests/Slice0.lean ====
section
/-! SUPPORT. Tests/Slice0.lean: the model's own tests: small steps with results worked out from the spec, ill-formed operands that the check
refuses, and for every statement states and operands that meet its hypotheses. -/
namespace Sys2Proof.Tests
open Sys2Proof Sys2Proof.Machine

-- One theorem at a time: side by side they take more memory than the check allows.
set_option Elab.async false

/-- Core 0 executes at its reset vector. -/
def fxState : State := { State.reset with dev := modifyCore 0 (fun c => { c with run := .running }) State.reset.dev }

/-- Supervisor core 32 executes at its reset vector. -/
def supState : State := { State.reset with dev := modifyCore 32 (fun c => { c with run := .running }) State.reset.dev }

/-- The part in service with PF 1 on a live link: an admin queue pair and I/O queue pair 5 with entries waiting, two events requested, session
1 open with two Stream Reads in flight, content slot 4 and storage slot 6 loaded. -/
def hostState : State :=
  { State.reset with
    dev := { State.reset.dev with
      tm := 5000000000
      power := { State.reset.dev.power with phase := .ready }
      media := { State.reset.dev.media with ready := true, state := 2 }
      host := { State.reset.dev.host with
        ports := State.reset.dev.host.ports.set 0 { speed := 5, width := 8, perst := false, training := true, totalVfs := 128 }
        ctrls := [(1, { enabled := true, ready := true, aers := [77, 78]
                        sqs := [(0, { cq := 0, size := 32, tail := 4 }), (5, { cq := 5, size := 64, tail := 8 })]
                        cqs := [(0, { size := 32 }), (5, { size := 64, vector := 1 })] })] }
      keys := { State.reset.dev.keys with
        slots := [(4, { allocated := true, type := 1, owner := 1, lastGen := 7, current := some
                          { gen := 7, key := List.replicate 16 0x5A, kid := [], iv := [], explicitIv := false, kcv := 9 } }),
                  (6, { allocated := true, type := 0, owner := 1, lastGen := 2, current := some
                          { gen := 2, key := List.replicate 64 0x33, kid := [], iv := [], explicitIv := false, kcv := 8 } })] }
      sess := { tab := [(1, { inc := 7, ctrl := 1, content := some 4, transport := none, label := 5, idle := 3, inFlight := 2, opened := 1000 })]
                incs := [(1, 7)], freed := [2], fresh := 3 } } }

/-- An I/O command of PF 1 on queue 5. -/
def hostCmd (cdw10 : Nat) : Cmd := { now := 5000000100, ctrl := 1, sq := 5, cid := 33, cdw10 := cdw10 }

/-- Session Open with content slot 4, unlabelled. -/
def openCmd : Cmd := hostCmd 0x8004

/-! ### Ill-formed operands: each check of WellFormed.lean refuses one -/

/-- A well-formed submission queue entry. -/
def okCmd : Cmd := { now := 0, ctrl := 1, sq := 0, cid := 0 }

theorem test_wf_accepts :
    ([.bootImageVerify 5, .flush okCmd, .txnBegin (.other (.aop 3 9) 0), .unitDecode 1 2 (.retry 15), .fxLdw 0 3 4 1 0 .clean, .fxStd 0 2 4 0 0,
      .undefinedInstruction 0 0xFFFFFFFF, .join 0 (.request 7 2 3 true) 9] : List Instr).all Instr.wf = true := by decide

theorem test_wf_refuses_entry_fields :
    ([.flush { okCmd with now := 2 ^ 64 }, .flush { okCmd with ctrl := 65536 }, .flush { okCmd with sq := 65536 }, .flush { okCmd with cid := 65536 },
      .flush { okCmd with opc := 256 }, .flush { okCmd with fuse := 4 }, .flush { okCmd with psdt := 4 }, .flush { okCmd with nsid := 2 ^ 32 },
      .flush { okCmd with cdw2 := 2 ^ 32 }, .flush { okCmd with cdw3 := 2 ^ 32 }, .flush { okCmd with cdw10 := 2 ^ 32 },
      .flush { okCmd with cdw11 := 2 ^ 32 }, .flush { okCmd with cdw12 := 2 ^ 32 }, .flush { okCmd with cdw13 := 2 ^ 32 },
      .flush { okCmd with cdw14 := 2 ^ 32 }, .flush { okCmd with cdw15 := 2 ^ 32 }] : List Instr).all (fun i => !i.wf) = true := by decide

theorem test_wf_refuses_paths :
    ([.txnBegin (.other (.inband 1) 0), .txnBegin (.other (.aop 4 0) 0), .txnBegin (.other (.aop 0 (2 ^ 128)) 0), .txnBegin (.other (.mctp 256) 0),
      .txnBegin (.other .aopUnauth (2 ^ 64)), .txnBegin (.inband { okCmd with cid := 65536 }),
      .registerWrite 0 (.object (.other (.inband 1) 0) 0 0 0 0 true [] []), .registerWrite 0 (.object (.inband okCmd) 65536 0 0 0 true [] []),
      .registerWrite 0 (.object (.inband okCmd) 0 256 0 0 true [] []), .registerWrite 0 (.bar 1 3 0 [] false), .registerWrite 0 (.config 65536 .ats true),
      .registerWrite 0 (.mctpEid 256), .barRead 0 1 1 0 4, .barRead 0 1 0 0 0, .barRead 0 1 0 0 9] : List Instr).all (fun i => !i.wf) = true := by
  decide

theorem test_wf_refuses_host_operands :
    ([.start 0 8 false false false false false false [], .linkUp 0 6 4 0, .linkUp 0 5 3 0, .numvfsWrite 0 65536 0, .sqTailDoorbell 0 1 0 (2 ^ 32) [],
      .sqTailDoorbell 0 1 65536 0 [], .sqTailDoorbell 0 1 0 0 [{ okCmd with cid := 65536 }], .pageRequestResponse 1 0 16, .deviceSelfTest okCmd 16,
      .formatNvm okCmd 64 0, .formatNvm okCmd 0 8, .sanitize okCmd 8, .namespaceCreate okCmd (.host [65536]), .namespaceCreate okCmd (.master 0 65536),
      .generationBusyTimeout 8192 0, .cascadeStatus okCmd [(8, 0, 0, 0)], .springheadAlarm 0 256, .wakeLatch 0 4 0 0 0 [] true,
      .dozeEntry 0 256, .slumberCommitPoint 0 256] : List Instr).all (fun i => !i.wf) = true := by decide

theorem test_wf_refuses_data_operands :
    ([.nvmRead okCmd (2 ^ 64) 0 [] 0 none, .nvmRead okCmd 0 65536 [] 0 none, .nvmRead okCmd 0 0 [(0, .retry 16)] 0 none,
      .nvmRead okCmd 0 0 [(0, .retry 0)] 0 none, .nvmRead okCmd 0 0 [(0, .soft 4)] 0 none, .nvmWrite okCmd 0 0 [] 3,
      .datasetManagement okCmd true [(2 ^ 64, 0)], .reservationRegister okCmd 8 0 0 0 false, .reservationRegister okCmd 0 4 0 0 false,
      .reservationAcquire okCmd 0 0 0 256, .reservationRelease okCmd 8 0 0, .kvExist okCmd (List.replicate 17 0), .kvList okCmd [] (2 ^ 32),
      .executeProgram okCmd 65536 0, .memoryRangeSetManagement okCmd true 0 [(2 ^ 32, 0, 0)], .slmRead okCmd (2 ^ 64) 0 [],
      .memoryCopy okCmd 0 [(0, 0, 2 ^ 32)] [], .putDataArrival 0 0 3 [], .lookupWindowResult 0 1 1024 [], .eddyParityScan 0 [65536],
      .eddyEntryRewrite 65536 0, .eddySearch 0 (2 ^ 32) [], .riffleCheck 0 0 (2 ^ 32)] : List Instr).all (fun i => !i.wf) = true := by decide

theorem test_wf_refuses_unit_operands :
    ([.sessionLabelSearch (.inband okCmd) (2 ^ 64), .partitionLayoutWrite (.inband okCmd) 0 (2 ^ 32), .invocationDispatch 32 0, .programTimeLimit 33 0,
      .haltedCoreReset 32 0, .estuaryReturnToService (.inband okCmd) 256, .aopFrame 0 { src := 0, srcPort := 65536, dst := 0, dstPort := 0, hop := 64, fragment := false, checksumOk := true, payload := [] } true [],
      .aopFrame 0 { src := 2 ^ 128, srcPort := 0, dst := 0, dstPort := 0, hop := 64, fragment := false, checksumOk := true, payload := [] } true [],
      .mctpObjectRequest 0 256 true 0 0 [] [], .lifeRecordUpdate 0 (2 ^ 32) 0, .rfmIssue 0 64 0, .dramRetrainStep 0 (List.replicate 65 true) 0 0,
      .dredgePassDone 0 [] 0 [(0, .soft 1)] [], .gaugeCounterWrite (.inband okCmd) 0 (2 ^ 64), .gaugeSourceWrite (.inband okCmd) 0 65536 [],
      .bandEraseDone 0 [64] 0, .mapWordRebuilt (2 ^ 32) 0 0, .metadataRemirror (.firmware 3) true 0, .metadataRemirror (.profile 64) true 0,
      .metadataRemirror (.program 32) true 0, .metadataRemirror (.mapChunk 0 (2 ^ 32)) true 0, .metadataRemirror (.journalPage [(0, 2 ^ 32)]) true 0] :
        List Instr).all (fun i => !i.wf) = true := by decide

theorem test_wf_refuses_cascade_operands :
    ([.confluencePortTrained 0 3 1 0, .confluencePortTrained 0 4 8 0, .join 0 (.request 8 0 0 true) 0, .join 0 (.request 0 3 0 true) 0,
      .join 0 (.request 0 0 4 true) 0, .join 0 (.answer 0 1 5) 0, .heartbeat 0 8 false 0, .masterLost [(8, true)] 0, .electionTimeout [(8, true)] 0,
      .forwardRequest 0 { src := 0, tag := 0, kind := 4, nsid := 1, key := 0 } [] none 0, .forwardRequest 0 { src := 0, tag := 0, kind := 0, nsid := 1, key := 2 ^ 128 } [] none 0,
      .forwardRequest 0 { src := 0, tag := 0, kind := 0, nsid := 1, cls := 16, key := 0 } [] none 0,
      .dataFlit 0 0 0 0 [2 ^ 32] none 0, .forwardCompletion 0 0 0 8 0 0 0 0, .indexLookup 0 0 0 3 0 0 0, .indexReply 0 0 0 true 8 false [] none 0,
      .keyRelay 0 0 0 0xC6 [] 0, .placementUpdate 0 0 [] [] 0, .placementUpdate 0 0 (List.replicate 64 0) [(8, 0, true)] 0, .abortFlit 0 8 0 0,
      .confluencePortDown 0 [8] 0, .indexRebuildDone [(0, 8, 0)] [] none 0] : List Instr).all (fun i => !i.wf) = true := by decide

theorem test_wf_refuses_instruction_forms :
    ([.fxLdb 0 3 4 3 0 .clean, .fxLdw 0 3 3 1 0 .clean, .fxLdd 0 3 4 0 0 .clean .clean, .fxLdd 0 2 3 1 0 .clean .clean, .fxStb 0 1 2 3 0 .clean,
      .fxStw 0 1 2 3 0, .fxStd 0 1 2 0 0, .undefinedInstruction 0 (encR 0 1 2 3 0 1)] : List Instr).all (fun i => !i.wf) = true := by decide

/-! ### FX32: the arithmetic edges of R309, the worked words of chapter 11 and the decimal examples of R312 -/

/-- NEG of 0x8000_0000 (R309). -/
theorem test_neg_most_negative : subOut 0 0x80000000 false 0 = (0x80000000, 0xE) := by decide
/-- ADD 0x7FFF_FFFF, 1 (R309). -/
theorem test_add_overflow : addOut 0x7FFFFFFF 1 false 0 = (0x80000000, 0xA) := by decide
/-- SUB 0, 1 (R309). -/
theorem test_sub_borrow : subOut 0 1 false 0 = (0xFFFFFFFF, 0x6) := by decide
/-- LSR 0x8000_0010 by 32 and by 40 (R309). -/
theorem test_lsr_wide : lsrOut 0x80000010 32 0 = (0, 0x5) ∧ lsrOut 0x80000010 40 0x4 = (0, 0x1) := by decide
/-- ASR 0x8000_0010 by 37 (R309). -/
theorem test_asr_wide : asrOut 0x80000010 37 0 = (0xFFFFFFFF, 0x6) := by decide
/-- LSL by rb = 0x40 is a count of 0: C unchanged (R309). -/
theorem test_lsl_count_zero : lslOut 0x80000010 (0x40 % 64) 0x4 = (0x80000010, 0x6) := by decide
/-- DIV corners (R309). -/
theorem test_div_corners :
    divSigned 0x80000000 0xFFFFFFFF = (0x80000000, 0) ∧ divSigned 0xFFFFFFF9 2 = (0xFFFFFFFD, 0xFFFFFFFF) ∧
      divSigned 0xFFFFFFF9 0 = (0x80000000, 0xFFFFFFF9) ∧ divUnsigned 0xFFFFFFF9 0 = (0xFFFFFFFF, 0xFFFFFFF9) := by decide
/-- MUL of 0x8000_0000 by itself (R308) and the product of R298. -/
theorem test_mul_products : mulSigned 0x80000000 0x80000000 = (0x40000000, 0) ∧ mulSigned 100000 100000 = (2, 0x540BE400) := by decide
/-- DADD with a non-BCD digit (R312's examples). -/
theorem test_dadd_non_bcd : daddOut 0xA5 1 false 0 = (0x96, 0x8) := by decide
/-- DSUB below zero (R312's examples). -/
theorem test_dsub_complement : dsubOut 3 5 false 0 = (0x99999998, 0x20) := by decide
/-- DADJ after an increment, DCVT above 10^8 (R312's examples). -/
theorem test_dadj_dcvt : dadjOut 0x19A 0 = (0x200, 0) ∧ dcvtOut 0xFFFFFFFF 0 = (0x94967295, 0x20) := by decide
/-- The byte-range text of R312. -/
theorem test_decimal_text :
    (dcvtOut 1498280 0).1 = 0x01498280 ∧ (dlzOut 0x01498280 0).1 = 1 ∧ (dtxtOut 0x01498280 4 0).1 = 0x39343130 ∧
      (dtxtOut 0x01498280 0 0).1 = 0x30383238 := by decide
/-- The encoding examples of chapter 11. -/
theorem test_encoding_examples :
    encI 4 0 0 0 = 0x10000000 ∧ encM 0x1A 0 2 1 4 = 0x68024004 ∧ encR 2 0 4 5 0 1 = 0x08042801 ∧ encR 2 0 10 11 0 4 = 0x080A5804 ∧
      encS 8 0 0x0A 0 = 0xC1002800 ∧ encL 0x29 0 2 48 = 0xA4004030 ∧ encB 1 0x3FFFFD = 0x807FFFFD ∧ encR 3 5 4 0 0 6 = 0x0CA40006 := by decide
/-- The words that are always ILLEGAL (R300), and reserved fields (R304, R319). -/
theorem test_undefined_words :
    fxDefined 0 = false ∧ fxDefined 0xFFFFFFFF = false ∧ fxDefined 0xA8000002 = false ∧ fxDefined (encR 0 1 2 3 1 1) = false ∧
      fxDefined (encM 0x10 2 2 1 0) = false ∧ fxDefined (encM 0x15 3 2 0 0) = false := by decide
/-- The interrupted fill of R295: the prefix resumes with what ERC holds. -/
theorem test_repeat_entry :
    let c : FxCore := { pc := 0x12344, rep := some { interruptible := true, prefixAt := 0x12340, word := 0x68024004, left := 700 } }
    (entryCore 0x22 0x12344 0 0x100 c).epc = 0x12340 ∧ (entryCore 0x22 0x12344 0 0x100 c).erc = 700 ∧
      ctl (entryCore 0x22 0x12344 0 0x100 c) ctlRPEND = true := by decide

/-! ### Eddy and Riffle: the worked examples of chapters 8 and 9 -/

/-- The three masked keys of chapter 9: entries 56,320 to 56,323 in partition 2. -/
def eddyExample : AMap EddyEntry :=
  [(56320, { key := 0x20010DB8004400000000000000000030#128, prio := 0x20, valid := true }),
   (56321, { key := 0x20010DB8004400A10000000000000040#128, prio := 0x20, valid := true }),
   (56322, { key := 0x20010DB8000000000000000000000020#128, prio := 0x20, valid := true }),
   (56323, { key := 0x20010DB8004400000000000000000030#128, prio := 0x20, valid := true })]

/-- Step 2 of the example: two entries match under mask 6, and the lowest address wins. -/
theorem test_eddy_mask6 :
    (eddyPick 0xFFFFFFFFFFFF000000000000000000FF#128 0x20010DB8004400B70000000000000030#128 56320 57344 eddyExample).map
      (fun h => (portResult h.addr h.entry.prio.toNat 0 h.multi true) ||| 1) = some 0xDC002007 := by decide +kernel
/-- Step 1 of the example: mask 5 finds nothing. -/
theorem test_eddy_mask5 :
    (eddyPick 0xFFFFFFFFFFFFFFFF00000000000000FF#128 0x20010DB8004400B70000000000000040#128 56320 57344 eddyExample).isNone = true := by decide
/-- The stream of the compression example decodes to its 26 bytes. -/
theorem test_riffle_example :
    (riffleDecode (leBytes 19 0xFF0011843047203230303D3D646907250000001A) false none).code = 5 ∧
      (riffleDecode [0x1A, 0, 0, 0x25, 7, 0x69, 0x64, 0x3D, 0x39, 0x30, 0x30, 0x32, 0x20, 0x47, 0x30, 0x84, 0x11, 0, 0xFF] false none).out =
        ascii "id=9002 0000000000id=9002 " := by decide +kernel
/-- With distance 27 the same stream reaches beyond its history at block 0. -/
theorem test_riffle_distance :
    (riffleDecode [0x1A, 0, 0, 0x25, 7, 0x69, 0x64, 0x3D, 0x39, 0x30, 0x30, 0x32, 0x20, 0x47, 0x30, 0x84, 0x1A, 0, 0xFF] false none).code = 2 := by
  decide +kernel
/-- The header check of the example (R226). -/
theorem test_riffle_crc8 : crc8 [0x1A, 0, 0] = 0x25 := by decide +kernel

/-! ### DRAM and integrity: the worked addresses of chapters 14 and 15 -/

/-- DRAM address 0x0_8C40_2A84 in configuration C: DDR1A, row 4,488, bank group 2, bank index 0 (R425's example). -/
theorem test_dram_address :
    subOf 0x8C402A84 = 2 ∧ dramRow (8, 32, 1, 6400) 0x8C402A84 = 4488 ∧ bankOf (8, 32, 1, 6400) 0x8C402A84 = 8 := by decide
/-- The drain of R401's example: bank index 2, bank group bit 2 = 0, row 582. -/
theorem test_dram_burst_address : dramRow (8, 32, 1, 6400) 0x12345000 = 582 ∧ refSlot (8, 32, 1, 6400) 0x12345000 = 2 := by decide
/-- The eye is the longest passing run and the delay its centre, rounded down (R390). -/
theorem test_training_eye : longestRun [false, true, true, false, true, true, true, true, false] = (4, 4) ∧ runCentre (4, 4) = 5 := by decide

/-! ### IntegerArithmeticResults: its hypotheses can be met -/

theorem witness_IntegerArithmeticResults :
    fxReady 0 (encR 0 3 1 2 0 1) [3, 1, 2] fxState.dev = true ∧ fxReady 0 (encR 0 3 1 2 0 2) [3, 1, 2] fxState.dev = true ∧
      fxReady 0 (encR 0 3 1 2 0 3) [3, 1, 2] fxState.dev = true ∧ fxReady 0 (encR 0 3 1 2 0 4) [3, 1, 2] fxState.dev = true ∧
      fxReady 0 (encR 0 3 1 0 0 5) [3, 1] fxState.dev = true ∧ fxReady 0 (encR 0 0 1 2 0 6) [1, 2] fxState.dev = true ∧
      fxReady 0 (encI 4 3 1 0xFFFF) [3, 1] fxState.dev = true ∧ fxReady 0 (encI 9 0 1 0x8000) [1] fxState.dev = true := by decide

/-! ### LogicalAndMoveResults: its hypotheses can be met -/

theorem witness_LogicalAndMoveResults :
    fxReady 0 (encR 0 3 1 2 0 7) [3, 1, 2] fxState.dev = true ∧ fxReady 0 (encR 0 3 1 2 0 8) [3, 1, 2] fxState.dev = true ∧
      fxReady 0 (encR 0 3 1 2 0 9) [3, 1, 2] fxState.dev = true ∧ fxReady 0 (encR 0 0 1 2 0 10) [1, 2] fxState.dev = true ∧
      fxReady 0 (encR 0 3 1 0 0 11) [3, 1] fxState.dev = true ∧ fxReady 0 (encR 0 3 1 0 0 12) [3, 1] fxState.dev = true ∧
      fxReady 0 (encR 0 3 1 0 0 13) [3, 1] fxState.dev = true ∧ fxReady 0 (encR 0 3 1 0 0 14) [3, 1] fxState.dev = true ∧
      fxReady 0 (encI 5 3 1 0xFFFF) [3, 1] fxState.dev = true ∧ fxReady 0 (encI 6 3 1 1) [3, 1] fxState.dev = true ∧
      fxReady 0 (encI 7 3 1 1) [3, 1] fxState.dev = true ∧ fxReady 0 (encI 8 3 0 0x8000) [3] fxState.dev = true := by decide

/-! ### ShiftResults: its hypotheses can be met -/

theorem witness_ShiftResults :
    fxReady 0 (encR 0 3 1 2 0 16) [3, 1, 2] fxState.dev = true ∧ fxReady 0 (encR 0 3 1 2 0 17) [3, 1, 2] fxState.dev = true ∧
      fxReady 0 (encR 0 3 1 2 0 18) [3, 1, 2] fxState.dev = true ∧ fxReady 0 (encR 0 3 1 2 0 19) [3, 1, 2] fxState.dev = true ∧
      fxReady 0 (encR 0 3 1 0 0 20) [3, 1] fxState.dev = true ∧ fxReady 0 (encR 0 3 1 0 31 21) [3, 1] fxState.dev = true ∧
      fxReady 0 (encR 0 3 1 0 1 22) [3, 1] fxState.dev = true ∧ fxReady 0 (encR 0 3 1 0 31 23) [3, 1] fxState.dev = true := by decide

/-! ### MultiplyLandsAtItsLatency: its hypotheses can be met -/

theorem witness_MultiplyLandsAtItsLatency :
    fxReady 0 (encR 2 0 4 5 0 1) [4, 5] fxState.dev = true ∧ fxReady 0 (encR 2 0 4 5 0 2) [4, 5] fxState.dev = true ∧
      (modifyCore 0 (fun c => { c with products := [(2, 0, 6)] }) fxState.dev).cores[(0 : CoreId)].products = (2, 0, 6) :: [] := by decide

/-! ### DivideResultsAndFlags: its hypotheses can be met -/

/-- Core 0 with 7 in g4 and -1 in g5, and a divide in flight. -/
def divState (x y : Word) (inFlight : Bool) : State :=
  { fxState with
    dev := modifyCore 0 (fun c => { rset 5 y (rset 4 x c) with divide := if inFlight then some (19, 17, 0) else none }) fxState.dev }

theorem witness_DivideResultsAndFlags_signed :
    fxReady 0 (encR 2 0 4 5 0 3) [4, 5] (divState 7 2 false).dev = true ∧
      rget (awaitDivider (fxCore 0 [4, 5] (divState 7 2 false).dev)) 5 = 2 ∧
      rget (awaitDivider (fxCore 0 [4, 5] (divState 0x80000000 0xFFFFFFFF false).dev)) 4 = 0x80000000 ∧
      fxReady 0 (encR 2 0 4 5 0 3) [4, 5] (divState 7 0 true).dev = true ∧
      ctl (awaitDivider (fxCore 0 [4, 5] (divState 7 0 true).dev)) ctlDZT = false := by decide

theorem witness_DivideResultsAndFlags_unsigned :
    fxReady 0 (encR 2 0 4 5 0 4) [4, 5] (divState 7 2 false).dev = true ∧ fxReady 0 (encR 2 0 4 5 0 4) [4, 5] (divState 7 0 false).dev = true ∧
      (divState 7 0 true).dev.cores[(0 : CoreId)].divide = some (19, 17, 0) := by decide

/-! ### DecimalArithmeticResults: its hypotheses can be met -/

theorem witness_DecimalArithmeticResults :
    fxReady 0 (encR 3 3 1 2 0 1) [3, 1, 2] fxState.dev = true ∧ fxReady 0 (encR 3 3 1 2 0 2) [3, 1, 2] fxState.dev = true ∧
      fxReady 0 (encR 3 3 1 2 0 3) [3, 1, 2] fxState.dev = true ∧ fxReady 0 (encR 3 3 1 2 0 4) [3, 1, 2] fxState.dev = true ∧
      fxReady 0 (encR 3 3 1 0 0 5) [3, 1] fxState.dev = true ∧ fxReady 0 (encR 3 3 1 0 0 6) [3, 1] fxState.dev = true := by decide

/-! ### DecimalTextResults: its hypotheses can be met -/

theorem witness_DecimalTextResults :
    fxReady 0 (encR 3 3 1 0 0 7) [3, 1] fxState.dev = true ∧ fxReady 0 (encR 3 3 1 0 0 8) [3, 1] fxState.dev = true ∧
      fxReady 0 (encR 3 3 1 0 0 9) [3, 1] fxState.dev = true := by decide

/-! ### LoadsCompleteAndLandOnReturn: its hypotheses can be met -/

/-- Core 0 with a local address in g2 and a load outstanding. -/
def memState (a : Word) : State :=
  { fxState with
    dev := modifyCore 0 (fun c => { rset 2 a c with loads := [{ dests := [(7, 5)], poison := false, addr := 0x40 }] }) fxState.dev }

theorem witness_LoadsCompleteAndLandOnReturn :
    let d := ((memState 0x1000).withCore 0 (fxCore 0 [3, 2] (memState 0x1000).dev)).dev
    fxReady 0 (encM 0x10 3 2 1 0x3FFF) [3, 2] (memState 0x1000).dev = true ∧ fxReady 0 (encM 0x11 3 2 0 1) [3, 2] (memState 0x1000).dev = true ∧
      fxReady 0 (encM 0x12 3 2 2 2) [3, 2] (memState 0x1000).dev = true ∧ fxReady 0 (encM 0x13 3 2 0 2) [3, 2] (memState 0x1000).dev = true ∧
      fxReady 0 (encM 0x14 3 2 0 4) [3, 2] (memState 0x1000).dev = true ∧
      accessTrap d 0 (memAddr 0x1000 0 1) 1 true false = none ∧ accessTrap d 0 (memAddr 0x1000 2 2) 2 true false = none ∧
      accessTrap d 0 (memAddr 0x1000 0 4) 4 true false = none := by decide

theorem witness_LoadsCompleteAndLandOnReturn_pair :
    fxReady 0 (encM 0x15 4 2 1 8) [4, 5, 2] (memState 0x1000).dev = true ∧ accessTrap (memState 0x1000).dev 0 0x1000 8 true false = none ∧
      coreTarget (memState 0x1000).dev 0 0x1000 = .mem (localKey 0 0x1000) ∧ fxPlain 0 (localKey 0 0x1000) 8 (memState 0x1000).dev = true ∧
      ((memState 0x1000).dev.cores[(0 : CoreId)].loads[0]?).map (·.poison) = some false := by decide

/-! ### StoresCompleteIntoTheWriteBuffer: its hypotheses can be met -/

/-- Core 0 with one buffered word. -/
def bufState : State :=
  { fxState with
    dev := modifyCore 0 (fun c => { rset 2 0x1000 c with
      stores := [{ addr := 0x2000, key := some (localKey 0 0x2000), bytes := leBytes 4 0x12345678 }] }) fxState.dev }

theorem witness_StoresCompleteIntoTheWriteBuffer :
    fxReady 0 (encM 0x18 3 2 1 0x3FFF) [3, 2] bufState.dev = true ∧ fxReady 0 (encM 0x19 3 2 2 2) [3, 2] bufState.dev = true ∧
      fxReady 0 (encM 0x1A 2 2 2 4) [2, 2] bufState.dev = true ∧ fxReady 0 (encM 0x1B 4 2 0 8) [4, 5, 2] bufState.dev = true ∧
      accessTrap bufState.dev 0 0x1000 8 false true = none ∧ coreTarget bufState.dev 0 0x1000 = .mem (localKey 0 0x1000) ∧
      bufState.dev.cores[(0 : CoreId)].stores.length < 16 := by decide

theorem witness_StoresCompleteIntoTheWriteBuffer_fence :
    fxReady 0 (encS 0 0 0 2) [] fxState.dev = true ∧ (fxCore 0 [] fxState.dev).stores = [] ∧ fxReady 0 (encS 0 0 0 2) [] bufState.dev = true ∧
      ((fxCore 0 [] bufState.dev).stores.map fun e => (e.key, e.bytes.length)) = [(some (localKey 0 0x2000), 4)] ∧
      localKey 0 0x2000 % 4 = 0 ∧ localKey 0 0x2000 + 4 ≤ dramBase ∧ Memory.wf bufState.dev.mem = true := by decide

/-! ### AtomicsReadAndWriteOneWord: its hypotheses can be met -/

theorem witness_AtomicsReadAndWriteOneWord :
    let s := memState 0x1000
    let d := (s.withCore 0 (fxCore 0 [3, 4, 2] s.dev)).dev
    accessTrap d 0 (rget d.cores[(0 : CoreId)] 2) 4 true true = none ∧ coreTarget d 0 (rget d.cores[(0 : CoreId)] 2) = .mem (localKey 0 0x1000) ∧
      fxPlain 0 (localKey 0 0x1000) 4 d = true ∧ fxReady 0 (encR 0x1C 3 2 4 0 1) [3, 4, 2] s.dev = true ∧
      fxReady 0 (encR 0x1C 3 2 4 0 2) [3, 4, 2] s.dev = true ∧ s.dev.integ.writeBacks = [] ∧
      Memory.wf s.dev.mem = true := by decide

/-! ### BranchConditionsAndTargets: its hypotheses can be met -/

theorem witness_BranchConditionsAndTargets :
    fxReady 0 (encB 1 0x3FFFFD) [] fxState.dev = true ∧ fxReady 0 (encJ 0x21 1) [] fxState.dev = true ∧
      fxReady 0 (encJ 0x22 1) [30] fxState.dev = true ∧ fxReady 0 (encR 0x23 0 30 0 0 1) [30] fxState.dev = true ∧
      fxReady 0 (encR 0x23 0 30 0 0 2) [30, 30] fxState.dev = true := by decide

/-! ### LoopCheckClosesInnermostFirst: its hypotheses can be met -/

theorem witness_LoopCheckClosesInnermostFirst :
    let c : FxCore := { loops := #v[{ start := 0x40, stop := 0x80, count := 2 }, { start := 0x60, stop := 0x80, count := 1 }, {}, {}] }
    let e : FxCore := { loops := #v[{ start := 0x40, stop := 0x80, count := 1 }, {}, {}, {}] }
    (∀ j : Fin 4, 0 < j → (c.loops[j].count ≠ 0 ∧ c.loops[j].stop = 0x80) → c.loops[j].count = 1) ∧
      (c.loops[(0 : Fin 4)].count ≠ 0 ∧ c.loops[(0 : Fin 4)].stop = 0x80) ∧ c.loops[(0 : Fin 4)].count ≠ 1 ∧
      (∀ j : Fin 4, (e.loops[j].count ≠ 0 ∧ e.loops[j].stop = 0x80) → e.loops[j].count = 1) := by decide

/-! ### LoopInstructionsSetTheirLevel: its hypotheses can be met -/

theorem witness_LoopInstructionsSetTheirLevel :
    fxReady 0 (encL 0x28 3 2047 256) [1] fxState.dev = true ∧ fxReady 0 (encL 0x29 0 2 48) [] fxState.dev = true ∧
      fxReady 0 (encL 0x29 0 2 0) [] fxState.dev = true := by decide

/-! ### RepeatPrefixLatchesAndCounts: its hypotheses can be met -/

theorem witness_RepeatPrefixLatchesAndCounts :
    fxReady 32 0xA8000000 [] supState.dev = true ∧ fxReady 32 0xA8000001 [] supState.dev = true ∧ supState.dev.cores[(32 : CoreId)].rep = none ∧
      CoreId.isSupervisor 32 = true ∧ userMode (fxCore 32 [] supState.dev) = false ∧ fxUnrepeatable 0x68024004 = false ∧
      ((if ctl (fxCore 32 [] supState.dev) ctlRPEND then (fxCore 32 [] supState.dev).erc else (fxCore 32 [] supState.dev).rc).toNat ≤ 4096) ∧
      ({ rep := some { interruptible := true, prefixAt := 0, word := 0, left := 2 } } : FxCore).rep.isSome = true := by decide

/-! ### SpecialRegistersReadAndWrite: its hypotheses can be met -/

theorem witness_SpecialRegistersReadAndWrite :
    fxReady 0 (encS 3 0 0x0A 0) [3] fxState.dev = true ∧ specListed 0 0x0A = true ∧ specKernel 0x0A = false ∧
      fxReady 0 (encS 0 3 0x01 1) [3] fxState.dev = true ∧ specListed 0 1 = true ∧ specListed 32 0x1C = true ∧
      userMode (fxCore 0 [3] fxState.dev) = false ∧ userMode { fxState.dev.cores[(0 : CoreId)] with ctl := 4 } = true ∧
      userMode fxState.dev.cores[(0 : CoreId)] = false := by decide

/-! ### FencesEretAndWaitComplete: its hypotheses can be met -/

theorem witness_FencesEretAndWaitComplete :
    fxReady 0 (encS 0 0 0 3) [] (memState 0).dev = true ∧ fxReady 0 (encS 0 0 0 4) [] (memState 0).dev = true ∧
      fxReady 0 (encS 0 0 0 5) [] fxState.dev = true ∧ fxReady 0 (encS 0 0 0 6) [] fxState.dev = true ∧
      fxReady 0 (encS 0 0 0 7) [] fxState.dev = true ∧ (memState 0).dev.cores[(0 : CoreId)].loads.all (fun l => !l.poison) = true ∧
      fxState.dev.cores[(0 : CoreId)].stores = [] ∧ userMode fxState.dev.cores[(0 : CoreId)] = false := by decide

/-! ### ExceptionsEnterByTheirCause: its hypotheses can be met -/

/-- A core that meets the premises common to the entries, with a value in g2, in CTL and in RC. -/
def trapState (n : CoreId) (v : Word) : State :=
  { State.reset with dev := modifyCore n (fun c => { rset 2 v c with run := .running, ctl := 0x20, rc := v }) State.reset.dev }

theorem witness_ExceptionsEnterByTheirCause :
    let s := trapState 0 0x20000002
    fxReady 0 (encI 0x31 0 0 7) [] s.dev = true ∧ fxReady 0 (encI 0x32 0 0 7) [] s.dev = true ∧ fxReady 0 0xFFFFFFFF [] s.dev = true ∧
      fxDefined 0xFFFFFFFF = false ∧ fxReady 0 0xA8000000 [] s.dev = true ∧ fxReady 0 0xA8000001 [] s.dev = true ∧
      CoreId.isSupervisor 0 = false ∧ fxReady 0 (encS 0 3 6 1) [3] s.dev = true ∧ fxReady 0 (encS 3 0 8 0) [3] s.dev = true ∧
      s.dev.cores[(0 : CoreId)].rep = none ∧ ctl s.dev.cores[(0 : CoreId)] ctlEXL = false ∧ userMode s.dev.cores[(0 : CoreId)] = false ∧
      s.dev.cores[(0 : CoreId)].loads.all (fun l => !l.poison) = true := by decide

theorem witness_ExceptionsEnterByTheirCause_operands :
    fxReady 0 (encR 2 0 4 5 0 3) [4, 5] (trapState 0 7).dev = true ∧
      (let c := fxCore 0 [4, 5] (trapState 0 7).dev; (rget c 5 == 0 && ctl c ctlDZT && c.divide.isNone) = true) ∧
      fxReady 0 (encM 0x14 3 2 0 0) [3, 2] (trapState 0 0x20000002).dev = true ∧
      (memAddr (rget (fxCore 0 [3, 2] (trapState 0 0x20000002).dev) 2) 0 0).toNat % 4 ≠ 0 ∧
      (memAddr (rget (fxCore 0 [3, 2] (trapState 0 0x20000000).dev) 2) 0 0).toNat = 0x20000000 ∧
      fxReady 32 0xA8000000 [] (trapState 32 4097).dev = true ∧ fxUnrepeatable 0xA8000000 = true ∧ fxUnrepeatable 0x68024004 = false ∧
      4096 < (fxCore 32 [] (trapState 32 4097).dev).rc.toNat := by decide

/-! ### UserModeMeetsPrivilege: its hypotheses can be met -/

/-- A core in user mode whose first code window takes in its reset vector. -/
def userState (n : CoreId) : State :=
  { State.reset with
    dev := modifyCore n (fun c => { c with run := .running, ctl := 4, pc := 0x200, cwin := c.cwin.set 0 { limit := 0xFFF } }) State.reset.dev }

theorem witness_UserModeMeetsPrivilege :
    fxReady 0 (encS 0 0 0 6) [] (userState 0).dev = true ∧ fxReady 0 (encS 3 0 2 0) [3] (userState 0).dev = true ∧
      fxReady 0 (encS 0 3 5 1) [3] (userState 0).dev = true ∧ specListed 0 2 = true ∧ specKernel 2 = true ∧ specListed 0 5 = true ∧
      specKernel 5 = true ∧ fxReady 32 0xA8000000 [] (userState 32).dev = true ∧ fxReady 32 0xA8000001 [] (userState 32).dev = true ∧
      CoreId.isSupervisor 32 = true ∧ userMode (userState 0).dev.cores[(0 : CoreId)] = true ∧ callOn (userState 0).dev 0 = none ∧
      ctl (userState 0).dev.cores[(0 : CoreId)] ctlEXL = false ∧ (userState 0).dev.cores[(0 : CoreId)].rep = none ∧
      (userState 0).dev.cores[(0 : CoreId)].loads.all (fun l => !l.poison) = true := by decide

/-! ### CoreEventsChangeTheirCore: its hypotheses can be met -/

/-- Core 0 with interrupts enabled, a mailbox value posted, and a code window on a DRAM line of zeros whose check word is right. -/
def eventState : State :=
  { State.reset with
    dev := memPut (localKey 0 0x100) (leBytes 4 (crc32c (List.replicate 64 0)).toNat)
      (modifyCore 0 (fun c => { c with
        run := .running, ctl := 1, imask := 8, latched := 8, pc := 0x80000000
        cwin := c.cwin.set 0 { base := 0x80000000, limit := 0x8000003F, check := 0x100 }
        stores := [{ addr := 0x2000, key := none, bytes := [] }] }) State.reset.dev) }

theorem witness_CoreEventsChangeTheirCore :
    coreIssues eventState.dev 0 = true ∧ ctl eventState.dev.cores[(0 : CoreId)] ctlIE = true ∧
      ctl eventState.dev.cores[(0 : CoreId)] ctlEXL = false ∧ eventState.dev.cores[(0 : CoreId)].rep = none ∧
      eventState.dev.cores[(0 : CoreId)].loads.all (fun l => !l.poison) = true ∧ (enabledPending eventState.dev 0).getLsbD 3 = true ∧
      (∀ k, k < 3 → (enabledPending eventState.dev 0).getLsbD k = false) ∧ (eventState.dev.cores[(0 : CoreId)].stores[0]?).isSome = true ∧
      eventState.dev.tm < 2 ^ 64 ∧ userMode eventState.dev.cores[(0 : CoreId)] = false ∧ coreExists eventState.dev.variant 33 = true := by decide

theorem witness_CoreEventsChangeTheirCore_line :
    let w : CodeWindow := { base := 0x80000000, limit := 0x8000003F, check := 0x100 }
    coreTarget eventState.dev 0 0x80000000 = .mem dramBase ∧ codeWindow eventState.dev.cores[(0 : CoreId)] 0x80000000 = some w ∧
      anyPoison eventState.dev dramBase 64 = false ∧
      checkWordAt eventState.dev 0 w 0x80000000 = some (crc32c (memGet eventState.dev dramBase 64)) := by decide +kernel

/-! ### EddySearchPicksHighestThenLowest: its hypotheses can be met -/

/-- The entries of chapter 9 in partition 2, owned by program slot 3 which core 0 runs. -/
def eddyState : State :=
  { fxState with
    dev := modifyCore 0 (fun c => { c with slot := some 3, eddy := { c.eddy with part := 2, key := 5, data := 9 } })
      { fxState.dev with eddy := { fxState.dev.eddy with
          entries := eddyExample, layout := fxState.dev.eddy.layout.set 2 0x00030137 } } }

theorem witness_EddySearchPicksHighestThenLowest :
    mapWf eddyState.dev.eddy.entries = true ∧ (eddyState.dev.eddy.entries.all fun ae => !ae.2.rewriting) = true ∧
      (eddyFind eddyState.dev 2 0 0x20010DB8000000000000000000000020#128).isSome = true := by decide

/-! ### EddyPortOperationsComplete: its hypotheses can be met -/

theorem witness_EddyPortOperationsComplete :
    coreExists eddyState.dev.variant 0 = true ∧ eddyState.dev.cores[(0 : CoreId)].run = .running ∧
      eddyState.dev.cores[(0 : CoreId)].eddy.pending = none ∧ eddyState.dev.cores[(0 : CoreId)].eddy.part ≠ 1 ∧
      ownsPart eddyState.dev 0 2 = true ∧ partFree eddyState.dev 2 = some 56324 ∧ inPartition eddyState.dev 2 57343 = true ∧
      inPartition eddyState.dev 2 56320 = true ∧ (eddyEntry eddyState.dev 57343).poison = false ∧
      ((eddyFind eddyState.dev 2 2 5).map (fun h => h.entry.poison)) = none ∧
      ((eddyFind eddyState.dev 2 1 0).map fun h => h.entry.poison) = some false := by decide

/-! ### EddyParityFailureAndRewrite: its hypotheses can be met -/

theorem witness_EddyParityFailureAndRewrite :
    (eddyEntry eddyState.dev 56321).valid = true ∧
      (eddyEntry { eddyState.dev with eddy := { eddyState.dev.eddy with entries := [(7, { rewriting := true })] } } 7).rewriting = true := by
  decide

/-! ### RiffleBlocksDecodeToTheirLength: its hypotheses can be met -/

theorem witness_RiffleBlocksDecodeToTheirLength :
    riffleTokens 9 [0x40, 7, 0xFF] 4 [] 0 3 100 = .good [7, 7, 7] 7 0xFF ∧ crc8 [0x1A, 0, 0] ≠ 0x24 ∧ (2 : Nat) ≤ (0x02 : Byte).toNat ∧
      (List.replicate 3 (0 : Byte)).length < 4 ∧ 1 ≤ (List.replicate 1 (0 : Byte)).length := by decide +kernel

/-! ### RiffleDescriptorsQueueAndComplete: its hypotheses can be met -/

/-- A descriptor of a check in the local memory of core 0, and the same queued at instance A. -/
def riffleState : State :=
  let s := { fxState with dev := memPut (localKey 0 0x1000) ([2, 0, 0, 0] ++ leBytes 4 5 ++ leBytes 8 0x2000) fxState.dev }
  { s with dev := modifyRiffle 0 (fun u => { u with jobs := [takeDescriptor s.dev 0 0x1000] }) s.dev }

theorem witness_RiffleDescriptorsQueueAndComplete :
    riffleState.dev.variant ≠ .vl7e ∧ coreExists riffleState.dev.variant 0 = true ∧ riffleState.dev.cores[(0 : CoreId)].run = .running ∧
      (takeDescriptor riffleState.dev 0 0x1000).op = 2 ∧ (takeDescriptor riffleState.dev 0 0x2000).op = 0 ∧
      riffleState.dev.riffle[(0 : Fin 2)].jobs.length < 64 ∧ (riffleState.dev.riffle[(0 : Fin 2)].jobs.map (·.desc)) = [some (localKey 0 0x1000)] ∧
      localKey 0 0x1000 % 64 = 0 ∧ localKey 0 0x1000 + 64 ≤ dramBase ∧ Memory.wf riffleState.dev.mem = true := by decide +kernel

/-! ### DramAddressMapping: its hypotheses can be met -/

theorem witness_DramAddressMapping :
    (0x8C402A84 : Nat) < dramCapacity (8, 32, 1, 6400) ∧ 2 ^ 35 - 1 < dramCapacity (8, 16, 1, 6400) ∧ 2 ^ 36 - 1 < dramCapacity (8, 16, 2, 6400) ∧
      0 < dramCapacity (4, 16, 1, 4800) := by decide

/-! ### DramRequestsReadAndWriteLines: its hypotheses can be met -/

/-- DRAM trained in configuration A, one line queued since Tidemark 0, a neighbour listed, an RFM owed. -/
def dramState : State :=
  { State.reset with
    dev := { State.reset.dev with
      tm := 30000
      dram := { State.reset.dev.dram with
        trained := true
        sub := State.reset.dev.dram.sub.set 1
          { writes := [{ line := 1, since := 0 }], neighbours := [(3, 7)], owedRfm := [5], owed := (Vector.replicate 8 0).set 2 4
            alertAt := some 29000, retrainDue := true, retryLanes := [(4, true, 0)] } } } }

theorem witness_DramRequestsReadAndWriteLines :
    dramState.dev.dram.trained = true ∧ dramState.dev.dram.sub[0].selfRefresh = false ∧ Memory.wf dramState.dev.mem = true ∧
      (2 ^ 35 - 1 : Nat) < dramCapacity dramState.dev.dram.cfg ∧ (0x4F % 64 + 49 : Nat) ≤ 64 ∧
      0x4F + 49 ≤ dramCapacity dramState.dev.dram.cfg ∧ 0x4F / 64 * 64 + 64 * 2 ≤ dramCapacity dramState.dev.dram.cfg := by decide

/-! ### RefreshIsOwedAndIssued: its hypotheses can be met -/

theorem witness_RefreshIsOwedAndIssued :
    dramState.dev.dram.trained = true ∧ dramState.dev.dram.sub[(1 : Fin 4)].selfRefresh = false ∧ (0 : Nat) < ranksOf dramState.dev.dram.cfg ∧
      dramState.dev.dram.sub[(1 : Fin 4)].owed[refreshSlot 0 2] = 4 ∧ dramState.dev.dram.sub[(1 : Fin 4)].owed[refreshSlot 0 0] = 0 ∧
      dramState.dev.dram.sub[(1 : Fin 4)].owedRfm.contains 5 = true ∧ dramState.dev.dram.sub[(1 : Fin 4)].neighbours = (3, 7) :: [] := by decide

/-! ### DramAlertsAndRetraining: its hypotheses can be met -/

theorem witness_DramAlertsAndRetraining :
    dramState.dev.dram.trained = true ∧ dramState.dev.dram.sub[0].selfRefresh = false ∧
      dramState.dev.dram.sub[(1 : Fin 4)].alertAt = some 29000 ∧ max dramState.dev.tm 30001 < 29000 + 1000000 ∧
      dramState.dev.dram.sub[(1 : Fin 4)].retrainDue = true ∧ dramState.dev.dram.sub[(1 : Fin 4)].retrainStep = 0 ∧
      dramState.dev.dram.sub[(1 : Fin 4)].stepAt = none ∧ otherRetrains dramState.dev 1 = false ∧ 0 < ranksOf dramState.dev.dram.cfg ∧
      dramState.dev.dram.sub[(1 : Fin 4)].retryLanes = [((4 : Fin 10).val, true, 0)] ∧ 0 + 1000000000 ≤ max dramState.dev.tm 1000000000 ∧
      13 ≤ (longestRun (List.replicate 13 true)).2 ∧ dramState.dev.dram.sub[(1 : Fin 4)].writes = [{ line := 1, since := 0 }] ∧
      0 + objNum dramState.dev 0x343003 * 1000 < max dramState.dev.tm 0 := by decide

/-! ### WriteBacksAreIssuedOrDropped: its hypotheses can be met -/

/-- A write-back that poisons a Pool word, a remap record not yet copied, a running Pool pass and a filled bucket. -/
def integState : State :=
  { State.reset with
    dev := { State.reset.dev with
      tm := 30000000000
      power := { State.reset.dev.power with phase := .ready }
      integ := { State.reset.dev.integ with
        writeBacks := [{ region := 3, word := 0x80000000, poison := true, since := 0 }]
        remaps := [{ region := 0, row := 5, spare := 31 }]
        regions := State.reset.dev.integ.regions.set 2 { level := 7 }
        dredge := { target := 0, state := 1, start := 0, length := 64 } } } }

theorem witness_WriteBacksAreIssuedOrDropped :
    integState.dev.integ.writeBacks[0]? = some { region := 3, word := 0x80000000, poison := true, since := 0 } ∧
      0 + 100000 ≤ max integState.dev.tm 0 := by decide

/-! ### RemapsLeaksVotesAndSteps: its hypotheses can be met -/

theorem witness_RemapsLeaksVotesAndSteps :
    integState.dev.integ.remaps[0]? = some { region := 0, row := 5, spare := 31 } ∧ integState.dev.power.phase ≠ .inReset ∧
      integState.dev.power.phase ≠ .off ∧ (0 : Nat) < 1 := by decide

/-! ### DredgePassesEndAndRecur: its hypotheses can be met -/

theorem witness_DredgePassesEndAndRecur :
    integState.dev.integ.dredge.state = 1 ∧ integState.dev.integ.dredge.suspended = false ∧ integState.dev.integ.periodicDue = [] ∧
      integState.dev.integ.dredge.target < 2 ∧ integState.dev.media.store.bands = [] ∧ integState.dev.power.phase = .ready ∧
      dramState.dev.integ.dredge.state ≠ 1 ∧ objNum integState.dev 0xA03203 = 168 ∧
      integState.dev.integ.periodicAt[(2 : Fin 3)] + 168 * 3600000000000 ≤ max integState.dev.tm 604800000000000 := by decide

/-! ### SessionsOpenCloseAndAnswer: its hypotheses can be met -/

theorem witness_SessionsOpenCloseAndAnswer :
    admitted openCmd false hostState.dev = true ∧ zeroFrom 13 openCmd = true ∧
      (let d := taken openCmd hostState.dev
       (openSlots openCmd).all (fun x => (keySlot d x.1).allocated && decide ((keySlot d x.1).owner = 1 ∧ (keySlot d x.1).type = x.2)) = true ∧
         withinLimit d .sessions 1 = true ∧ (takeIndex d).map Prod.fst = some 3) ∧
      (sessionFor (taken (hostCmd 0x70001) hostState.dev) 1 0x70001).isSome = true ∧ zeroFrom 11 (hostCmd 0x70001) = true := by
  decide +kernel

/-! ### PutLookupAndEvictComplete: its hypotheses can be met -/

/-- The same part with cache namespace 2 of tag 4 attached. -/
def cacheState : State :=
  { hostState with
    dev := { hostState.dev with
      media := { hostState.dev.media with
        geo := { ce := 1, luns := 1, planes := 4, pages := 256, blocks := 400, cell := 3 }
        nss := [(2, { idx := 0, kind := 2, iu := 0, fmt := 0, nsze := 1100, ncap := 1100, tag := 4, attached := [1] })]
        titles := [(4 * 2 ^ 32 + 9002, { slot := 6, kcv := 8 })]
        store := { hostState.dev.media.store with
          map := [(1000, 0)]
          objs := [(17, { key := 4 * 2 ^ 80 + 5 * 2 ^ 64 + 2 ^ 32 + 9002, base := 1000, units := 1, compressed := false, stored := 5000, decoded := 5000
                          version := 3, slot := 6, charged := 1, storedAt := 9 })] } }
      eddy := { hostState.dev.eddy with
        entries := [(7, { key := BitVec.ofNat 128 (4 * 2 ^ 80 + 5 * 2 ^ 64 + 2 ^ 32 + 9002), prio := 0x80, valid := true, data := 17 })] }
      reqs := [(55, { ctrl := 1, sq := 5, cid := 40, op := 2, step := .arriving, key := 4 * 2 ^ 80 + 5 * 2 ^ 64 + 9003, nsid := 2, len := 4096
                      obj := putRecord (4 * 2 ^ 80 + 5 * 2 ^ 64 + 9003) 0 4096 1 6 1 false, store := some (6, 2), storeUse := true, unit := some 2 }),
               (56, { ctrl := 1, sq := 5, cid := 41, op := 2, step := .arriving, key := 4 * 2 ^ 80 + 5 * 2 ^ 64 + 2 ^ 32 + 9002, nsid := 2, len := 4
                      obj := putRecord (4 * 2 ^ 80 + 5 * 2 ^ 64 + 2 ^ 32 + 9002) 0 4 1 6 1 false, store := some (6, 2), unit := some 2
                      cipher := [(0, List.replicate 16 1)] })] } }

/-- A command of PF 1 on namespace 2 with a key of kind 5. -/
def cacheCmd (len cdw10 track : Nat) : Cmd :=
  { now := 5000000100, ctrl := 1, sq := 5, cid := 33, nsid := 2, cdw2 := len, cdw10 := cdw10, cdw12 := 9002, cdw13 := track, cdw14 := 5 }

theorem witness_PutLookupAndEvictComplete :
    admitted (cacheCmd 4096 0 2) false cacheState.dev = true ∧
      (let d := taken (cacheCmd 4096 0 2) cacheState.dev
       let key := withTag (cmdKey (cacheCmd 4096 0 2)) 4
       (attachedNs d 1 2).isSome = true ∧ keyClean key = true ∧ keyKind key = 5 ∧ placedOn d key = none ∧ lengthOk 4096 = true ∧
         storageLoaded d 6 = true ∧ (match putSlot d key false 0 with
           | .ok n => decide (n = 6)
           | .error _ => false) = true ∧
         putFits d 1 key { idx := 0, kind := 2, iu := 0, fmt := 0, nsze := 1100, ncap := 1100, tag := 4, attached := [1] } 4096 = true) ∧
      (findObject (withTag (cmdKey (cacheCmd 0 0 1)) 4) [] (taken (cacheCmd 0 0 1) cacheState.dev)).1.isSome = true ∧
      (findObject (withTag (cmdKey (cacheCmd 0 0 3)) 4) [] (taken (cacheCmd 0 0 3) cacheState.dev)).1.isNone = true ∧
      unitCount 4096 = 1 ∧ (slotGen cacheState.dev 6 2).isSome = true := by
  decide +kernel

theorem witness_PutLookupAndEvictComplete_validate :
    (let d1 := placePut 56 0 0 1 cacheState.dev
     (mapGet d1.reqs 56).any fun r1 => decide (r1.obj.units ≤ r1.entries.length) &&
       (storeObject 56 r1 { idx := 0, kind := 2, iu := 0, fmt := 0, nsze := 1100, ncap := 1100, tag := 4, attached := [1] } d1).1.isSome) = true := by
  decide +kernel

/-! ### StreamReadPathCompletes: its hypotheses can be met -/

/-- A profile image of the scheme None, kinds 0 to 5, class 0, and three Stream Reads of the object of record 17: just admitted, decoded, and
with its output ready. -/
def readState : State :=
  { cacheState with
    dev := { cacheState.dev with
      profiles := [(12, { image := List.replicate 128 0, version := 1 })]
      reqs :=
        let o : ObjRec := { key := 4 * 2 ^ 80 + 5 * 2 ^ 64 + 2 ^ 32 + 9002, base := 1000, units := 2, compressed := false, stored := 5000, decoded := 5000
                            version := 3, slot := 6, charged := 1, storedAt := 9 }
        let r : Req := { ctrl := 1, sq := 5, cid := 50, op := 0, key := o.key, nsid := 2, len := 4096, obj := o, recNo := 17, entries := [some 0, some 1]
                         store := some (6, 2), storeUse := true }
        [(70, { r with entries := [], obj := noObject o.key, store := none, storeUse := false }), (71, r), (72, { r with cipher := [(0, List.replicate 4096 7)] }),
         (73, { r with cipher := [(0, List.replicate 4096 7)], unit := some 2 }), (74, { r with step := .dma, output := [1, 2, 3] }),
         (75, { r with step := .dma, output := [1, 2, 3], toPeer := true }), (76, { r with step := .peer, output := [1, 2, 3] })] } }

/-- A Stream Read of the object of record 17 through profile 12, handle 0. -/
def readCmd : Cmd := { cacheCmd 4096 0 1 with cdw11 := 12 }

theorem witness_StreamReadPathCompletes :
    admitted readCmd false readState.dev = true ∧
      (let d := taken readCmd readState.dev
       (attachedNs d 1 2).isSome = true ∧ (profileImage d 12).isSome = true ∧ handleOk d readCmd (profileImage d 12) = true ∧
         (profileImage d 12).all (fun i => !unitMissing d i && !sessionKeyMissing d readCmd i && decide (imgScheme i = 0)) = true ∧
         (classSearch (4 * 2 ^ 80 + 5 * 2 ^ 64 + 2 ^ 32 + 9002) 0 [] d).1.isSome = true ∧ storageLoaded d 6 = true ∧ (nsByTag d 4).isSome = true) ∧
      (mapGet readState.dev.reqs 71).any (fun r => unitNeeded r 1) = true ∧ chooseUnit { readState.dev with keys := { readState.dev.keys with
        estuary := readState.dev.keys.estuary.set 0 { state := 0 } } } false = 0 ∧
      (mapGet readState.dev.reqs 73).any (fun r => holdsUnit readState.dev 73 r && (cipherUnit readState.dev r 0).isSome) = true ∧
      (slotGen readState.dev 6 2).isSome = true := by
  decide +kernel

theorem witness_StreamReadPathCompletes_queues : hasQueues 1 5 readState.dev := ⟨_, _, rfl, rfl, rfl⟩

/-! ### BraidRiffleAndEncryptionAdvanceARead: its hypotheses can be met -/

/-- A pass-through image for kind 5: SPLICE OBJECT and END. -/
def brImage : Bytes :=
  leBytes 4 0x46504C56 ++ leBytes 2 1 ++ leBytes 2 32 ++ [3, 0, 0, 0] ++ leBytes 2 32 ++ leBytes 2 2 ++ List.replicate 144 0 ++
    [0, 0, 0, 0, 0, 0, 2, 0x0C] ++ List.replicate 8 0

/-- The stream of chapter 8's example, 26 bytes decoded. -/
def tinyStream : Bytes := [0x1A, 0, 0, 0x25, 7, 0x69, 0x64, 0x3D, 0x39, 0x30, 0x30, 0x32, 0x20, 0x47, 0x30, 0x84, 0x11, 0, 0xFF]

/-- Requests at each step: table decrypted, assembled, Riffle input complete, a clear range in its turn. -/
def passState : State :=
  { readState with
    dev := { readState.dev with
      reqs :=
        let o : ObjRec := { key := 4 * 2 ^ 80 + 5 * 2 ^ 64 + 2 ^ 32 + 9002, base := 1000, units := 1, compressed := false, stored := 4, decoded := 4
                            version := 3, slot := 6, charged := 1, storedAt := 9 }
        let r : Req := { ctrl := 1, sq := 5, cid := 50, op := 0, key := o.key, nsid := 2, len := 4096, obj := o, recNo := 17, entries := [some 0]
                         plain := [(0, [65, 66, 67, 68])], unit := some 2 }
        [(81, { r with image := brImage }), (82, { r with image := brImage, asmLen := some 4 }),
         (83, { r with obj := { o with compressed := true, stored := 19, decoded := 26 }, plain := [(0, tinyStream)], riffle := some 0 }),
         (84, { r with image := brImage.set 9 1, asm := some [1, 2, 3, 4], ranges := [{ off := 0, len := 4, prot := false, restart := false }] })] } }

theorem witness_BraidRiffleAndEncryptionAdvanceARead :
    (mapGet passState.dev.reqs 81).any (fun r => tableReady passState.dev r && decide (contextsBusy passState.dev < 32) && bit (imgKinds r.image) 5 &&
      !imgAssisted r.image && (objectRefused r.image (stagedData r) 4).isNone &&
      (match brPass (brCtx passState.dev 81 r false) with
       | .ok res => decide (res.len = 4)
       | .error _ => false)) = true ∧
      (mapGet passState.dev.reqs 82).any (fun r => allPlain r && (match brPass (brCtx passState.dev 82 r true) with
       | .ok res => decide (res.out = [65, 66, 67, 68])
       | .error _ => false)) = true ∧
      (mapGet passState.dev.reqs 83).any (fun r => decide ((putPrefix r.plain 1 0).length = 19) &&
        decide ((riffleDecode (putPrefix r.plain 1 0) false (some 26)).code = 0)) = true ∧
      (mapGet passState.dev.reqs 84).any (fun r => holdsUnit passState.dev 84 r && decide (imgScheme r.image = 1)) = true := by
  decide +kernel

/-! ### FencesAndLookupWindowsComplete: its hypotheses can be met -/

/-- The same part with a search in windows 0 to 3 of PF 1 and a command in flight on queue 6. -/
def windowState : State :=
  { readState with
    dev := modifyCtrl 1 (fun c =>
      { c with
        sqs := c.sqs ++ [(6, { cq := 5, size := 8, tail := 3, inflight := [90], spanFails := 1, spanFirst := 88 })]
        windows := [(0, { job := some (leBytes 16 (5 * 2 ^ 64 + 2 ^ 32 + 9002), 0, 2) }), (1, { job := some (leBytes 16 0, 0x40, 2) }),
                    (2, { job := some (leBytes 16 (2 ^ 75), 0, 2) }), (3, { job := some (leBytes 16 0, 0, 3) })] }) readState.dev }

theorem witness_FencesAndLookupWindowsComplete :
    admitted (hostCmd 1) false windowState.dev = true ∧ admitted { hostCmd 1 with sq := 6 } false windowState.dev = true ∧
      (getCtrl (taken (hostCmd 1) windowState.dev) 1).any (fun k => (mapGet k.sqs 5).any fun q => q.inflight.all (fun i => i = 33 || q.earlier.contains i)) = true ∧
      (getCtrl (taken { hostCmd 1 with sq := 6 } windowState.dev) 1).any (fun k => (mapGet k.sqs 6).any fun q => !q.inflight.all (fun i => i = 33 || q.earlier.contains i)) = true ∧
      (getCtrl windowState.dev 1).any (fun k => k.memSpace && decide (k.port < 2)) = true ∧ linkUp windowState.dev 0 = true ∧
      (List.range 4).all (fun w => (lookupWindow windowState.dev 1 w).job.isSome) = true ∧
      (attachedNs windowState.dev 1 2).any (fun n => n.kind = 2) = true ∧ (attachedNs windowState.dev 1 3).isNone = true ∧
      keyClean (2 ^ 75) = false ∧ (profileImage windowState.dev 0).isNone = true ∧
      (findObject (withTag (5 * 2 ^ 64 + 2 ^ 32 + 9002) 4) [] windowState.dev).1.isSome = true ∧
      (findObject (withTag (5 * 2 ^ 64 + 2 ^ 32 + 9003) 4) [] windowState.dev).1.isNone = true ∧
      (classSearch (withTag (5 * 2 ^ 64 + 2 ^ 32 + 9002) 4) 3 [] windowState.dev).1.isSome = true ∧
      (profileImage windowState.dev 12).isSome = true := by
  decide +kernel

/-! ### QueuesAreCreatedDeletedAndAborted: its hypotheses can be met -/

/-- An admin command of PF 1. -/
def adminOf (cdw10 cdw11 : Nat) : Cmd := { now := 5000000100, ctrl := 1, sq := 0, cid := 33, cdw10 := cdw10, cdw11 := cdw11 }

/-- The same part with 16 queues of each kind granted, a third completion queue, and two Stream Reads, before and at step 9. -/
def adminState : State :=
  { windowState with
    dev :=
      { (modifyCtrl 1 (fun c =>
          { c with
            features := [(0x07, 15 + 65536 * 15)], cqs := c.cqs ++ [(6, { size := 8 })], held := [{ type := 7, info := 1, lid := 0xC0 }]
            sqs := mapUpdate c.sqs 5 (fun q => { q with inflight := [50, 51] }) ++
              [(8, { cq := 5, size := 8, inflight := [60], fence := some (60, true) })] }) windowState.dev) with
        reqs := [(71, { ctrl := 1, sq := 5, cid := 50, op := 0, key := 0, nsid := 2, len := 4096, obj := noObject 0 }),
                 (74, { ctrl := 1, sq := 5, cid := 51, op := 0, key := 0, nsid := 2, len := 4096, obj := noObject 0, step := .dma })] } }

theorem witness_QueuesAreCreatedDeletedAndAborted :
    admitted (adminOf 0x0FFF0007 0x00050001) true adminState.dev = true ∧
      (getCtrl (taken (adminOf 0x0FFF0007 0x00050001) adminState.dev) 1).any (fun k =>
        decide (granted k true = 16 ∧ granted k false = 16 ∧ 5 < k.vi) && (mapGet k.sqs 7).isNone && (mapGet k.cqs 7).isNone &&
          (mapGet k.cqs 5).isSome && (mapGet k.sqs 6).isSome && k.sqs.all (fun q => q.2.cq ≠ 6) && (mapGet k.cqs 6).isSome &&
          decide (k.aers.length < 16) && !k.held.isEmpty && (mapGet k.sqs 5).any (fun q => q.inflight.contains 50 && decide (q.head ≠ q.tail)) &&
          (mapGet k.sqs 8).any (fun q => decide (q.fence = some (60, true)) && (mapGet k.cqs q.cq).isSome)) = true ∧
      (getCtrl (taken (adminOf 0 0) hostState.dev) 1).any (fun k => k.held.isEmpty) = true ∧
      (reqOf adminState.dev 1 5 50).any (fun r => abortable r.2) = true ∧ (reqOf adminState.dev 1 5 51).any (fun r => !abortable r.2) = true ∧
      (∀ r ∈ adminState.dev.reqs, ¬(r.2.ctrl = 1 ∧ r.2.sq = 6)) ∧ adminState.dev.cas.forwards = [] ∧ adminState.dev.rt.calls = [] := by
  decide +kernel

/-! ### DoorbellsMoveQueuesAndBadOnesAreIgnored: its hypotheses can be met -/

/-- The same part with one completion held behind queue 6. -/
def doorbellState : State :=
  { adminState with
    dev := modifyCtrl 1 (fun c =>
      { c with cqs := mapUpdate c.cqs 6 fun q => { q with tail := 5, waiting := [{ ctrl := 1, sq := 6, cid := 9, sct := 0, sc := 0 }] } }) adminState.dev }

theorem witness_DoorbellsMoveQueuesAndBadOnesAreIgnored :
    barsOpen 1 5000000100 doorbellState.dev = true ∧ doorbellState.dev.power.slumberEntry = false ∧
      (getCtrl (heard 0 5000000100 doorbellState.dev) 1).any (fun k =>
        (mapGet k.sqs 5).any (fun q => decide (ringDist q.size q.head q.tail ≤ ringDist q.size q.head 20 ∧
          ringDist q.size q.head 7 < ringDist q.size q.head q.tail)) && (mapGet k.sqs 9).isNone && (mapGet k.cqs 9).isNone &&
        (mapGet k.cqs 6).any (fun q => decide (ringDist q.size q.head 5 ≤ ringDist q.size q.head q.tail ∧
          ringDist q.size q.head q.tail < ringDist q.size q.head 6 ∧ (q.tail + 1) % q.size ≠ 5) && q.waiting.all (fun e => decide (e.ctrl = 1)))) = true ∧
      (fetchable (heard 0 5000000100 hostState.dev) { hostCmd 0 with opc := 0xFE }).any (fun q => !q.inflight.contains 33 && !q.cancelling) = true ∧
      ioOpcodes.contains 0xFE = false := by
  decide +kernel

/-! ### FeaturesPagesAndAnswersComplete: its hypotheses can be met -/

/-- The same part with block namespace 1 attached. -/
def blockState : State :=
  { adminState with
    dev := { adminState.dev with
      media := { adminState.dev.media with
        nss := (1, { idx := 1, kind := 0, iu := 0, fmt := 0, nsze := 4096, ncap := 4096, attached := [1] }) :: adminState.dev.media.nss } } }

theorem witness_FeaturesPagesAndAnswersComplete :
    (List.all [0x01, 0x02, 0x04, 0x05, 0x07, 0x08, 0x09, 0x0A, 0x0B, 0x0C, 0x0E, 0x81, 0x83, 0xFE] fun fid =>
      admitted { adminOf fid 3 with nsid := 1 } true blockState.dev) = true ∧
      (let d := taken { adminOf 0x01 3 with nsid := 1 } blockState.dev
       (getCtrl d 1).any (fun k => decide (3 < k.vi) && !k.ioCreated) = true ∧ (attachedNs d 1 1).any (fun n => n.kind = 0) = true ∧
         logPages d 1 = [0x00, 0x01, 0x02, 0x03, 0x04, 0x05, 0x06, 0x07, 0x08, 0x0D, 0x12, 0x13, 0x80, 0x81, 0xC0, 0xC1, 0xC2] ∧
         isPf d 1 = true ∧ (getCtrl d 1).any (fun k => decide ((logPage d 1 k 0xC0 0).size = 8256) && (match identifyPage (adminOf 0x01 0) d k with
           | .ok p => decide (p.size = 4096)
           | .error _ => false) && (match identifyPage (adminOf 0xFE 0) d k with
           | .ok _ => false
           | .error st => decide (st = stField))) = true) := by
  decide +kernel

/-! ### NamespacesAndSecondaryControllersAreManaged: its hypotheses can be met -/

/-- The same part with memory and compute namespaces, two VFs of port 0, offline and online, and 64 TB of flash. -/
def mgmtState : State :=
  { blockState with
    dev :=
      { blockState.dev with
        host := { blockState.dev.host with
          flexVq := Vector.replicate 2 100
          flexVi := Vector.replicate 2 100
          ctrls := blockState.dev.host.ctrls ++ [(0x101, { port := 0, vf := 1, dvf := 1, online := false, poolState := 1, vq := 4, vi := 4 }),
                                                 (0x102, { port := 0, vf := 2, dvf := 2, online := true, poolState := 1, vq := 4, vi := 4 }),
                                                 (0x103, { port := 0, vf := 3, dvf := 3, online := false, poolState := 1, vq := 1, vi := 0 })] }
        rt := { blockState.dev.rt with
          aux := [(10, { isMemory := true, gib := 20, size := 1 }), (11, { isMemory := false })] } } }

/-- The data of a create: NSZE and NCAP. -/
def createData (nsze : Nat) : Bytes := leBytes 8 nsze ++ leBytes 8 nsze

theorem witness_NamespacesAndSecondaryControllersAreManaged :
    (List.all [0, 1] fun x => admitted { adminOf x 0 with nsid := 10, data := createData 1000 } true mgmtState.dev) = true ∧
      (let d := taken (adminOf 0 0) mgmtState.dev
       isPf d 1 = true ∧ makesCascade d { kind := 0, iu := 0, fmt := 0, nsze := 1000, ncap := 1000 } = false ∧
         (match readAsk 0 (padTo 4096 (createData 1000)), readAsk 3 (padTo 4096 (createData (2 ^ 30))), readAsk 4 (padTo 4096 []) with
          | .ok a, .ok b, .ok e => decide (a.kind = 0 ∧ a.nsze = 1000 ∧ b.kind = 3 ∧ b.nsze = 2 ^ 30 ∧ e.kind = 4)
          | _, _, _ => false) = true ∧
         nsFits d (nsOfAsk 2 { kind := 0, iu := 0, fmt := 0, nsze := 1000, ncap := 1000 } 0 false) = true ∧
         nsFits d (nsOfAsk 2 { kind := 0, iu := 0, fmt := 0, nsze := 2 ^ 40, ncap := 1000 } 0 false) = false ∧
         (placeMemory d 1).isSome = true ∧ placeMemory d 1000 = none ∧ freeNsid d = 3 ∧
         (attachedTo d 1).any (fun l => decide (l = [1])) = true ∧ listedCtrls (padTo 4096 [1, 0, 1, 1]) = [0x101] ∧
         d.rt.deletes = [] ∧ d.rt.calls = [] ∧ mapWf d.rt.aux = true ∧ (mapGet d.rt.aux 10).isSome = true ∧ portOf d 1 = 0 ∧
         (List.all [0x101, 0x102, 0x103] fun i => (getCtrl d i).any fun v => decide (v.vf ≠ 0 ∧ v.port = 0 ∧ v.poolState = 1)) = true) := by
  decide +kernel

theorem witness_NamespacesAndSecondaryControllersAreManaged_master :
    (readAsk 0 (padTo 4096 (createData 1000 ++ List.replicate 3056 0 ++ [1, 1])) |> fun r => match r with
      | .ok a => decide (a.kind = 2)
      | .error _ => false) = true := by decide +kernel

theorem witness_NamespacesAndSecondaryControllersAreManaged_runs :
    callUses { isMemory := true, gib := 20, size := 1 }
      { kind := 2, owner := (1, 5, 9), slot := 1, version := 1, entry := 0, count := 0, core := some 3, ranges := [(0, 64)], dab1 := 20 } = true := by decide +kernel

/-! ### FirmwareIsDownloadedCommittedAndActivated: its hypotheses can be met -/

/-- A firmware image of 3,840 zero bytes with security version 3, version 1.2 and its entry at byte 16, signed with a key made for this test. -/
def fwImage : Bytes :=
  leBytes 4 0x46574C56 ++ leBytes 2 1 ++ leBytes 2 256 ++ leBytes 4 3 ++ leBytes 4 0x10002 ++ leBytes 4 3840 ++ leBytes 4 16 ++ [7] ++
    List.replicate 135 0 ++
    beBytes 48 0xdfce97a7c6d3b77516ec49d78550ac1e7438092d150d1b5a830c856569c08c0e4b0042ff1d40cca51837695993bf8f7f ++
    beBytes 48 0xfd44b620d8b3cccbf77a9ea83390963af98fdba18c6b6e8964e560041e9171481a39d82737276ae17fef885c01c57761 ++
    List.replicate 3840 0

/-- The same part with that key fused, the image in slot 1 and in the buffer, slot 1 running. -/
def fwState : State :=
  { adminState with
    dev := { adminState.dev with
      fuses := { kek0 := List.replicate 32 1
                 bootKey := (0x7ae9e1db1160794c70c1ef071be5191f6c66240f4608fbe8a44ecd36c3ed5db97500f2e4d84e3fb45850fd6f4303302b,
                             0xd8ac21444cd80d241538d8034b399a0dee3636eb5cb00b9499d061a571db0f14bb47ed79453948ed63f3a6ccbbf6e74f) }
      fw := { adminState.dev.fw with nor := #v[fwImage, []], mirror := #v[fwImage, []], buffer := fwImage, running := 1, active := 0, floor := 2 } } }

theorem fwImage_valid : fwValid fwState.dev fwImage = true := by decide +kernel

theorem witness_FirmwareIsDownloadedCommittedAndActivated :
    admitted (adminOf 1023 1024) true fwState.dev = true ∧
      (let d := taken (adminOf 1023 1024) fwState.dev
       isPf d 1 = true ∧ d.fw.commit = none ∧ d.fw.buffer.length = 4096 ∧ fwLength d.fw.buffer = 4096 ∧ commitSlot d 0 = 1 ∧ commitSlot d 1 = 0 ∧
         (norSlot d 0).length = 4096 ∧ (norSlot d 1).length = 0) ∧
      (List.all [0, 1, 2, 3] fun ca => zeroBits (withAction ca (adminOf 1 0)).cdw10 31 6 && decide (bits (withAction ca (adminOf 1 0)).cdw10 2 0 = 1)) = true := by
  decide +kernel

theorem witness_FirmwareIsDownloadedCommittedAndActivated_same :
    (taken (adminOf 1023 1024) fwState.dev).fw = fwState.dev.fw ∧ (taken (adminOf 1023 1024) fwState.dev).fuses = fwState.dev.fuses ∧
      (taken (adminOf 1023 1024) fwState.dev).variant = fwState.dev.variant := ⟨rfl, rfl, rfl⟩

theorem witness_FirmwareIsDownloadedCommittedAndActivated_queues : hasQueues 1 0 fwState.dev := ⟨_, _, rfl, rfl, rfl⟩

/-! ### StartBootTrainingAndMountReachService: its hypotheses can be met -/

/-- The part during its boot, with valid images, wide eyes and configuration A. -/
def bootState (s : State) : State :=
  { s with
    dev := { s.dev with
      power := { s.dev.power with phase := .boot, imageUp := false }
      dram := { s.dev.dram with
        cfg := (objNum s.dev 0x340001, objNum s.dev 0x340002, objNum s.dev 0x340003, objNum s.dev 0x340004)
        sub := Vector.replicate 4 { lanes := Vector.replicate 10 { readEye := 40, writeEye := 40 } } } } }

theorem witness_StartBootTrainingAndMountReachService :
    State.reset.dev.power.phase = .inReset ∧ (bootState fwState).dev.power.phase = .boot ∧ (bootState fwState).dev.power.imageUp = false ∧
      (bootState fwState).dev.dram.trained = false ∧ (bootState fwState).dev.dram.failed = false ∧
      dramCapacity (bootState fwState).dev.dram.cfg ≠ 0 ∧ eyesWide (bootState fwState).dev = true ∧ eyesWide State.reset.dev = false ∧
      fwValid (bootState hostState).dev (norSlot (bootState hostState).dev 0) = false ∧
      fwValid (bootState hostState).dev (norSlot (bootState hostState).dev 1) = false ∧
      geometryOk { ce := 2, luns := 2, planes := 4, pages := 256, blocks := 400, cell := 3 } = true ∧
      geometryOk { ce := 9, luns := 2, planes := 4, pages := 256, blocks := 400, cell := 3 } = false ∧
      coreExists (bootState fwState).dev.variant 5 = true ∧ CoreId.isSupervisor 5 = false := by
  decide +kernel

/-! ### ResetsAndThePowerFailSequenceKeepWhatLasts: its hypotheses can be met -/

/-- A state in another phase. -/
def inPhase (p : Phase) (s : State) : State := { s with dev := { s.dev with power := { s.dev.power with phase := p } } }

theorem witness_ResetsAndThePowerFailSequenceKeepWhatLasts :
    canFail readState.dev = true ∧ (inPhase .flushing readState).dev.power.phase = .flushing ∧
      (inPhase .flushing readState).dev.power.resetDeferred = false ∧ (inPhase .off readState).dev.power.phase = .off ∧
      readState.dev.reqs.length = 7 := by decide +kernel

/-! ### SleepWakeAndCoastingFollowThePowerRules: its hypotheses can be met -/

/-- The part with its power state changed. -/
def withPower (f : Power → Power) (s : State) : State := { s with dev := { s.dev with power := f s.dev.power } }

theorem witness_SleepWakeAndCoastingFollowThePowerRules :
    (let s : State := { hostState with dev := modifyCtrl 1 (fun k =>
        { k with features := [(0x0C, 1), (0x1000C, 4 * 8 + 256 * 100)], ps := 3 }) hostState.dev }
     (getCtrl s.dev 1).any (fun k => bit (mapGetD k.features 0x0C 0) 0 && decide (mapGetD k.features 0x1000C 0 ≠ 0)) = true ∧
       requestState s.dev = 2 ∧ commandsOut s.dev false = false) ∧
      apstEntry (4 * 8 + 256 * 100) 0 = (4, 100) ∧ autoDozeDue { State.reset.dev with num := [(0x305005, 1)] } = true ∧
      (wakeAllowed hostState.dev false 2 ≠ 0 ∧ wakeAllowed hostState.dev true 0 = 0 ∧ wakeAllowed hostState.dev true 2 ≠ 0) ∧
      (withPower (fun p => { p with state := 3, exiting := some 8, coasting := some 7 }) hostState).dev.power.xtalLocked = true := by
  decide +kernel

/-! ### PortsFunctionsAndEnablesFollowTheHost: its hypotheses can be met -/

/-- The same part with two ports of which the second may train, NumVFs 4, and PF 1 just reset. -/
def portState : State :=
  { hostState with
    dev := { hostState.dev with
      host := { hostState.dev.host with
        flexVq := Vector.replicate 2 100
        flexVi := Vector.replicate 2 100
        ports := (hostState.dev.host.ports.set 0 { hostState.dev.host.ports[0] with numVfs := 4 }).set 1 { perst := false, training := true }
        ctrls := [(1, { aqa := 0x001F001F })] } } }

theorem witness_PortsFunctionsAndEnablesFollowTheHost :
    hostState.dev.host.ports[0].perst = false ∧ portState.dev.host.ports[1].training = true ∧ portState.dev.host.ports[1].speed = 0 ∧
      hostRuns portState.dev = true ∧ 1 ≤ objNum portState.dev 0x400101 ∧ reached 1 5000000100 hostState.dev = true ∧
      barsOpen 1 5000000100 hostState.dev = true ∧ barsOpen 1 5000000100 portState.dev = true ∧ pfOf 0 = 1 ∧
      (getCtrl (heard 0 5000000100 hostState.dev) 1).any (fun k => k.enabled && k.sqs.all fun q => q.2.inflight.isEmpty) = true ∧
      (getCtrl (heard 0 5000000100 adminState.dev) 1).any (fun k => k.sqs.any fun q => !q.2.inflight.isEmpty) = true ∧
      (getCtrl (heard 0 5000000100 portState.dev) 1).any (fun k => !k.enabled && k.online && decide (k.poolState = 0)) = true ∧
      (heard 0 5000000100 portState.dev).host.ports[0].vfEnable = false ∧
      reservationFits portState.dev { port := 0, vf := 1, dvf := 1 } = true ∧
      reservationFits portState.dev { port := 0, vf := 1, dvf := 1 } = true := by decide +kernel

/-! ### HostTrafficAndRegisterWritesActAsTheRulesSay: its hypotheses can be met -/

/-- The same part with a Put whose data is arriving, a page request out, and output under way. -/
def trafficState : State :=
  { cacheState with
    dev := { (modifyCtrl 1 (fun k => { k with pageRequests := [55] }) cacheState.dev) with
      txn := { state := 1, owner := some (.mctp 9) } } }

theorem witness_HostTrafficAndRegisterWritesActAsTheRulesSay :
    (trafficState.dev.reqs.find? fun kr => kr.2.ctrl = 1 && kr.2.sq = 5 && kr.2.cid = 40 && kr.2.step = .arriving).isSome = true ∧
      reached 1 5000000100 trafficState.dev = true ∧ barsOpen 1 5000000100 trafficState.dev = true ∧ linkUp trafficState.dev 0 = true ∧
      hostRuns (heard 0 5000000100 trafficState.dev) = true ∧ dmaRuns (heard 0 5000000100 trafficState.dev) 1 = false ∧
      dmaRuns (heard 0 5000000100 readState.dev) 1 = true ∧ trafficState.dev.txn.state = 1 ∧
      (getCtrl (heard 0 5000000100 trafficState.dev) 1).any (fun k => decide (0x1C + 4 ≤ barSize k 0 ∧ barSize k 1 < 4 ∧ 7 < msixSize k) &&
        k.pageRequests.contains 55) = true := by decide +kernel

/-! ### KeySlotsAreAllocatedLoadedErasedAndAlarmed: its hypotheses can be met -/

/-- The host's part with KEK 1, a slot that retires and holds a load, a slot that nothing uses, an owner's VF, and both Estuary units. -/
def keyState : State :=
  { hostState with
    dev := { hostState.dev with
      num := mapSet hostState.dev.num 0x410002 0
      fuses := { kek0 := List.replicate 32 0x11, bootKey := hostState.dev.fuses.bootKey }
      host := { hostState.dev.host with
        ctrls := hostState.dev.host.ctrls ++
          [(0x101, { enabled := true, ready := true, port := 0, vf := 1, dvf := 1, poolState := 1, sqs := [(0, { cq := 0, size := 32, tail := 4 })], cqs := [(0, { size := 32 })] })] }
      keys := { hostState.dev.keys with
        kek1 := some (List.replicate 32 0x22)
        estuary := Vector.replicate 2 { testing := true, state := 1 }
        slots :=
          [(4, { allocated := true, type := 1, owner := 1, lastGen := 7
                 retiring := some { gen := 6, key := List.replicate 16 0x5A, kid := [], iv := [], explicitIv := false, kcv := 9, inUse := 1 }
                 held := [{ ctrl := 1, cid := 20, new := { gen := 0, key := [], kid := [], iv := [], explicitIv := false, kcv := 1 }, since := 100 }] }),
           (6, { allocated := true, type := 1, owner := 1, lastGen := 2 })] } } }

/-- A load of a content key under a wrapping code and a key type. -/
def loadBuffer (kt wrapping wl kcv : Nat) (wrapped : Bytes) : Bytes :=
  leBytes 2 1 ++ leBytes 1 kt ++ leBytes 1 wrapping ++ leBytes 2 wl ++ leBytes 2 0 ++ List.replicate 32 1 ++ leBytes 4 kcv ++ leBytes 4 0 ++ padTo 72 wrapped ++
    leBytes 8 0

/-- 16 bytes of 0x77 wrapped under 32 bytes of 0x22 (RFC 3394, worked out with another program). -/
def wrapped16 : Bytes := [212, 91, 35, 25, 47, 39, 254, 180, 249, 223, 148, 226, 119, 185, 62, 225, 118, 79, 180, 235, 211, 150, 226, 2]

/-- 32 bytes of 0x44 wrapped under 32 bytes of 0x11. -/
def wrapped32 : Bytes :=
  [253, 40, 253, 185, 87, 80, 87, 25, 36, 113, 154, 15, 0, 11, 88, 42, 120, 102, 161, 215, 148, 76, 206, 79, 162, 23, 156, 250, 95, 243, 208, 16, 184, 74,
   147, 121, 161, 150, 156, 225]

/-- A key of 16 bytes wrapped under KEK 1. -/
def contentLoad (kcv : Nat) : Bytes := loadBuffer 2 1 24 kcv wrapped16

theorem witness_KeySlotsAreAllocatedLoadedErasedAndAlarmed :
    (List.all [adminOf 1 0, adminOf 0x80000001 9, adminOf 3 0, { adminOf 6 0 with data := contentLoad 0 }, adminOf 0x10006 0] fun c => admitted c true keyState.dev) = true ∧
      admitted { adminOf 0 0 with ctrl := 0x101 } true keyState.dev = true ∧
      (let d := taken (adminOf 1 0) keyState.dev
       lowestSlot d = some 0 ∧ withinLimit d .keySlots 1 = true ∧ specificFree d 1 1 9 = true ∧ specificFree d 1 1 6 = false ∧ relayTargets d = [] ∧
         isPf d 1 = true ∧ isPf d 0x101 = false ∧ withinLimit d .keySlots 0x101 = false ∧ (keySlot d 4).retiring.isSome = true ∧
         (keySlot d 6).owner = 1 ∧ (keySlot d 8).allocated = false ∧ d.reqs = [] ∧ mapWf d.keys.slots = true ∧
         d.keys.estuary[0].testing = true ∧ 100 + 1000000000 ≤ d.tm) := by decide +kernel

theorem witness_KeySlotsAreAllocatedLoadedErasedAndAlarmed_unwraps :
    keyUnwrap (List.replicate 32 0x22) wrapped16 = some (List.replicate 16 0x77) ∧ keyUnwrap (List.replicate 32 0x23) wrapped16 = none := by decide +kernel

theorem witness_KeySlotsAreAllocatedLoadedErasedAndAlarmed_fields :
    (loadFieldsOk (contentLoad 0) && decide (slice (contentLoad 0) 48 24 = wrapped16)) = true ∧
      keyRefused keyState.dev (some 6) (contentLoad 0) (List.replicate 16 0x77) = false ∧
      keyRefused keyState.dev (some 6) (contentLoad 5) (List.replicate 16 0x77) = true := by decide +kernel

theorem witness_KeySlotsAreAllocatedLoadedErasedAndAlarmed_kek :
    (let b := loadBuffer 5 0 40 0 wrapped32
     loadFieldsOk b && (match unwrapLoad none b keyState.dev with
       | .ok k => decide (k = List.replicate 32 0x44)
       | .error _ => false)) = true := by decide +kernel

theorem witness_KeySlotsAreAllocatedLoadedErasedAndAlarmed_locked :
    (let s : State := { keyState with dev := modifyKeys (fun k => { k with locked := true }) keyState.dev }
     admitted (adminOf 1 0) true s.dev = true ∧ (taken (adminOf 1 0) s.dev).keys.locked = true) ∧
      (let s : State := { keyState with dev := modifyKeys (fun k => { k with slots := [(6, { allocated := true, type := 1, owner := 1, lastGen := 2 })] }) keyState.dev }
       (s.dev.keys.slots.all fun ks => ks.2.held.isEmpty) = true ∧ s.dev.reqs = []) := by decide +kernel

/-! ### ObjectsAreReadWrittenAndCommittedOnEveryPath: its hypotheses can be met -/

/-- An Object Read of PF 1 by index and subindex. -/
def readOf (i s : Nat) : Cmd := adminOf (i + 65536 * s) 0

/-- An Object Write of PF 1 of a value by index, subindex and type. -/
def writeOf (i s ty : Nat) (data : Bytes) : Cmd := { adminOf (i + 65536 * s) 0 with cdw12 := data.length + 65536, cdw13 := ty, data := data }

/-- The host's part with a transaction of PF 1 open. -/
def txnState : State :=
  { hostState with dev := { hostState.dev with txn := { state := 1, id := 5, owner := some (.inband 1), activeAt := 5000000000 } } }

/-- The host's part whose AOP has key 2, of role admin. -/
def aopState : State :=
  { hostState with
    dev := { hostState.dev with
      num := mapSet hostState.dev.num 0x201103 2
      aop := { hostState.dev.aop with keys := Vector.ofFn fun i => if i = 2 then some (List.replicate 32 0x77) else none } } }

/-- A read of 0x1100.02. -/
def readRecord : Bytes := leBytes 1 1 ++ leBytes 1 0 ++ leBytes 2 0x1100 ++ leBytes 1 2 ++ leBytes 1 2 ++ List.replicate 10 0

/-- A frame header: key, length, epoch and counter. -/
def aopHeader (key epoch counter : Nat) : Bytes :=
  [0x41, 0x51, 1, 0, BitVec.ofNat 8 key, 0, 1, 0] ++ leBytes 4 epoch ++ leBytes 8 counter ++ leBytes 2 16 ++ [0, 0]

/-- A frame of a payload. -/
def frameOf (payload : Bytes) : AopFrame :=
  { src := 0x3FA * 2 ^ 118 + 5, srcPort := 777, dst := linkLocal, dstPort := objNum aopState.dev 0x202001, hop := 255, fragment := false, checksumOk := true, payload := payload }

theorem witness_ObjectsAreReadWrittenAndCommittedOnEveryPath :
    admitted (readOf 0x1100 2) true hostState.dev = true ∧
      (let d := taken (readOf 0x1100 2) hostState.dev
       pathsClear d = true ∧ isPf d 1 = true ∧ d.txn.formers = [] ∧ d.txn.state = 0 ∧ d.power.phase = .ready ∧
         (let op : ObjOp := { who := .inband 1, write := false, idx := 0x1100, sub := 2 }
          (objectRead op 16384 d).1.code = 0 ∧ (objectRead { op with sub := 99 } 16384 d).1.code = 0xA002) ∧
         (match firstChecks d { who := .inband 1, write := true, idx := 0x1100, sub := 2 } with
          | .ok _ => false
          | .error c => decide (c = 0xA003)) = true ∧
         takesWrite (rowOp (.inband 1) 0x1100 4 .u32 (leBytes 4 2000)) [] d = false ∧
         takesWrite (rowOp (.inband 1) 0x3050 4 .u32 (leBytes 4 2000)) [] d = true ∧
         (anyRow 0x3050 4).any (fun r => r.acc = .rwp && isPra r) = true ∧ toStagedLaw d 0x305004 = false) := by decide +kernel

theorem witness_ObjectsAreReadWrittenAndCommittedOnEveryPath_transaction :
    (let d := taken (adminOf 2 0) txnState.dev
     admitted (adminOf 2 0) true txnState.dev = true ∧ d.txn.state = 1 ∧ d.txn.owner = some (.inband 1) ∧ commitRefused (touchTxn (.inband 1) d) = none ∧
       stagesWrite (rowOp (.inband 1) 0x3050 4 .u32 (leBytes 4 2000)) (touchTxn (.inband 1) d) = true ∧
       (commitRefused { d with txn := { d.txn with partials := [(0x510002, [])] } }).isSome = true) ∧
      (let d := advanceTo 90000000000 txnState.dev
       d.txn.activeAt + objNum d 0x110004 * 1000000 ≤ d.tm) ∧
      roleOf aopState.dev (.aop 2 9) = .admin ∧ pathsAwake aopState.dev = true := by decide +kernel

theorem witness_ObjectsAreReadWrittenAndCommittedOnEveryPath_frames :
    (let d := aopState.dev
     frameHeaderOk (aopHeader 255 0 0 ++ readRecord) = true ∧ frameHeaderOk [] = false ∧ frameFormOk (aopHeader 255 0 0 ++ readRecord) = true ∧
       frameFormOk (aopHeader 255 1 0 ++ readRecord) = false ∧ (takeRecords 1 readRecord).isSome = true ∧ takeRecords 1 [] = none ∧
       (acceptCounter d.aop.replay[2] 1).isSome = true ∧ acceptCounter d.aop.replay[2] 0 = none ∧ d.aop.keys[2].isSome = true ∧ d.aop.keys[1] = none ∧
       d.weir.swapDue = false ∧ pathsClear d = true ∧ objNum d 0x202006 = 0) := by decide +kernel

theorem witness_ObjectsAreReadWrittenAndCommittedOnEveryPath_arrives :
    frameArrives aopState.dev (frameOf (aopHeader 255 0 0 ++ readRecord)) = true ∧ frameArrives aopState.dev { frameOf [] with hop := 1 } = false := by
  constructor
  · simp only [frameArrives, frameOf, decide_true, Bool.and_true]
    decide +kernel
  · simp [frameArrives]

theorem witness_ObjectsAreReadWrittenAndCommittedOnEveryPath_tag :
    (hmacSha256 (List.replicate 32 0x77) (aopHeader 2 0 1 ++ readRecord)).take 16 = [87, 250, 201, 182, 81, 54, 179, 158, 24, 109, 54, 34, 128, 147, 166, 172] ∧
      frameFormOk (aopHeader 2 0 1 ++ readRecord ++ [87, 250, 201, 182, 81, 54, 179, 158, 24, 109, 54, 34, 128, 147, 166, 172]) = true := by decide +kernel

/-! ### ObjectRowsPutTheirValuesInForce: its hypotheses can be met -/

/-- The part with a unit offline, an isolated port, a pass's range and no pass, and the law off or on. -/
def rowState (law : Nat) : State :=
  { hostState with
    dev := { hostState.dev with
      num := mapSet (mapSet (mapSet hostState.dev.num 0x310001 law) 0xA03003 4096) 0xA03001 0
      keys := { hostState.dev.keys with estuary := Vector.replicate 2 { state := 1 } }
      cas := { hostState.dev.cas with ports := hostState.dev.cas.ports.map fun p => { p with state := 3 } } } }

theorem witness_ObjectRowsPutTheirValuesInForce_direct :
    (List.all [(0x6040, 1, ObjType.u64, leBytes 8 77), (0x5800, 9, .u8, [0]), (0x2010, 1, .octets, [0, 0, 0, 0]), (0x3100, 3, .bool, [1]),
      (0x3100, 3, .bool, [0]), (0x3100, 1, .bool, [1]), (0x3100, 1, .bool, [0]), (0xA030, 6, .u8, [1]), (0xA030, 6, .u8, [2]), (0x9000, 1, .u8, [1]),
      (0x9000, 1, .u8, [2]), (0x9200, 64, .u64, leBytes 8 77), (0x9100, 1, .u16, [5, 0]), (0x8010, 7, .u8, [1]), (0x8011, 7, .u8, [1]), (0x3050, 3, .u8, [4])]
      fun x => takesWrite (rowOp (.inband 1) x.1 x.2.1 x.2.2.1 x.2.2.2) [] (taken (adminOf 0 0) (rowState 1).dev)) = true ∧
      admitted (adminOf 0 0) true (rowState 1).dev = true ∧ isPf (taken (adminOf 0 0) (rowState 1).dev) 1 = true ∧ pathsClear (rowState 1).dev = true := by
  decide +kernel

theorem witness_ObjectRowsPutTheirValuesInForce_paths :
    (let d := { aopState.dev with cas := (rowState 1).dev.cas }
     takesWrite (rowOp (.aop 2 9) 0x9000 1 .u8 [1]) [] d = true ∧ takesWrite (rowOp (.aop 2 9) 0x3050 3 .u8 [4]) [] d = true ∧ pathsAwake d = true ∧
       pathsServed d = true ∧ pathsClear d = true) := by decide +kernel

theorem witness_ObjectRowsPutTheirValuesInForce_staged :
    (List.all [(0x6020, 3, ObjType.u32, [0, 0, 0xFF, 0]), (0x5101, 3, .u8, [1]), (0x7102, 0x0B, .octets, [1, 2, 3]), (0x6020, 1, .u32, [0, 0x38, 0xFE, 0])]
      fun x => stagesWrite (rowOp (.inband 1) x.1 x.2.1 x.2.2.1 x.2.2.2) (touchTxn (.inband 1) (taken (adminOf 0 0) txnState.dev))) = true ∧
      (let d := taken (adminOf 0 0) txnState.dev
       (match firstChecks d { rowOp (.inband 1) 0x5101 2 .octets [1, 2, 3] with last := false } with
        | .ok _ => true
        | .error _ => false) = true ∧ largeBytes (dropPartial 0x510102 d) = 0 ∧ d.txn.formers = []) ∧
      (let d := (freezeLaw (rowState 1).dev)
       d.weir.staged.isSome = true ∧ (rowState 1).dev.weir.staged = none ∧ wellWritten (rowOp (.inband 1) 0x3100 3 .bool [0]) d = true ∧ d.txn.state = 0 ∧
         objNum (rowState 0).dev 0x310001 = 0 ∧ objNum (rowState 1).dev 0x310001 = 1 ∧ d.integ.dredge.state ≠ 1 ∧
         passRangeOk d 0 0 0 4096 = true ∧ d.cas.ports[0].state = 3) := by decide +kernel

/-! ### ProgramsAreLoadedChangedQueuedAndRun: its hypotheses can be met -/

/-- An image of one line of code, one entry and a time limit of 50 ms. -/
def progImage : Bytes :=
  [77, 76, 73, 77, 1, 0, 64, 0, 112, 114, 0, 0, 0, 0, 0, 0, 64, 0, 0, 0, 0, 0, 0, 0, 0, 0, 0, 0, 0, 0, 0, 0,
   0, 16, 0, 0, 1, 0, 0, 0, 50, 0, 0, 0, 196, 0, 0, 0, 0, 0, 0, 0, 0, 0, 0, 0, 0, 0, 0, 0, 159, 249, 24, 118,
   8, 0, 0, 0, 0, 0, 0, 0, 0, 0, 0, 0, 0, 0, 0, 0, 0, 0, 0, 0, 0, 0, 0, 0, 0, 0, 0, 0, 0, 0, 0, 0,
   0, 0, 0, 0, 0, 0, 0, 0, 0, 0, 0, 0, 0, 0, 0, 0, 0, 0, 0, 0, 0, 0, 0, 0, 0, 0, 0, 0, 0, 0, 0, 0,
   0, 1, 2, 3, 4, 5, 6, 7, 8, 9, 10, 11, 12, 13, 14, 15, 16, 17, 18, 19, 20, 21, 22, 23, 24, 25, 26, 27, 28, 29, 30, 31,
   32, 33, 34, 35, 36, 37, 38, 39, 40, 41, 42, 43, 44, 45, 46, 47, 48, 49, 50, 51, 52, 53, 54, 55, 56, 57, 58, 59, 60, 61, 62, 63,
   235, 54, 109, 251]

/-- The part with a memory namespace of 1 GiB, a compute namespace, a range set, and a program active in slot 3. -/
def progState : State :=
  { blockState with
    dev := { blockState.dev with
      dram := { blockState.dev.dram with cfg := (8, 16, 1, 6400), trained := true }
      num := mapSet (mapSet blockState.dev.num 0x700001 4) 0x700101 0
      cores := blockState.dev.cores.map fun c => { c with run := .waiting }
      rt := { blockState.dev.rt with
        slots := [(3, { state := 2, owner := 1, lastVersion := 1, current := some { version := 1, image := progImage, base := 34091302912 } })]
        sets := [{ ctrl := 1, id := 1, nsid := 10, ranges := [(0, 128)] }]
        aux := [(10, { isMemory := true, gib := 20, size := 1, attached := [1] }), (11, { isMemory := false, attached := [1] })] } } }

/-- A call of the program by PF 1. -/
def progCall : Invocation := { kind := 2, owner := (1, 5, 9), slot := 3, version := 1, entry := 0, count := 0 }

/-- An I/O command on a namespace. -/
def onNs (nsid : Nat) (data : Bytes) : Cmd := { hostCmd 0 with nsid := nsid, data := data }

theorem witness_ProgramsAreLoadedChangedQueuedAndRun :
    admitted (onNs 11 []) false progState.dev = true ∧ admitted (onNs 10 [1, 2, 3]) false progState.dev = true ∧
      (let d := taken (onNs 11 []) progState.dev
       (attachedAux d 1 11).any (fun n => !n.isMemory) = true ∧ (attachedAux d 1 10).any (fun n => n.isMemory) = true ∧
         (progSlot d 3).state = 2 ∧ (progSlot d 3).owner = 1 ∧ (progSlot d 4).state = 0 ∧
         (match storePlace d 192 with
          | some b => decide (b = 34091302912 + 128)
          | none => false) = true ∧
         rangeOk d 1 (10, 64, 128) = true ∧ rangeOk d 1 (10, 1, 128) = false ∧ rangesTogether [(10, 64, 128)] = true ∧ freeSet d 1 = some 2 ∧
         (setsOf d 1).any (fun x => x.id = 1) = true ∧ (setsOf d 1).any (fun x => x.id = 7) = false ∧ (namedSet d 1 1).isSome = true ∧
         slmStatus { isMemory := true, gib := 20, size := 1 } 0 64 = none ∧ (slmStatus { isMemory := true, gib := 20, size := 1 } (2 ^ 30) 64).isSome = true ∧
         anyPoison d (slmKey { isMemory := true, gib := 20, size := 1 } 0) 64 = false ∧ copyRangeOk d 1 (10, 0, 64) = true ∧ copyRangeOk d 1 (9, 0, 64) = false ∧
         Memory.wf d.mem = true) := by decide +kernel

theorem witness_ProgramsAreLoadedChangedQueuedAndRun_image :
    progRefused progState.dev 3 1 progImage = none ∧ progRefused progState.dev 4 1 progImage = some 7 ∧ progRefused progState.dev 3 1 [] = some 1 := by decide +kernel

theorem witness_ProgramsAreLoadedChangedQueuedAndRun_runs :
    (let d := modifyRt (fun t => { t with calls := [progCall] }) progState.dev
     coreIdle d 5 = true ∧ nextCall d 5 = some progCall ∧ nextCall d 3 = none ∧ coreIdle d 33 = false) ∧
      (let d := modifyRt (fun t => { t with calls := [{ progCall with core := some 5, deadline := 7 }] }) progState.dev
       callOn d 5 = some { progCall with core := some 5, deadline := 7 } ∧ 7 ≤ d.tm) ∧
      (let d := modifyRt (fun t => { t with halts := [(5, [4999999999, 4999999998])] }) (modifyCore 5 (fun c => { c with run := .halted }) progState.dev)
       d.cores[(5 : CoreId)].run = .halted ∧ callOn d 5 = none ∧
         ((d.tm :: mapGetD d.rt.halts 5 []).filter fun t => decide (d.tm < t + 1000000000)).length = 3) := by decide +kernel

theorem witness_ProgramsAreLoadedChangedQueuedAndRun_poisoned :
    (readWords [(1, .uncorrectable)] (wordsOf (slmKey { isMemory := true, gib := 20, size := 1 } 0) 8) 0 progState.dev).1 = true ∧
      ([(10, 0, 8)].foldl (gatherRange 1 [(0, .uncorrectable)]) (false, [], progState.dev)).1 = true := by decide +kernel

/-! ### BlockCommandsReadAndWriteTheirUnits: its hypotheses can be met -/

/-- The part with a block namespace of 4 KiB units, its key, 4 blocks of flash, and units that are buffered, programmed, UNCORRECTABLE and
without an entry. -/
def nvmState : State :=
  { blockState with
    dev := { blockState.dev with
      num := mapSet blockState.dev.num 0x382002 0
      keys := { blockState.dev.keys with nsKeys := [(1, List.replicate 64 0x41)] }
      media := { blockState.dev.media with
        state := 0
        geo := { ce := 1, luns := 1, planes := 1, pages := 4, blocks := 4, cell := 3 }
        buffer := [unitKey 0 5]
        units := [(unitKey 0 5, { ns := 1, lu := 0, seq := 1, data := [1, 2] })]
        store := { blockState.dev.media.store with map := [(mapKey 1 0, 5), (mapKey 1 1, 6), (mapKey 1 2, uncorrectable)] } } } }

/-- A command on the block namespace. -/
def blockOn (data : Bytes) : Cmd := { hostCmd 0 with nsid := 1, data := data }

/-- The namespace as the state holds it. -/
def blockNs : Namespace := { idx := 1, kind := 0, iu := 0, fmt := 0, nsze := 4096, ncap := 4096, attached := [1] }

theorem witness_BlockCommandsReadAndWriteTheirUnits :
    admitted (blockOn []) false nvmState.dev = true ∧
      (let d := taken (blockOn []) nvmState.dev
       attachedNs d 1 1 = some blockNs ∧ mapGet nvmState.dev.media.nss 1 = some blockNs ∧ blockStatus blockNs 1 0 8 false true = none ∧
         blockStatus blockNs 1 0 8 true true = none ∧ (blockStatus blockNs 1 4090 8 true true).isSome = true ∧
         dulbeHit d (blockOn []) blockNs 0 4096 = false ∧ (nsKey d 1).isSome = true ∧ nsKey d 2 = none ∧ d.media.state ≠ 2 ∧
         mapWf d.media.store.map = true ∧ (readUnit blockNs [] [] 2 d).1 = none ∧ (readUnits blockNs [] [] 9 0 d).1 = some [] ∧
         (attachedNs d 1 2).any (fun n => n.kind ≠ 0) = true ∧ attachedNs d 1 77 = none ∧ attachedAux d 1 77 = none) := by decide +kernel

theorem witness_BlockCommandsReadAndWriteTheirUnits_room :
    mayFetchData nvmState.dev 0 = true ∧
      mayFetchData { nvmState.dev with media := { nvmState.dev.media with buffer := List.replicate 192 (unitKey 2 1) } } 0 = false := by decide +kernel

theorem witness_BlockCommandsReadAndWriteTheirUnits_units :
    (let d := nvmState.dev
     d.media.badWords.contains (mapKey 1 0) = false ∧ chunkRebuilding d 1 0 = false ∧ entryOf d 1 0 = some 5 ∧ entryOf d 1 1 = some 6 ∧
       entryOf d 1 3 = none ∧ d.media.buffer.contains (unitKey 0 5) = true ∧ d.media.buffer.contains (unitKey 0 6) = false) := by decide +kernel

/-! ### KeyValueAndReservationCommandsKeepTheirRecords: its hypotheses can be met -/

/-- The part with a Key Value namespace of 16 KiB that holds one value of an empty length, and a reservation on the block namespace. -/
def kvState : State :=
  { nvmState with
    dev := { nvmState.dev with
      keys := { nvmState.dev.keys with nsKeys := [(1, List.replicate 64 0x41), (3, List.replicate 64 0x42)] }
      media := { nvmState.dev.media with
        nss := [(1, { blockNs with rsv := { regs := [{ ctrl := 1, key := 77 }] } }), (3, { idx := 3, kind := 1, iu := 0, fmt := 0, nsze := 16384, ncap := 16384, attached := [1] })]
        store := { nvmState.dev.media.store with kv := [(3, [{ key := [1, 2], base := 0, len := 0 }])] } } } }

/-- A command on the Key Value namespace. -/
def kvOn (data : Bytes) : Cmd := { hostCmd 0 with nsid := 3, data := data }

theorem witness_KeyValueAndReservationCommandsKeepTheirRecords :
    admitted (kvOn [7]) false kvState.dev = true ∧ admitted (blockOn []) false kvState.dev = true ∧
      (let d := taken (kvOn [7]) kvState.dev
       let n : Namespace := { idx := 3, kind := 1, iu := 0, fmt := 0, nsze := 16384, ncap := 16384, attached := [1] }
       attachedNs d 1 3 = some n ∧ mapGet kvState.dev.media.nss 3 = some n ∧ mayFetchData kvState.dev 0 = true ∧ (kvFind d n [1, 2]).isSome = true ∧
         kvFind d n [9] = none ∧ d.media.state = 0 ∧ (nsKey d 3).isSome = true ∧ usedUnits d n + kvUnits n 1 ≤ n.ncap / unitBytes n.iu ∧
         freeRun d n (kvUnits n 1) (nsUnits n) = some 0 ∧ (readUnits n [] [] 0 0 d).1 = some []) := by decide +kernel

theorem witness_KeyValueAndReservationCommandsKeepTheirRecords_reservations :
    (let r : Reservation := { regs := [{ ctrl := 1, key := 77 }], rtype := 1, holder := 1 }
     let ok (x : Except Status Reservation) : Bool := match x with
       | .ok _ => true
       | .error _ => false
     rsvKeyOf r 1 = some 77 ∧ rsvKeyOf r 2 = none ∧ ok (registerRsv 2 0 77 5 false 1 r) = true ∧ ok (registerRsv 2 0 78 5 false 1 r) = false ∧
       ok (acquireRsv 1 77 5 3 1 r) = true ∧ ok (acquireRsv 0 78 0 1 1 r) = false ∧ ok (releaseRsv 0 77 1 1 r) = true ∧ ok (releaseRsv 0 77 2 1 r) = false ∧
       holdsRsv { blockNs with rsv := r } 1 = true ∧ holdsRsv { blockNs with rsv := { r with holder := 9 } } 1 = false ∧
       isRegistrant { blockNs with rsv := r } 2 = false) := by decide +kernel

/-! ### MediaEventsActOnTheirUnitsBandsAndRecords: its hypotheses can be met -/

/-- The part with one unit in the write buffer, an open band of 4 units, a copied band that waits for its erase, a LUN that was silent
twice, and a chunk whose copies are lost. -/
def mediaState : State :=
  { nvmState with
    dev := { nvmState.dev with
      media := { nvmState.dev.media with
        ready := true
        store := { nvmState.dev.media.store with
          bands := [(bandKey 0 0, { cls := 0, num := 0, row := 0, block := 0 }), (bandKey 0 1, { cls := 0, num := 1, row := 0, block := 1, state := .source })] }
        jobs := [{ source := bandKey 0 1, cls := 0, cause := 0, step := .erase }]
        silent := [(lunKey 0 0, 2)]
        rebuilding := [mapKey 1 0]
        badWords := [mapKey 1 1]
        journal := [(1, .checkpoint 1 0)]
        seq := 1 } } }

theorem witness_MediaEventsActOnTheirUnitsBandsAndRecords :
    (let d := mediaState.dev
     d.media.buffer[0]? = some (unitKey 0 5) ∧ d.media.waits = [] ∧
       (mapGet d.media.store.bands (bandOfVua d 0 5)).isSome = true ∧ samePage (unitKey 0 5) (unitKey 0 5) = true ∧ samePage (unitKey 0 5) (unitKey 0 9) = false ∧
       (mapGet d.media.units (unitKey 0 5)).any (fun x => decide (x.lu = 0)) = true ∧ (placeUnit 1 0 0 [1] false d).1 = some 0 ∧ d.media.journal ≠ [] ∧
       (d.media.jobs.find? fun j => j.source = bandKey 0 1 && j.step = .erase).isSome = true ∧ (mapGet d.media.store.bands (bandKey 0 1)).isSome = true ∧
       mapGetD d.media.silent (lunKey 0 0) 0 + 1 = 3 ∧ d.media.lunsRetired.contains (lunKey 0 0) = false ∧ 0 < rowCount d ∧ rowCount d ≤ 1 ∧
       d.media.rebuilding.contains (mapKey 1 0) = true ∧ mapWf d.profiles = true ∧ newestUnit d 1 0 = none ∧
       newestUnit (markProgrammed (unitKey 0 5) d) 1 0 = some 5) := by decide +kernel

theorem witness_MediaEventsActOnTheirUnitsBandsAndRecords_jobs :
    (let j : GcJob := { source := 7, cls := 0, cause := 0, made := [{ ns := 1, lu := 0, src := 5, dst := none }] }
     let d := modifyMedia (fun m => { m with jobs := [j] }) mediaState.dev
     (d.media.jobs.find? fun j => j.source = 7 && j.step = .copy) = some j ∧ copiesDone d j = true ∧
       copiesDone d { j with made := [{ ns := 1, lu := 0, src := 5, dst := some 9 }] } = false) := by decide +kernel

theorem witness_MediaEventsActOnTheirUnitsBandsAndRecords_idle :
    (let d := advanceTo 9000000000 mediaState.dev
     d.media.hostWriteAt + 100000000 ≤ d.tm ∧ d.media.ready = true) ∧ (advanceTo 9 mediaState.dev).tm < 5000000000 + 100000000 := by decide +kernel

/-- The admin queue of the part with a block namespace. -/
def formatState : State :=
  { adminState with dev := { adminState.dev with media := nvmState.dev.media } }

theorem witness_MediaEventsActOnTheirUnitsBandsAndRecords_format :
    (let c := { adminOf 0 0 with nsid := 1 }
     admitted c true formatState.dev = true ∧
       (let d := taken c formatState.dev
        isPf d 1 = true ∧ (mapGet d.media.nss 1).any (fun n => decide (n.kind ≠ 2) && formatOk n 1 && !formatOk n 2) = true ∧ mapGet d.media.nss 77 = none ∧
          mapWf d.media.store.map = true ∧ d.media.store.map.all (fun e => decide (e.1 / 2 ^ 32 < 2 ^ 32)) = true ∧
          d.media.nss.any (fun kn => decide (kn.2.kind ≠ 2)) = true)) := by decide +kernel

theorem witness_MediaEventsActOnTheirUnitsBandsAndRecords_empty :
    (let c := adminOf 0 0
     let s : State := { adminState with dev := modifyMedia (fun m => { m with nss := [] }) adminState.dev }
     let d := taken c s.dev
     admitted c true s.dev = true ∧ isPf d 1 = true ∧ d.media.nss = [] ∧ d.media.waits = [] ∧ d.media.journal = [] ∧ d.media.store.bands = []) := by
  decide +kernel

theorem witness_MediaEventsActOnTheirUnitsBandsAndRecords_waits :
    (let w : MediaWait := { ctrl := 1, cid := 33, opc := 0x80, nsid := 1, bands := [], seq := 0 }
     let d := modifyMedia (fun m => { m with waits := [w, { w with seq := 1 }] }) { mediaState.dev with host := adminState.dev.host }
     w ∈ d.media.waits ∧ (∀ r ∈ d.media.journal, w.seq < r.1) ∧ (getCtrl d 1).any (fun k => (mapGet k.sqs 0).any fun q => (mapGet k.cqs q.cq).isSome) = true ∧
       (d.media.journal.any fun r => decide (r.1 ≤ 1)) = true) := by decide +kernel

/-! ### WeirSamplesRunTheLawAndHoursAreRecorded: its hypotheses can be met -/

/-- The part in service with the factory law, a staged coefficient, an acknowledgement that waits, a ramp and three overruns in a row. -/
def weirState : State :=
  { adminState with
    dev := { adminState.dev with
      num := mapSet (mapSet adminState.dev.num 0x310006 3) 0x310001 1
      weir := { adminState.dev.weir with staged := some [(0x312001, 7)], swapDue := true, acks := [(1, 9)], ramping := 1#4, above := 2 } } }

theorem witness_WeirSamplesRunTheLawAndHoursAreRecorded :
    (let d := advanceTo 5000000100 weirState.dev
     pathsClear d = true ∧ d.power.phase = .ready ∧ objNum d 0x310006 + 1 = 4 ∧ d.weir.failsafe = false ∧ lawOn d = true ∧
       d.weir.staged = some [(0x312001, 7)] ∧ isLawObj 0x312001 = true ∧ mapGetD d.wear 0x312001 0 = 0 ∧
       bits (objNum d 0x313001) 31 28 = 3 ∧ bits (objNum d 0x313002) 31 28 = 4 ∧ bits (objNum d 0x313003) 31 28 = 7 ∧
       bits (objNum d (0x313001 + 15)) 31 28 = 8 ∧ bits (objNum d (0x313001 + 17)) 31 28 = 0 ∧
       objQ d 0x312201 ≤ objQ d 0x312205 ∧ outputLive d 0 = true ∧ objNum d 0x314002 ≤ objNum d 0x314003) ∧
     (weirState.dev.weir.acks = [(1, 9)] ∧ (getCtrl weirState.dev 1).any (fun k => (mapGet k.sqs 0).any fun q => (mapGet k.cqs q.cq).isSome) = true) := by
  decide +kernel

theorem witness_WeirSamplesRunTheLawAndHoursAreRecorded_targets :
    (let d := weirState.dev
     d.weir.lastTarget[(0 : Fin 4)] ≠ some (targetOf d 0) ∧ d.weir.ramping.getLsbD 0 = true ∧ d.weir.ramping.getLsbD 1 = false ∧
       objQ { d with num := mapSet d.num 0x311002 65536 } 0x311002 = 65536 ∧ d.weir.above.testBit 1 = true ∧ d.weir.above.testBit 0 = false ∧
       (let hot := modifyWeir (fun w => { w with x := w.x.set 27 (BitVec.ofNat 32 (120 * 65536)) }) d
        decide (objQ hot 0x315001 < (measured hot 27).toInt) = true)) := by decide +kernel

theorem witness_WeirSamplesRunTheLawAndHoursAreRecorded_stopped :
    (inPhase .off weirState).dev.power.phase = .off ∧ pathsClear (inPhase .off weirState).dev = true ∧
      (withPower (fun p => { p with state := 1 }) weirState).dev.power.state = 1 ∧ (inPhase .flushing weirState).dev.power.phase = .flushing ∧
      (mapGetD weirState.dev.wear 0x304001 0 = 0) := by decide +kernel

/-! ### CascadeMembersJoinElectAndLoseEachOther: its hypotheses can be met -/

/-- The part as a member of a running cascade: its ID, state, master, mode, the other members, and port 1 up. -/
def casState (id state master mode : Nat) (others : List (Nat × Nat)) : State :=
  { readState with
    dev := { readState.dev with
      num := mapSet readState.dev.num 0x101001 id
      cas := { readState.dev.cas with
        state := state
        mode := mode
        configured := mode
        master := master
        formed := decide (2 ≤ state)
        members := others.map fun m => (m.1, { state := m.2 })
        ports := #v[{ state := 1 }, { state := 2, lanes := 4, peer := 1 }] } } }

theorem witness_CascadeMembersJoinElectAndLoseEachOther_ports :
    (let d := advanceTo 6000000000 (casState 0 0 0xFF 3 []).dev
     cflRuns d = true ∧ d.cas.ports[(0 : Fin 2)].state = 1 ∧ peerAllowed d 0 3 = true ∧ peerAllowed d 0 0 = false ∧ d.cas.configured ≠ 0 ∧ d.cas.state < 2 ∧
       selfId d < variantMembers (selfVariant d) ∧ variantMembers (selfVariant (casState 9 0 0xFF 3 []).dev) ≤ selfId (casState 9 0 0xFF 3 []).dev ∧
       anyLink d = true ∧ d.cas.master = 0xFF ∧ listens 1 d = true ∧ listens 0 d = false) ∧
     cflRuns (inPhase .off (casState 0 0 0xFF 3 [])).dev = false := by decide +kernel

theorem witness_CascadeMembersJoinElectAndLoseEachOther_master :
    (let d := received 1 1 6000000000 (casState 0 3 0 3 [(1, 2), (2, 2)]).dev
     listens 1 (advanceTo 6000000000 (casState 0 3 0 3 [(1, 2), (2, 2)]).dev) = true ∧ d.cas.state = 3 ∧ cflRuns d = true ∧
       joinCause d 3 0 3 false = 0 ∧ joinCause d 1 0 3 false = 3 ∧ joinCause d 3 0 1 false = 4 ∧ joinCause d 3 2 3 false = 1 ∧
       mapWf d.cas.members = true ∧ d.cas.ports[(0 : Fin 2)].state ≠ 2 ∧ joinedOthers d = [1, 2] ∧ d.cas.losing = false) := by decide +kernel

theorem witness_CascadeMembersJoinElectAndLoseEachOther_member :
    (let d := received 1 1 6000000000 (casState 2 2 1 3 [(1, 3), (3, 2)]).dev
     d.cas.state = 2 ∧ d.cas.master = 1 ∧ selfId d = 2 ∧ d.cas.mode ≠ 2 ∧ d.cas.heartbeatAt + 50000000 ≤ d.tm ∧
       (let all := (selfId d, anyLink d) :: [(3, true)]
        electionWinner all = some 2 ∧ mayElect (joined d) (some 1) (all.map Prod.fst) = true ∧ mayElect (joined d) (some 1) [3] = false)) ∧
     (casState 2 1 0xFF 3 [(1, 1)]).dev.cas.state = 1 ∧ (casState 2 1 0xFF 3 [(1, 1)]).dev.cas.formed = false ∧
     (casState 2 2 0xFF 3 [(1, 2)]).dev.cas.master = 0xFF ∧ (casState 2 2 1 2 [(1, 3)]).dev.cas.mode = 2 := by decide +kernel

theorem witness_CascadeMembersJoinElectAndLoseEachOther_vote :
    mayElect [0, 1, 2, 3] (some 0) [1, 2] = true ∧ electionWinner [(1, false), (2, true)] = some 2 ∧
      (freshTable [0, 2])[(5 : Fin 64)] = 2 ∧ (tableWithout 2 [0, 2] (freshTable [0, 2]))[(5 : Fin 64)] = 0 := by decide +kernel

/-! ### CascadeForwardsAreServedAnsweredAndEnded: its hypotheses can be met -/

/-- The admin queue of a master whose member 1 has joined. -/
def masterState : State :=
  { casState 0 3 0 1 [(1, 2)] with
    dev := { (casState 0 3 0 1 [(1, 2)]).dev with
      host := adminState.dev.host
      cas := { (casState 0 3 0 1 [(1, 2)]).dev.cas with
        index := [(7, (1, 2))]
        relays := [(4, { opc := 0xC6, ctrl := 1, cid := 33, left := [1], since := 0 })]
        forwards := [(2, { member := 1, req := none, kind := 3, cmd := (1, 0, 33), key := 7, since := 0 }),
                     (3, { member := 1, req := some 9, kind := 0, key := 7, since := 0 })]
        waiting := [(1, 5, 0, 7)] }
      reqs := [(8, { ctrl := 0, sq := 0, cid := 0, op := 2, step := .arriving, key := 7, nsid := 1, len := 100, obj := noObject 7, remote := some (1, 6) }),
               (9, { ctrl := 1, sq := 0, cid := 40, op := 0, key := 7, nsid := 1, len := 4096, obj := { noObject 7 with stored := 100 } })] } }

/-- A Cascade Control command. -/
def casCmd (action m : Nat) : Cmd := { adminOf action m with now := 6000000000 }

theorem witness_CascadeForwardsAreServedAnsweredAndEnded_control :
    (let d := taken (casCmd 1 1) masterState.dev
     admitted (casCmd 1 1) true masterState.dev = true ∧ isPf d 1 = true ∧ d.cas.state = 3 ∧ joined d = [0, 1] ∧ selfId d = 0 ∧
       zeroFrom 12 (casCmd 1 1) = true ∧ zeroFrom 11 (casCmd 0 0) = true ∧
       loadFieldsOk (padTo 128 (leBytes 2 1 ++ leBytes 1 5 ++ leBytes 1 0 ++ leBytes 2 40)) = true ∧ loadFieldsOk (padTo 128 [9]) = false) := by decide +kernel

theorem witness_CascadeForwardsAreServedAnsweredAndEnded_flits :
    (let d := received 1 1 6000000000 masterState.dev
     listens 1 (advanceTo 6000000000 masterState.dev) = true ∧ knows 1 d = true ∧ knows 5 (received 1 5 6000000000 masterState.dev) = false ∧
       (servedPut d 1 6).isSome = true ∧ servedPut d 1 3 = none ∧ (mapGet d.cas.forwards 2).any (fun f => decide (f.req = none)) = true ∧
       (mapGet d.cas.forwards 3).any (fun f => decide (f.req = some 9)) = true ∧ mapGet d.cas.forwards 4 = none ∧ (mapGet d.cas.relays 4).isSome = true ∧
       unitCount 100 = 1 ∧ roundUp (min 4096 100) 16 = 112 ∧ (mapGet d.reqs 9).any (fun r => decide (unitLen r.obj 0 = 112)) = true ∧
       (getCtrl d 1).any (fun k => (mapGet k.sqs 0).any fun q => (mapGet k.cqs q.cq).isSome) = true ∧
       d.cas.mode ≠ 3 ∧ d.cas.rebuilding = false ∧ (mapGet d.cas.index 7).map Prod.fst = some 1 ∧ d.cas.index.length < indexSize d ∧
       100000000 ≤ d.tm ∧ mapWf d.reqs = true ∧ cflRuns d = true) := by decide +kernel

/-- A forward request of member 1 on namespace 2 with a key of kind 5 and a track. -/
def fwdOf (kind track : Nat) : FwdReq :=
  { src := 1, tag := 6, kind := kind, nsid := 2, len := 4096, slot := some 6, gen := 8, ver := 1, key := 4 * 2 ^ 80 + 5 * 2 ^ 64 + track * 2 ^ 32 + 9002 }

theorem witness_CascadeForwardsAreServedAnsweredAndEnded_served :
    (let d := masterState.dev
     (mapGet d.media.nss 2).any (fun n => decide (n.kind = 2 ∧ n.tag = keyTag (fwdOf 0 1).key) && putFits d 1 (fwdOf 1 2).key n 4096 &&
         !putFits { d with media := { d.media with geo := {} } } 1 (fwdOf 1 2).key { n with ncap := 0 } 4096) = true ∧
       mapGet d.media.nss 9 = none ∧ (findObject (fwdOf 2 1).key [] d).1.any (fun x => !x.1.entry.poison && !x.2.2.withdrawn) = true ∧
       (findObject (fwdOf 2 3).key [] d).1.isNone = true ∧ (classSearch (fwdOf 0 1).key 0 [] d).1.any (fun x => !x.1.entry.poison) = true ∧
       (classSearch (fwdOf 0 3).key 0 [] d).1.isNone = true ∧ (nsByTag d 4).isSome = true ∧
       mapGet d.media.titles (keyTag (fwdOf 1 2).key * 2 ^ 32 + keyTitle (fwdOf 1 2).key) = some { slot := 6, kcv := 8 } ∧ profileImage d 1 = none ∧
       (profileImage d 12).any (fun img => !unitMissing d img) = true ∧ slotGen d 6 77 = none) := by decide +kernel

theorem witness_CascadeForwardsAreServedAnsweredAndEnded_member :
    (let d := received 1 1 6000000000 (casState 2 2 1 2 [(1, 3)]).dev
     listens 1 (advanceTo 6000000000 (casState 2 2 1 2 [(1, 3)]).dev) = true ∧ knows 1 d = true ∧ d.cas.state = 2 ∧ d.cas.master = 1 ∧ d.cas.mode = 2) ∧
     (casState 2 2 1 3 [(1, 3)]).dev.cas.mode ≠ 2 := by decide +kernel

/-! ### EveryStepKeepsMemoryInItsForm: its hypotheses can be met -/

theorem witness_EveryStepKeepsMemoryInItsForm : State.reset.MemOk ∧ ∃ t, Machine.step State.reset = .next t := ⟨rfl, _, rfl⟩

theorem witness_EveryStepKeepsMemoryInItsForm_listed :
    ({ State.reset with dev := { State.reset.dev with mem := [(5, 1), (9, 2)] } } : State).MemOk ∧
      Memory.wf [(9, 1), (5, 2)] = false ∧ Memory.wf [(5, 0)] = false := ⟨rfl, by decide, by decide⟩

end Sys2Proof.Tests
end

section
/-! How a request of the host ends: its descriptor, its keys, its pins and its calls are given up, and its completion is posted.  What each step
of the end leaves alone is said once here, for every statement about a request that ends. -/
namespace Sys2Proof.Machine

/-! ## What the end of a request leaves alone -/

/-- What has been sent and what waits for the host is still there, and no object record has changed. -/
structure Dev.Settles (d d' : Dev) : Prop where
  /-- Outputs and waiting completions. -/
  grows : Dev.Grows d d'
  /-- Object records. -/
  objs : d'.media.store.objs = d.media.store.objs

/-- The same, with every request as it was. -/
structure Dev.Leaves (d d' : Dev) : Prop extends Dev.Settles d d' where
  /-- Requests. -/
  reqs : d'.reqs = d.reqs

theorem Dev.Settles.trans {a b c : Dev} (h : Dev.Settles a b) (g : Dev.Settles b c) : Dev.Settles a c :=
  ⟨h.grows.trans g.grows, g.objs.trans h.objs⟩

theorem Dev.Leaves.refl (d : Dev) : Dev.Leaves d d := ⟨⟨.refl d, rfl⟩, rfl⟩

theorem Dev.Leaves.trans {a b c : Dev} (h : Dev.Leaves a b) (g : Dev.Leaves b c) : Dev.Leaves a c :=
  ⟨h.toSettles.trans g.toSettles, g.reqs.trans h.reqs⟩

/-- A change that touches neither the host interface nor what has been sent. -/
theorem Dev.Leaves.of {d d' : Dev} (hh : d'.host = d.host) (ho : d'.out = d.out) (hm : d'.media.store.objs = d.media.store.objs)
    (hr : d'.reqs = d.reqs) : Dev.Leaves d d' := ⟨⟨.of hh fun _ h => ho ▸ h, hm⟩, hr⟩

/-- A report. -/
theorem SameWork.leaves {d d' : Dev} (h : SameWork d d') (g : Dev.Grows d d') : Dev.Leaves d d' :=
  ⟨⟨g, by rw [h.rest]⟩, by rw [h.rest]⟩

/-- Background reclamation. -/
theorem Kept.leaves {d d' : Dev} (h : Kept d d') : Dev.Leaves d d' :=
  ⟨⟨h.grows, by rw [h.data.media]⟩, by rw [h.data.rest]⟩

theorem foldl_leaves {α : Type} (f : Dev → α → Dev) (h : ∀ d a, Dev.Leaves d (f d a)) (l : List α) (d : Dev) : Dev.Leaves d (l.foldl f d) := by
  induction l generalizing d with
  | nil => exact .refl d
  | cons a l ih => exact (h d a).trans (ih _)

theorem foldl_settles {α : Type} (f : Dev → α → Dev) (h : ∀ d a, Dev.Settles d (f d a)) (l : List α) (d : Dev) : Dev.Settles d (l.foldl f d) := by
  induction l generalizing d with
  | nil => exact (Dev.Leaves.refl d).toSettles
  | cons a l ih => exact (h d a).trans (ih _)

/-! ## Counters, messages and completions -/

theorem gaugeAdd_leaves (src w : Nat) (d : Dev) : Dev.Leaves d (gaugeAdd src w d) := (gaugeAdd_same src w d).leaves (gaugeAdd_grows src w d)

theorem gaugeCount_leaves (src : Nat) (d : Dev) : Dev.Leaves d (gaugeCount src d) := gaugeAdd_leaves src 1 d

theorem addNum_leaves (k n : Nat) (d : Dev) : Dev.Leaves d (addNum k n d) := .of rfl rfl rfl rfl

theorem bump_leaves (k : Nat) (d : Dev) : Dev.Leaves d (bump k d) := addNum_leaves k 1 d

theorem emit_leaves (o : Output) (d : Dev) : Dev.Leaves d (emit o d) := (emit_same o d).leaves (emit_grows o d)

theorem sendFlit_leaves (kind m : Nat) (fields : List Nat) (d : Dev) : Dev.Leaves d (sendFlit kind m fields d) :=
  ⟨⟨.of rfl fun _ h => List.mem_cons_of_mem _ h, rfl⟩, rfl⟩

theorem logError_leaves (cls sev code gauge : Nat) (detail : Bytes) (d : Dev) (origin iface : Nat) (conts : List Bytes) :
    Dev.Leaves d (logError cls sev code gauge detail d origin iface conts) :=
  (logError_same cls sev code gauge detail d origin iface conts).leaves (logError_grows cls sev code gauge detail d origin iface conts)

theorem countSessionStatus_leaves (st : Status) (d : Dev) : Dev.Leaves d (countSessionStatus st d) := by
  unfold countSessionStatus
  split
  · exact bump_leaves _ _
  · split
    · exact bump_leaves _ _
    · exact .refl d

theorem finish_leaves (f : Completion) (d : Dev) : Dev.Leaves d (finish f d) :=
  ((((((countSessionStatus_leaves f.st d).trans ((countFailure_same _ _ _ _).leaves (countFailure_grows _ _ _ _))).trans
    ((violationOf_same _ _).leaves (violationOf_grows _ _))).trans ((recordMore_same _ _).leaves (recordMore_grows _ _))).trans
    ((postCqe_same _ _).leaves (postCqe_grows _ _))).trans ((noteStall_same _ _ _).leaves (noteStall_grows _ _ _)))

/-! ## Key generations (R209, R210) -/

theorem modifySlot_leaves (n : Nat) (f : KeySlot → KeySlot) (d : Dev) : Dev.Leaves d (modifySlot n f d) := .of rfl rfl rfl rfl

theorem modifyGen_leaves (n g : Nat) (f : KeyGen → KeyGen) (d : Dev) : Dev.Leaves d (modifyGen n g f d) := .of rfl rfl rfl rfl

theorem completeKey_leaves (ctrl cid opc dw0 dw1 : Nat) (relay : List Nat) (d : Dev) :
    Dev.Leaves d (completeKey ctrl cid opc dw0 dw1 relay d) := by
  unfold completeKey
  split
  · exact sendFlit_leaves _ _ _ _
  · split
    · exact finish_leaves _ _
    · refine Dev.Leaves.trans ?_ (foldl_leaves _ (fun d m => sendFlit_leaves _ m _ d) _ _)
      exact .of rfl rfl rfl rfl

theorem installLoad_leaves (n : Nat) (h : HeldLoad) (d : Dev) : Dev.Leaves d (installLoad n h d) :=
  ((modifySlot_leaves n _ d).trans (gaugeCount_leaves _ _)).trans (completeKey_leaves _ _ _ _ _ _ _)

theorem drainHeld_leaves (n k : Nat) (d : Dev) : Dev.Leaves d (drainHeld n k d) := by
  induction k generalizing d with
  | zero => exact .refl d
  | succ k ih =>
    unfold drainHeld
    dsimp only
    split
    · exact .refl d
    · split
      · exact .refl d
      · exact ((modifySlot_leaves n _ d).trans (installLoad_leaves n _ _)).trans (ih _)

theorem releaseGen_leaves (n g : Nat) (d : Dev) : Dev.Leaves d (releaseGen n g d) :=
  ((modifyGen_leaves n g _ d).trans (modifySlot_leaves n _ _)).trans (drainHeld_leaves n _ _)

theorem releaseUses_leaves (r : Req) (d : Dev) : Dev.Leaves d (releaseUses r d) := by
  have released : ∀ (used : Bool) (n g : Nat) (x : Dev), Dev.Leaves x (if used then releaseGen n g x else x) := by
    intro used n g x
    split
    · exact releaseGen_leaves n g x
    · exact .refl x
  unfold releaseUses
  extract_lets d1
  have store : Dev.Leaves d d1 := by
    unfold d1
    split
    · exact released _ _ _ d
    · exact .refl d
  split
  · exact store.trans (released _ _ _ d1)
  · exact store

/-! ## Queues, calls and forwards (R187, R236, R332, R346, R516) -/

theorem modifyEstuary_leaves (u : Fin 2) (f : EstuaryUnit → EstuaryUnit) (d : Dev) : Dev.Leaves d (modifyEstuary u f d) := .of rfl rfl rfl rfl

theorem leaveEstuary_leaves (tag : Nat) (d : Dev) : Dev.Leaves d (leaveEstuary tag d) := .of rfl rfl rfl rfl

theorem leaveRiffle_leaves (tag : Nat) (d : Dev) : Dev.Leaves d (leaveRiffle tag d) := .of rfl rfl rfl rfl

theorem modifyRt_leaves (f : Runtime → Runtime) (d : Dev) : Dev.Leaves d (modifyRt f d) := .of rfl rfl rfl rfl

theorem unbindVersion_leaves (n v : Nat) (d : Dev) : Dev.Leaves d (unbindVersion n v d) := .of rfl rfl rfl rfl

theorem deleteMemory_leaves (nsid : Nat) (n : AuxNamespace) (d : Dev) : Dev.Leaves d (deleteMemory nsid n d) := by
  unfold deleteMemory
  extract_lets waiting
  refine (modifyRt_leaves _ d).trans (foldl_leaves _ (fun d i => ?_) _ _)
  exact (unbindVersion_leaves i.slot i.version d).trans (finish_leaves _ _)

theorem endDeletes_leaves (d : Dev) : Dev.Leaves d (endDeletes d) := by
  unfold endDeletes
  refine foldl_leaves _ (fun d w => ?_) _ d
  extract_lets l d1
  split
  · exact .refl d
  · have emptied := foldl_leaves (fun d ka => deleteMemory ka.1 ka.2 d) (fun d ka => deleteMemory_leaves ka.1 ka.2 d) l d1
    exact ((modifyRt_leaves _ d).trans emptied).trans (finish_leaves _ _)

theorem idleCore_leaves (n : CoreId) (d : Dev) : Dev.Leaves d (idleCore n d) := .of rfl rfl rfl rfl

theorem dropCall_leaves (i : Invocation) (d : Dev) : Dev.Leaves d (dropCall i d) := by
  unfold dropCall
  extract_lets d1
  have dropped : Dev.Leaves d d1 := modifyRt_leaves _ d
  refine Dev.Leaves.trans ?_ (endDeletes_leaves _)
  split
  · exact dropped.trans (idleCore_leaves _ d1)
  · exact dropped

theorem dropCallsOf_leaves (tag : Nat) (d : Dev) : Dev.Leaves d (dropCallsOf tag d) := by
  unfold dropCallsOf
  exact foldl_leaves _ (fun d i => dropCall_leaves i d) _ d

theorem abortForwards_leaves (tag : Nat) (d : Dev) : Dev.Leaves d (abortForwards tag d) := by
  unfold abortForwards
  refine foldl_leaves _ (fun d kf => ?_) _ d
  have erased : Dev.Leaves d { d with cas := { d.cas with forwards := mapErase d.cas.forwards kf.1 } } := .of rfl rfl rfl rfl
  dsimp only
  split
  · exact erased
  · exact erased.trans (sendFlit_leaves _ _ _ _)

/-! ## Pins, invalidations, titles and sessions (R93, R132, R136, R358) -/

theorem pinBands_leaves (ks : List Nat) (d : Dev) : Dev.Leaves d (pinBands ks d) := by
  unfold pinBands
  refine foldl_leaves _ (fun _ _ => ?_) ks d
  exact .of rfl rfl rfl rfl

theorem unpinBands_leaves (ks : List Nat) (d : Dev) : Dev.Leaves d (unpinBands ks d) := by
  unfold unpinBands
  extract_lets d1
  have lowered : Dev.Leaves d d1 := by
    refine foldl_leaves _ (fun _ _ => ?_) ks d
    exact .of rfl rfl rfl rfl
  exact lowered.trans (.of rfl rfl rfl rfl)

/-- Other registers of the ports change no queue. -/
theorem setPorts_leaves (ps : Vector Port 2) (d : Dev) : Dev.Leaves d { d with host := { d.host with ports := ps } } :=
  ⟨⟨⟨fun _ h => h, fun _ k hk => ⟨k, hk, .refl k⟩⟩, rfl⟩, rfl⟩

theorem releaseInvalidations_leaves (d : Dev) : Dev.Leaves d (releaseInvalidations d) := by
  unfold releaseInvalidations
  refine foldl_leaves _ (fun d p => ?_) _ d
  exact (setPorts_leaves _ d).trans (foldl_leaves _ (fun d i => emit_leaves _ d) _ _)

theorem pruneTitle_leaves (key : Nat) (d : Dev) : Dev.Leaves d (pruneTitle key d) := by
  unfold pruneTitle
  dsimp only
  split
  · exact .refl d
  · exact .of rfl rfl rfl rfl

theorem modifySess_leaves (f : Sessions → Sessions) (d : Dev) : Dev.Leaves d (modifySess f d) := .of rfl rfl rfl rfl

theorem freeIndex_leaves (idx : Nat) (d : Dev) : Dev.Leaves d (freeIndex idx d) := by
  unfold freeIndex
  split
  · split
    · exact modifySess_leaves _ d
    · exact .refl d
  · exact .refl d

theorem leaveSession_leaves (idx : Nat) (ok : Bool) (bytes : Nat) (d : Dev) : Dev.Leaves d (leaveSession idx ok bytes d) :=
  (modifySess_leaves _ d).trans (freeIndex_leaves idx _)

theorem countDelivered_leaves (r : Req) (bytes : Nat) (d : Dev) : Dev.Leaves d (countDelivered r bytes d) := by
  unfold countDelivered
  have counted := (gaugeCount_leaves 0x001 d).trans (gaugeAdd_leaves 0x002 (ceilDiv bytes 4096) _)
  dsimp only
  split
  · exact counted.trans (gaugeCount_leaves _ _)
  · exact counted

/-! ## The end (R25, R27, R127, R143) -/

/-- A change of a controller that keeps its queues. -/
theorem modifyCtrl_leaves (id : Nat) (f : Ctrl → Ctrl) (d : Dev) (hs : ∀ k, (f k).sqs = k.sqs) (hc : ∀ k, (f k).cqs = k.cqs) :
    Dev.Leaves d (modifyCtrl id f d) := ⟨⟨modifyCtrl_grows fun k _ => .of (hs k) (hc k), rfl⟩, rfl⟩

theorem endReq_settles (tag : Nat) (d : Dev) : Dev.Settles d (endReq tag d) := by
  unfold endReq
  split
  · exact (Dev.Leaves.refl d).toSettles
  · rename_i r _
    extract_lets d1 d2 d3 d4 d5
    have erased : Dev.Settles d d1 := ⟨.of rfl fun _ h => h, rfl⟩
    have left : Dev.Leaves d1 d2 :=
      (((abortForwards_leaves tag d1).trans (leaveEstuary_leaves tag _)).trans (leaveRiffle_leaves tag _)).trans (dropCallsOf_leaves tag _)
    have unbound : Dev.Leaves d2 d3 := by
      unfold d3
      split
      · exact unbindVersion_leaves _ _ d2
      · exact .refl d2
    have paged : Dev.Leaves d3 d4 := by
      unfold d4
      split
      · exact modifyCtrl_leaves _ _ d3 (fun _ => rfl) (fun _ => rfl)
      · exact .refl d3
    have given : Dev.Leaves d4 d5 := ((releaseUses_leaves r d4).trans (unpinBands_leaves r.pins _)).trans (releaseInvalidations_leaves _)
    have all : Dev.Leaves d1 d5 := ((left.trans unbound).trans paged).trans given
    split
    · exact erased.trans (all.trans (pruneTitle_leaves _ d5)).toSettles
    · exact erased.trans all.toSettles

/-- The completion of a request. -/
def Req.completion (r : Req) (tag : Nat) (st : Status) (dw0 dw1 : Nat) (record : Bool) : Completion :=
  { ctrl := r.ctrl, sq := r.sq, cid := r.cid, st := st, dw0 := dw0, dw1 := dw1, cdw0 := reqOpc r, nsid := r.nsid, key := r.key, tag := tag
    record := record }

/-- A request that ends gives up what it holds, and then answers the member that sent it, or completes at the host. -/
theorem finishReq_cases {tag : Nat} {d : Dev} {r : Req} (h : mapGet d.reqs tag = some r) (st : Status) (dw0 dw1 bytes : Nat) (record : Bool) :
    ∃ w, Dev.Settles d w ∧
      ((∃ m t, r.ctrl = 0 ∧ r.remote = some (m, t) ∧ finishReq tag st d dw0 dw1 bytes record = sendFlit 5 m [t, st.1, st.2, dw0, dw1] w) ∨
        finishReq tag st d dw0 dw1 bytes record = finish (r.completion tag st dw0 dw1 record) w) := by
  unfold finishReq
  simp -zeta only [h]
  extract_lets d1 d2 d3 d4
  have ended : Dev.Settles d d1 := endReq_settles tag d
  have left : Dev.Leaves d1 d2 := by
    unfold d2
    split
    · exact leaveSession_leaves _ _ _ d1
    · exact .refl d1
  have counted : Dev.Leaves d2 d3 := by
    unfold d3
    split
    · exact countDelivered_leaves r bytes d2
    · exact .refl d2
  have retried : Dev.Leaves d3 d4 := by
    unfold d4
    split
    · exact (gaugeCount_leaves _ d3).trans (bump_leaves _ _)
    · exact .refl d3
  refine ⟨d4, ended.trans ((left.trans counted).trans retried).toSettles, ?_⟩
  split
  · rename_i m t hm
    split
    · rename_i h0
      exact .inl ⟨m, t, h0, hm, rfl⟩
    · exact .inr rfl
  · exact .inr rfl

theorem finishReq_settles (tag : Nat) (st : Status) (d : Dev) (dw0 dw1 bytes : Nat) (record : Bool) :
    Dev.Settles d (finishReq tag st d dw0 dw1 bytes record) := by
  cases h : mapGet d.reqs tag with
  | none =>
    unfold finishReq
    simp only [h]
    exact (Dev.Leaves.refl d).toSettles
  | some r =>
    obtain ⟨w, hw, ⟨m, t, _, _, e⟩ | e⟩ := finishReq_cases h st dw0 dw1 bytes record
    · exact e ▸ hw.trans (sendFlit_leaves _ _ _ w).toSettles
    · exact e ▸ hw.trans (finish_leaves _ w).toSettles

/-- A request of a controller of this part completes there. -/
theorem finishReq_posted {tag : Nat} {d : Dev} {r : Req} (h : mapGet d.reqs tag = some r) (hc : r.ctrl ≠ 0) (hq : hasQueues r.ctrl r.sq d)
    (st : Status) (dw0 dw1 bytes : Nat) (record : Bool) :
    Posted r.ctrl r.sq r.cid st dw0 dw1 (finishReq tag st d dw0 dw1 bytes record) := by
  obtain ⟨w, hw, ⟨_, _, h0, _⟩ | e⟩ := finishReq_cases h st dw0 dw1 bytes record
  · exact absurd h0 hc
  · rw [e]
    exact finish_posted (r.completion tag st dw0 dw1 record) w (hq.grows hw.grows)

end Sys2Proof.Machine
end

section
/-! Session Open, Close, Query and the idle check (R130 to R134). -/
namespace Sys2Proof.Machine

/-! ## An admitted Delivery command reaches its work (R122, R123) -/

theorem admitted_checks {c : Cmd} {admin : Bool} {d : Dev} (h : admitted c admin d = true) :
    fieldsOk c admin = true ∧ d.media.state ≠ 3 ∧ c.xfer = .ok := by
  unfold admitted at h
  split at h
  · cases h
  · simp only [Bool.and_eq_true, decide_eq_true_eq] at h
    obtain ⟨⟨⟨⟨_, hf⟩, _⟩, hm⟩, hx⟩ := h
    exact ⟨hf, hm, hx⟩

/-- Taking an entry changes the host interface and the time alone. -/
theorem taken_media (c : Cmd) (d : Dev) : (taken c d).media = d.media := by
  unfold taken
  split
  · rfl
  · unfold wakeCtrl
    split <;> rfl

theorem withData_ok {c : Cmd} (f : Dev → Dev) (d : Dev) (h : c.xfer = .ok) : withData c f d = f d := by
  simp only [withData, xferStatus, h]

theorem deliveryCmd_admitted {c : Cmd} {takesNs takesLen : Bool} {d : Dev} (f : Dev → Dev) (h : admitted c false d = true) (h3 : c.cdw3 = 0)
    (hn : takesNs = true ∨ c.nsid = 0) (hl : takesLen = true ∨ c.cdw2 = 0) : deliveryCmd c takesNs takesLen f d = f (taken c d) := by
  obtain ⟨hf, hm, _⟩ := admitted_checks h
  unfold deliveryCmd ioCmd
  rw [fetchCmd_admitted _ h, taken_media, if_neg hm, if_pos hf]
  have refused : ((!takesNs && c.nsid ≠ 0) || c.cdw3 ≠ 0 || (!takesLen && c.cdw2 ≠ 0)) = false := by
    rcases hn with hn | hn <;> rcases hl with hl | hl <;> simp [hn, hl, h3]
  simp only [refused, Bool.false_eq_true, if_false]

/-! ## Eddy's entries (R250, R256) -/

theorem foldl_field {α β : Type} (g : Dev → β) (f : Dev → α → Dev) (h : ∀ d a, g (f d a) = g d) (l : List α) (d : Dev) :
    g (l.foldl f d) = g d := by
  induction l generalizing d with
  | nil => rfl
  | cons a l ih => exact (ih _).trans (h d a)

theorem putEntry_leaves (a : Nat) (e : EddyEntry) (d : Dev) : Dev.Leaves d (putEntry a e d) := .of rfl rfl rfl rfl

theorem eddyInvalidate_leaves (a : Nat) (d : Dev) : Dev.Leaves d (eddyInvalidate a d) := .of rfl rfl rfl rfl

theorem eddySetData_leaves (a : Nat) (data : BitVec 128) (d : Dev) : Dev.Leaves d (eddySetData a data d) := .of rfl rfl rfl rfl

theorem eddyInvalidateWhere_leaves (p : Nat → EddyEntry → Bool) (d : Dev) : Dev.Leaves d (eddyInvalidateWhere p d) := by
  unfold eddyInvalidateWhere
  exact foldl_leaves _ (fun d a => eddyInvalidate_leaves a d) _ d

theorem eddyInvalidateWhere_sess (p : Nat → EddyEntry → Bool) (d : Dev) : (eddyInvalidateWhere p d).sess = d.sess := by
  unfold eddyInvalidateWhere
  refine foldl_field Dev.sess _ (fun _ _ => ?_) _ d
  rfl

theorem eddyInsert_leaves (p : Nat) (key : BitVec 128) (prio : BitVec 8) (data : BitVec 128) (d : Dev) :
    Dev.Leaves d (eddyInsert p key prio data d).2 := by
  unfold eddyInsert
  split
  · exact .refl d
  · exact (addNum_leaves _ _ d).trans (putEntry_leaves _ _ _)

/-! ## The session table (R18, R19, R130, R132) -/

theorem gaugeCount_sess (src : Nat) (d : Dev) : (gaugeCount src d).sess = d.sess := by
  rw [(gaugeCount_same src d).rest]

theorem labelSession_leaves (ctrl label handle : Nat) (d : Dev) : Dev.Leaves d (labelSession ctrl label handle d) := by
  unfold labelSession
  have inserted := eddyInsert_leaves 1 (BitVec.ofNat 128 (label + ctrl % 65536 * 2 ^ 32)) 0x80 (BitVec.ofNat 128 handle) d
  split
  · exact .refl d
  · split
    · rename_i h
      rw [h] at inserted
      exact inserted
    · rename_i h
      rw [h] at inserted
      exact (inserted.trans (bump_leaves _ _)).trans (gaugeCount_leaves _ _)

theorem closeSession_leaves (i : Nat) (d : Dev) : Dev.Leaves d (closeSession i d) := by
  unfold closeSession
  split
  · exact .refl d
  · split
    · exact .refl d
    · extract_lets d1
      have closed : Dev.Leaves d d1 := (modifySess_leaves _ d).trans (gaugeCount_leaves _ _)
      exact (closed.trans (eddyInvalidateWhere_leaves _ d1)).trans (freeIndex_leaves i _)

theorem freeIndex_sess {i : Nat} {d : Dev} {ses : Session} (h : mapGet d.sess.tab i = some ses) (hc : ses.isOpen = false) :
    (freeIndex i d).sess =
      if ses.inFlight = 0 then { d.sess with tab := mapErase d.sess.tab i, freed := d.sess.freed ++ [i] } else d.sess := by
  unfold freeIndex
  by_cases hf : ses.inFlight = 0 <;> simp [h, hc, hf, modifySess]

/-- A session that closes leaves the table at once where none of its requests is in flight; else its row stays, closed. -/
theorem closeSession_sess {i : Nat} {d : Dev} {ses : Session} (h : mapGet d.sess.tab i = some ses) (ho : ses.isOpen = true) :
    (closeSession i d).sess =
      if ses.inFlight = 0 then
        { d.sess with tab := mapErase (mapSet d.sess.tab i { ses with isOpen := false }) i, freed := d.sess.freed ++ [i] }
      else { d.sess with tab := mapSet d.sess.tab i { ses with isOpen := false } } := by
  unfold closeSession
  simp -zeta only [h, ho, Bool.not_true, Bool.false_eq_true, if_false]
  extract_lets d1
  have closed : (eddyInvalidateWhere (fun a e => e.valid && inPartition d1 1 a && e.data.toNat = handleOf i ses.inc) d1).sess =
      { d.sess with tab := mapSet d.sess.tab i { ses with isOpen := false } } :=
    (eddyInvalidateWhere_sess _ d1).trans (gaugeCount_sess _ _)
  rw [freeIndex_sess (ses := { ses with isOpen := false }) (by rw [closed]; exact mapGet_set _ _ _) rfl, closed]

/-! ## The commands -/

/-- The session that a Session Open records (R130). -/
def newSession (c : Cmd) (inc opened : Nat) : Session :=
  { inc := inc, ctrl := c.ctrl, content := if bit c.cdw10 15 then some (bits c.cdw10 12 0) else none
    transport := if bit c.cdw10 31 then some (bits c.cdw10 28 16) else none, label := c.cdw11, idle := bits c.cdw12 15 0, opened := opened }

/-- The part with a session recorded under its index and, where it has a label, in partition 1 (R130, R256). -/
def sessionOpened (c : Cmd) (i : Nat) (t : Sessions) (d : Dev) : Dev :=
  let inc := nextInc (mapGetD t.incs i 0)
  labelSession c.ctrl c.cdw11 (handleOf i inc)
    { d with sess := { t with tab := mapSet t.tab i (newSession c inc d.tm), incs := mapSet t.incs i inc } }

theorem openSessionCmd_ok {c : Cmd} {d : Dev} {i : Nat} {t : Sessions} (h1 : zeroBits c.cdw10 14 13 = true) (h2 : zeroBits c.cdw10 30 29 = true)
    (h3 : zeroBits c.cdw12 31 16 = true) (h4 : zeroFrom 13 c = true)
    (hs : ∀ x ∈ openSlots c, (keySlot d x.1).allocated = true ∧ (keySlot d x.1).owner = c.ctrl ∧ (keySlot d x.1).type = x.2)
    (hl : withinLimit d .sessions c.ctrl = true) (hi : takeIndex d = some (i, t)) :
    openSessionCmd c d =
      done c stOk (gaugeCount 0x006 (sessionOpened c i t d)) (dw0 := handleOf i (nextInc (mapGetD t.incs i 0))) := by
  have owned : ((openSlots c).any fun s => !(keySlot d s.1).allocated || (keySlot d s.1).owner ≠ c.ctrl) = false := by
    refine List.any_eq_false.mpr fun x hx => ?_
    obtain ⟨ha, ho, _⟩ := hs x hx
    simp [ha, ho]
  have typed : ((openSlots c).any fun s => (keySlot d s.1).type ≠ s.2) = false := by
    refine List.any_eq_false.mpr fun x hx => ?_
    obtain ⟨_, _, ht⟩ := hs x hx
    simp [ht]
  unfold openSessionCmd
  simp only [h1, h2, h3, h4, owned, typed, hl, hi, Bool.and_self, Bool.not_true, Bool.false_eq_true, if_false]
  rfl

theorem closeSessionCmd_ok {c : Cmd} {d : Dev} {ses : Session} (h : zeroFrom 11 c = true) (hs : sessionFor d c.ctrl c.cdw10 = some ses) :
    closeSessionCmd c d = done c stOk (closeSession (c.cdw10 % 65536) d) (dw0 := ses.inFlight) := by
  simp only [closeSessionCmd, h, hs, Bool.not_true, Bool.false_eq_true, if_false]

theorem querySession_ok {c : Cmd} {d : Dev} {ses : Session} (h : zeroFrom 11 c = true) (hs : sessionFor d c.ctrl c.cdw10 = some ses)
    (hx : c.xfer = .ok) : querySession c d = done c stOk (sendData c (sessionRecord c.cdw10 ses) d) := by
  simp only [querySession, h, hs, Bool.not_true, Bool.false_eq_true, if_false, withData_ok _ d hx]

section
variable {c : Cmd} {s : State} (ha : admitted c false s.dev = true) (hn : c.nsid = 0) (h2 : c.cdw2 = 0) (h3 : c.cdw3 = 0)
include ha hn h2 h3

/-- A session command, which takes no namespace and no length, does its own work. -/
theorem run_sessionCmd (opc : Nat) (f : Dev → Dev) :
    run (deliveryCmd (withOp opc c) false false f) s = .next { s with dev := f (taken c s.dev) } := by
  have work := deliveryCmd_admitted (c := withOp opc c) (takesNs := false) (takesLen := false) f ha h3 (.inr hn) (.inr h2)
  unfold run
  rw [work]
  rfl

theorem sessionOpen_completes {i : Nat} {t : Sessions} (z1 : zeroBits c.cdw10 14 13 = true) (z2 : zeroBits c.cdw10 30 29 = true)
    (z3 : zeroBits c.cdw12 31 16 = true) (z4 : zeroFrom 13 c = true)
    (hs : ∀ x ∈ openSlots c, (keySlot (taken c s.dev) x.1).allocated = true ∧ (keySlot (taken c s.dev) x.1).owner = c.ctrl ∧
      (keySlot (taken c s.dev) x.1).type = x.2)
    (hl : withinLimit (taken c s.dev) .sessions c.ctrl = true) (hi : takeIndex (taken c s.dev) = some (i, t)) :
    Completes (.sessionOpen c) c stOk (handleOf i (nextInc (mapGetD t.incs i 0))) 0 (sessionOpened c i t (taken c s.dev)) s := by
  have recorded : ∀ d : Dev, Dev.Grows d (sessionOpened c i t d) := fun d => by
    unfold sessionOpened
    refine Dev.Grows.trans ?_ (labelSession_leaves _ _ _ _).grows
    exact .of rfl fun _ h => h
  have ran : exec (.sessionOpen c) s = .next { s with dev := openSessionCmd (withOp 0x80 c) (taken c s.dev) } :=
    run_sessionCmd ha hn h2 h3 0x80 _
  rw [openSessionCmd_ok (c := withOp 0x80 c) z1 z2 z3 z4 hs hl hi] at ran
  exact Completes.of_done (c := withOp 0x80 c) ran
    ((taken_queues ha).grows ((recorded _).trans (gaugeCount_grows _ _))) (gaugeCount_same _ _) (by decide) (by decide) (fun _ h => by cases h)

theorem sessionClose_completes {ses : Session} (z : zeroFrom 11 c = true) (hs : sessionFor (taken c s.dev) c.ctrl c.cdw10 = some ses) :
    Completes (.sessionClose c) c stOk ses.inFlight 0 (closeSession (c.cdw10 % 65536) (taken c s.dev)) s := by
  have ran : exec (.sessionClose c) s = .next { s with dev := closeSessionCmd (withOp 0x84 c) (taken c s.dev) } :=
    run_sessionCmd ha hn h2 h3 0x84 _
  rw [closeSessionCmd_ok (c := withOp 0x84 c) z hs] at ran
  exact Completes.of_done (c := withOp 0x84 c) ran ((taken_queues ha).grows (closeSession_leaves _ _).grows) (.refl _) (by decide) (by decide)
    (fun _ h => by cases h)

theorem sessionQuery_completes {ses : Session} (z : zeroFrom 11 c = true) (hs : sessionFor (taken c s.dev) c.ctrl c.cdw10 = some ses) :
    Completes (.sessionQuery c) c stOk 0 0 (taken c s.dev) s [.data c.ctrl c.cid (sessionRecord c.cdw10 ses)] := by
  have ran : exec (.sessionQuery c) s = .next { s with dev := querySession (withOp 0x8A c) (taken c s.dev) } :=
    run_sessionCmd ha hn h2 h3 0x8A _
  obtain ⟨_, _, hx⟩ := admitted_checks ha
  rw [querySession_ok (c := withOp 0x8A c) z hs hx] at ran
  refine Completes.of_done (c := withOp 0x8A c) ran ((taken_queues ha).grows (emit_grows _ _)) (emit_same _ _) (by decide) (by decide) fun o h => ?_
  rw [List.mem_singleton.mp h]
  exact List.mem_cons_self

end

end Sys2Proof.Machine

open Sys2Proof Sys2Proof.Machine

/-- Settles O34: each command runs its own work on the part with its entry taken, and that work ends in `done`; a close goes through the
table's row and then through `freeIndex`. -/
theorem sessionsOpenCloseAndAnswer : Obligations.SessionsOpenCloseAndAnswer := by
  refine ⟨fun c s ha hn h2 h3 => ⟨fun z1 z2 z3 z4 hs hl i t hi => ?_, fun z ses hs => ⟨?_, ?_⟩⟩, fun d i ses h ho => ?_, fun now s => rfl⟩
  · exact sessionOpen_completes ha hn h2 h3 z1 z2 z3 z4 hs hl hi
  · exact sessionClose_completes ha hn h2 h3 z hs
  · exact sessionQuery_completes ha hn h2 h3 z hs
  · exact closeSession_sess h ho

end

section
/-! Stream Read from admission to its completion (R22 to R26, R83, R142, R143, R187, R189, R358, R373). -/
namespace Sys2Proof.Machine

/-! ## Requests -/

theorem Dev.Leaves.req {d d' : Dev} (h : Dev.Leaves d d') (tag : Nat) : mapGet d'.reqs tag = mapGet d.reqs tag := by rw [h.reqs]

theorem modifyReq_self {tag : Nat} {d : Dev} {r : Req} (f : Req → Req) (h : mapGet d.reqs tag = some r) :
    mapGet (modifyReq tag f d).reqs tag = some (f r) := by
  rw [modifyReq_get, if_pos rfl, h]
  rfl

/-- A request of a controller of this part is not one that sends stored units to another member. -/
theorem servesRaw_of_ctrl {r : Req} (h : r.ctrl ≠ 0) : servesRaw r = false := by
  simp [servesRaw, h]

/-! ## Admission (R22, R23) -/

theorem enterRead_tag (r : Req) (slot : Option Nat) (d : Dev) : (enterRead r slot d).1 = d.host.nextTag := rfl

/-- A request that enters stands under its tag, with its key. -/
theorem enterRead_req (r : Req) (slot : Option Nat) (d : Dev) :
    ∃ r', mapGet (enterRead r slot d).2.reqs (enterRead r slot d).1 = some r' ∧ r'.key = r.key := by
  unfold enterRead
  exact ⟨_, ((gaugeCount_leaves 0x000 _).req _).trans (mapGet_set _ _ _), rfl⟩

theorem locateRead_here {tag : Nat} {d : Dev} {r : Req} (bad : List Nat) (mapBad : Option Nat) (h : mapGet d.reqs tag = some r)
    (hp : placedOn d r.key = none) : locateRead tag bad mapBad d = admitHere tag bad mapBad d := by
  simp only [locateRead, h, hp]

/-- The request and the session slot with which a Stream Read enters (R22). -/
def entersAs (c : Cmd) (n : Namespace) (img : Bytes) (d : Dev) : Nat × Dev :=
  enterRead (readRequest c (withTag (cmdKey c) n.tag) (c.cdw11 % 64) img (mapGetD d.profiles (c.cdw11 % 64) {}).version)
    (if imgScheme img = 0 then none else schemeSlot d c img) d

/-- A Stream Read that passes checks 1 to 5 of R22, with its key held here, enters and goes on to check 6. -/
theorem streamRead_enters {c : Cmd} {d : Dev} {n : Namespace} {img : Bytes} (bad : List Nat) (mapBad : Option Nat)
    (z1 : zeroBits c.cdw11 7 6 = true) (z2 : zeroBits c.cdw11 31 10 = true) (hl : bit c.cdw11 9 = true ∨ lengthOk c.cdw2 = true)
    (hk : keyClean (cmdKey c) = true) (ht : keyKind (cmdKey c) < 6) (hn : attachedNs d c.ctrl c.nsid = some n) (h2 : n.kind = 2)
    (hi : profileImage d (c.cdw11 % 64) = some img) (hh : handleOk d c (some img) = true) (hu : unitMissing d img = false)
    (hs : sessionKeyMissing d c img = false) (hx : c.xfer = .ok)
    (hp : placedOn (entersAs c n img d).2 (withTag (cmdKey c) n.tag) = none) :
    streamRead c bad mapBad false d = admitHere (entersAs c n img d).1 bad mapBad (entersAs c n img d).2 := by
  obtain ⟨r', hr, hkey⟩ := enterRead_req
    (readRequest c (withTag (cmdKey c) n.tag) (c.cdw11 % 64) img (mapGetD d.profiles (c.cdw11 % 64) {}).version)
    (if imgScheme img = 0 then none else schemeSlot d c img) d
  have located := locateRead_here bad mapBad hr (by rw [hkey]; exact hp)
  have fields : (zeroBits c.cdw11 7 6 && zeroBits c.cdw11 31 10 && (bit c.cdw11 9 || lengthOk c.cdw2) && keyClean (cmdKey c) &&
      decide (keyKind (cmdKey c) < 6)) = true := by
    rw [z1, z2, hk, decide_eq_true ht]
    rcases hl with h | h <;> simp [h]
  unfold streamRead nsCmd
  simp only [fields, hn, h2, hi, hh, hu, hs, withData_ok _ _ hx, Bool.not_true, Bool.false_eq_true, Bool.false_and, if_false, if_true, ite_self]
  exact located

/-- Either row of Stream Read does its work with SIZE as the row has it (R140). -/
theorem exec_streamRead {c : Cmd} {s : State} (size : Bool) (bad : List Nat) (mapBad : Option Nat) (ha : admitted c false s.dev = true)
    (h3 : c.cdw3 = 0) :
    exec (if size then .streamReadSize c bad mapBad else .streamRead c bad mapBad false) s =
      .next { s with dev := streamRead (withSize size c) bad mapBad false (taken c s.dev) } := by
  have work := deliveryCmd_admitted (c := withSize size c) (takesNs := true) (takesLen := true)
    (streamRead (withSize size c) bad mapBad false) ha h3 (.inl rfl) (.inl rfl)
  have ran : exec (if size then .streamReadSize c bad mapBad else .streamRead c bad mapBad false) s =
      run (deliveryCmd (withSize size c) true true (streamRead (withSize size c) bad mapBad false)) s := by
    cases size <;> rfl
  rw [ran]
  unfold run
  rw [work]
  rfl

/-! ## Check 6, the storage key and the map (R22, R23, R255, R358) -/

theorem raiseEvent_leaves (d : Dev) : Dev.Leaves d (raiseEvent d) := .of rfl rfl rfl rfl

theorem parityFail_leaves (a : Nat) (d : Dev) : Dev.Leaves d (parityFail a d) :=
  (((putEntry_leaves a _ d).trans (bump_leaves _ _)).trans (gaugeCount_leaves _ _)).trans (raiseEvent_leaves _)

theorem eddySearchLoop_leaves (k p mask : Nat) (key : BitVec 128) (bad : List Nat) (d : Dev) :
    Dev.Leaves d (eddySearchLoop k p mask key bad d).2 := by
  induction k generalizing bad d with
  | zero => exact .refl d
  | succ k ih =>
    unfold eddySearchLoop
    split
    · exact .refl d
    · split
      · exact (parityFail_leaves _ d).trans (ih _ _)
      · exact .refl d

theorem eddySearch_leaves (p mask : Nat) (key : BitVec 128) (bad : List Nat) (d : Dev) : Dev.Leaves d (eddySearch p mask key bad d).2 :=
  (bump_leaves _ d).trans (eddySearchLoop_leaves _ _ _ _ _ _)

theorem findObject_leaves (key : Nat) (bad : List Nat) (d : Dev) : Dev.Leaves d (findObject key bad d).2 := by
  have searched := eddySearch_leaves 0 0 (BitVec.ofNat 128 key) bad d
  unfold findObject
  split
  · rename_i h
    rw [h] at searched
    exact searched
  · rename_i h
    rw [h] at searched
    split <;> exact searched

theorem classSearch_leaves (key cls : Nat) (bad : List Nat) (d : Dev) : Dev.Leaves d (classSearch key cls bad d).2.2 := by
  have first := findObject_leaves (withClass key cls) bad d
  unfold classSearch
  split
  · rename_i h
    rw [h] at first
    exact first
  · rename_i d1 h
    rw [h] at first
    split
    · exact first
    · have second := findObject_leaves (withClass key 0) bad d1
      split <;> rename_i h2 <;> rw [h2] at second <;> exact first.trans second

/-- What check 6 records in a request. -/
def Req.found (r : Req) (o : ObjRec) (rec : Nat) (back : Bool) : Req := { r with obj := o, recNo := rec, fallback := back }

theorem bindObject_found {tag rec : Nat} {bad : List Nat} {back : Bool} {d d1 : Dev} {r : Req} {h : EddyHit} {o : ObjRec}
    (hr : mapGet d.reqs tag = some r) (hc : classSearch r.key (imgClass r.image) bad d = (some (h, rec, o), back, d1))
    (hp : h.entry.poison = false) (hw : o.withdrawn = false) :
    mapGet (bindObject tag bad d).reqs tag = some (r.found o rec back) ∧ (bindObject tag bad d).keys = d1.keys ∧
      (bindObject tag bad d).media = d1.media := by
  have searched := classSearch_leaves r.key (imgClass r.image) bad d
  rw [hc] at searched
  have same : SameWork d1 (if back then gaugeCount 0x00C d1 else d1) := by
    split
    · exact gaugeCount_same _ _
    · exact .refl d1
  have still : mapGet (if back then gaugeCount 0x00C d1 else d1).reqs tag = some r := by
    rw [same.rest]
    exact (searched.req tag).trans hr
  have found : bindObject tag bad d = modifyReq tag (fun r => r.found o rec back) (if back then gaugeCount 0x00C d1 else d1) := by
    simp only [bindObject, hr, hc, hp, hw, Bool.false_eq_true, if_false]
    rfl
  rw [found]
  refine ⟨modifyReq_self _ still, ?_, ?_⟩
  · rw [modifyReq_keys, same.rest]
  · rw [modifyReq_media, same.rest]

/-- A request with a storage generation in use. -/
def Req.stores (r : Req) (g : Option (Nat × Nat)) : Req := { r with store := g, storeUse := true }

theorem bindStorage_loaded {tag : Nat} {d : Dev} {r : Req} (hr : mapGet d.reqs tag = some r) (hs : 0 < r.obj.stored)
    (hl : storageLoaded d r.obj.slot = true) :
    mapGet (bindStorage tag d).reqs tag = some (r.stores ((keySlot d r.obj.slot).current.map fun g => (r.obj.slot, g.gen))) ∧
      (bindStorage tag d).media = d.media := by
  have current : (keySlot d r.obj.slot).current.isSome = true := by
    simp only [storageLoaded, Bool.and_eq_true] at hl
    exact hl.2
  obtain ⟨k, hk⟩ := Option.isSome_iff_exists.mp current
  have bound : bindStorage tag d = modifyReq tag (fun q => q.stores (some (q.obj.slot, k.gen)))
      (modifyGen r.obj.slot k.gen (fun k => { k with inUse := k.inUse + 1 }) d) := by
    simp only [bindStorage, bindGen, hr, hl, hk, Nat.ne_of_gt hs, Bool.not_true, Bool.false_eq_true, if_false, Option.map_some, Option.isSome_some]
    rfl
  rw [bound, hk]
  exact ⟨modifyReq_self _ (((modifyGen_leaves _ _ _ d).req tag).trans hr), rfl⟩

/-- The map entries of an object in a namespace. -/
def objEntries (d : Dev) (n : Namespace) (o : ObjRec) : List (Option Nat) := (List.range o.units).map fun u => entryOf d n.idx (o.base + u)

/-- A request with its map entries, their bands pinned. -/
def Req.mapped (r : Req) (es : List (Option Nat)) (pins : List Nat) : Req := { r with entries := es, pins := pins }

theorem readMap_readable {tag x : Nat} {d : Dev} {r : Req} {n : Namespace} (hr : mapGet d.reqs tag = some r)
    (hn : nsByTag d (keyTag r.key) = some (x, n)) (hs : 0 < r.obj.stored)
    (hm : ∀ u < r.obj.units, mapKey n.idx (r.obj.base + u) ∉ d.media.badWords ∧ chunkRebuilding d n.idx (r.obj.base + u) = false) :
    mapGet (readMap tag none d).reqs tag = some (r.mapped (objEntries d n r.obj) (entryBands d n.iu (objEntries d n r.obj))) := by
  have words : ((List.range r.obj.units).any fun u => d.media.badWords.contains (mapKey n.idx (r.obj.base + u))) = false := by
    refine List.any_eq_false.mpr fun u hu => ?_
    obtain ⟨readable, _⟩ := hm u (List.mem_range.mp hu)
    simpa using readable
  have chunks : ((List.range r.obj.units).any fun u => chunkRebuilding d n.idx (r.obj.base + u)) = false := by
    refine List.any_eq_false.mpr fun u hu => ?_
    obtain ⟨_, built⟩ := hm u (List.mem_range.mp hu)
    simp [built]
  have mapped : readMap tag none d = pinBands (entryBands d n.iu (objEntries d n r.obj))
      (modifyReq tag (fun q => q.mapped (objEntries d n r.obj) (entryBands d n.iu (objEntries d n r.obj))) d) := by
    simp only [readMap, hr, hn, Nat.ne_of_gt hs, words, chunks, Bool.false_eq_true, if_false]
    rfl
  rw [mapped, (pinBands_leaves _ _).req]
  exact modifyReq_self _ hr

theorem objEntries_media {d d' : Dev} (h : d'.media = d.media) (n : Namespace) (o : ObjRec) : objEntries d' n o = objEntries d n o := by
  simp only [objEntries, entryOf, h]

theorem entryBands_media {d d' : Dev} (h : d'.media = d.media) (cls : Nat) (es : List (Option Nat)) :
    entryBands d' cls es = entryBands d cls es := by
  simp only [entryBands, bandOfVua, bandUnits, h]

/-- A request whose object is found and readable holds the object, its storage generation, its map entries and its pins. -/
theorem admitHere_bound {tag rec x : Nat} {bad : List Nat} {back : Bool} {d d1 : Dev} {r : Req} {h : EddyHit} {o : ObjRec} {n : Namespace}
    (hr : mapGet d.reqs tag = some r) (hc : classSearch r.key (imgClass r.image) bad d = (some (h, rec, o), back, d1))
    (hp : h.entry.poison = false) (hw : o.withdrawn = false) (hs : 0 < o.stored) (hl : storageLoaded d1 o.slot = true)
    (hn : nsByTag d1 (keyTag r.key) = some (x, n))
    (hm : ∀ u < o.units, mapKey n.idx (o.base + u) ∉ d1.media.badWords ∧ chunkRebuilding d1 n.idx (o.base + u) = false) :
    mapGet (admitHere tag bad none d).reqs tag =
      some (((r.found o rec back).stores ((keySlot d1 o.slot).current.map fun g => (o.slot, g.gen))).mapped (objEntries d1 n o)
        (entryBands d1 n.iu (objEntries d1 n o))) := by
  obtain ⟨found, keys, media⟩ := bindObject_found hr hc hp hw
  have slot : keySlot (bindObject tag bad d) o.slot = keySlot d1 o.slot := by simp only [keySlot, keys]
  have loaded : storageLoaded (bindObject tag bad d) o.slot = true := by
    unfold storageLoaded at hl ⊢
    rw [slot]
    exact hl
  obtain ⟨stored, media'⟩ := bindStorage_loaded found hs loaded
  rw [media] at media'
  have named : nsByTag (bindStorage tag (bindObject tag bad d)) (keyTag r.key) = some (x, n) := by
    simp only [nsByTag, media']
    exact hn
  have mapped := readMap_readable stored named hs (by
    simp only [chunkRebuilding, media']
    exact hm)
  rw [objEntries_media media', entryBands_media media'] at mapped
  rw [← slot]
  exact mapped

/-! ## Decoded units (R29, R373) -/

theorem scheduleRefresh_leaves (k : Nat) (d : Dev) : Dev.Leaves d (scheduleRefresh k d) := by
  refine .of rfl rfl ?_ rfl
  show (if _ then d.media else _).store.objs = _
  split <;> rfl

theorem countRead_leaves (cls v : Nat) (d : Dev) : Dev.Leaves d (countRead cls v d) := by
  unfold countRead
  extract_lets k
  split
  · exact .refl d
  · extract_lets d1
    have counted : Dev.Leaves d d1 := .of rfl rfl rfl rfl
    split
    · exact (counted.trans (gaugeCount_leaves _ d1)).trans (scheduleRefresh_leaves _ _)
    · exact counted

theorem countDecode_leaves (cls v : Nat) (dec : Decode) (d : Dev) : Dev.Leaves d (countDecode cls v dec d) := by
  unfold countDecode
  extract_lets ch n d1
  have counted : Dev.Leaves d d1 := (gaugeAdd_leaves _ _ d).trans (addNum_leaves _ _ _)
  have retried := counted.trans (gaugeCount_leaves (0x101 + 16 * ch) d1)
  cases dec with
  | hard => exact counted
  | retry l =>
    dsimp only
    split
    · exact ((retried.trans (bump_leaves _ _)).trans (gaugeCount_leaves _ _)).trans (scheduleRefresh_leaves _ _)
    · exact retried.trans (bump_leaves _ _)
  | soft l =>
    exact ((((retried.trans (gaugeCount_leaves _ _)).trans (bump_leaves _ _)).trans (bump_leaves _ _)).trans (gaugeCount_leaves _ _)).trans
      (scheduleRefresh_leaves _ _)
  | fail => exact (counted.trans (gaugeCount_leaves _ d1)).trans (bump_leaves _ _)

theorem flashRead_leaves (cls v : Nat) (dec : Decode) (d : Dev) : Dev.Leaves d (flashRead cls v dec d) := by
  unfold flashRead
  extract_lets d1
  have counted : Dev.Leaves d d1 := (countRead_leaves cls v d).trans (countDecode_leaves cls v dec _)
  split
  · exact counted.trans (.of rfl rfl rfl rfl)
  · exact counted

theorem background_leaves (d : Dev) : Dev.Leaves d (background d) := (background_data d).leaves

/-- A needed unit that has still to come is taken. -/
theorem unitDecode_guard {u : Nat} {r : Req} (ho : r.op < 2) (hs : r.step = .path) (hm : r.remote = none) (hn : unitNeeded r u = true)
    (hu : mapGet r.cipher u = none) :
    ¬(2 ≤ r.op ∨ r.step ≠ .path ∨ !unitNeeded r u ∨ (mapGet r.cipher u).isSome ∨ (r.ctrl ≠ 0 ∧ r.remote.isSome)) := by
  simp [hs, hm, hn, hu, ho]

section
variable {tag u v : Nat} {dec : Decode} {d : Dev} {r : Req} (hr : mapGet d.reqs tag = some r) (ho : r.op < 2) (hs : r.step = .path)
  (hc : r.ctrl ≠ 0) (hm : r.remote = none) (hn : unitNeeded r u = true) (hu : mapGet r.cipher u = none) (he : r.entries[u]? = some (some v))
  (hv : v ≠ uncorrectable)
include hr ho hs hc hm hn hu he hv

/-- A unit that decodes, or that the write buffer still holds, is kept as the at-rest bytes of its address. -/
theorem unitDecode_keeps (hd : d.media.buffer.contains (unitKey (objClass d r.key) v) = true ∨ dec ≠ .fail) :
    mapGet (unitDecode tag u dec d).reqs tag =
      some { r with
        cipher := mapSet r.cipher u (unitData d (objClass d r.key) v)
        readRetry := r.readRetry || (!d.media.buffer.contains (unitKey (objClass d r.key) v) && dec ≠ .hard) } := by
  have guard := unitDecode_guard ho hs hm hn hu
  have decodes : ¬((!d.media.buffer.contains (unitKey (objClass d r.key) v) && decide (dec = .fail)) = true) := by
    rcases hd with h | h
    · simp only [h, Bool.not_true, Bool.false_and, Bool.false_eq_true, not_false_eq_true]
    · simp only [h, decide_false, Bool.and_false, Bool.false_eq_true, not_false_eq_true]
  unfold unitDecode
  simp -zeta only [hr, if_neg guard, he, Option.join_some, servesRaw_of_ctrl hc]
  extract_lets cls held d1 bs d2
  have read : Dev.Leaves d d1 := by
    unfold d1
    split
    · exact .refl d
    · exact flashRead_leaves _ _ _ d
  rw [if_neg hv, if_neg decodes, (background_leaves _).req]
  exact modifyReq_self _ ((read.req tag).trans hr)

omit hc in
/-- A unit that fails every step is lost to its object. -/
theorem unitDecode_loses (hb : d.media.buffer.contains (unitKey (objClass d r.key) v) = false) :
    unitDecode tag u .fail d = background (loseUnit tag 0 r (flashRead (objClass d r.key) v .fail d)) := by
  have guard := unitDecode_guard ho hs hm hn hu
  unfold unitDecode
  simp only [hr, if_neg guard, he, Option.join_some, if_neg hv, hb, Bool.not_false, Bool.true_and, decide_true, if_true]

end

/-! ## Withdrawal (R29, R33) -/

theorem reportWithdrawal_settles (id : Nat) (w : Withdrawal) (d : Dev) : Dev.Settles d (reportWithdrawal id w d) := by
  unfold reportWithdrawal
  refine Dev.Settles.trans ?_ ((vendorNotice_same _ _ _ _).leaves (vendorNotice_grows _ _ _ _)).toSettles
  refine (modifyCtrl_leaves id _ d (fun _ => ?_) fun _ => ?_).toSettles
  · rfl
  · rfl

/-- An object record as its withdrawal leaves it. -/
def ObjRec.withdraw (o : ObjRec) (d : Dev) : ObjRec := { o with withdrawn := true, withdrawnAt := d.tm, lastSeq := d.media.seq + 1 }

/-- A withdrawal marks the object's record, and no report or request that ends with it changes a record again. -/
theorem withdrawObject_record {rec : Nat} {d : Dev} {o : ObjRec} (cause label : Nat) (h : mapGet d.media.store.objs rec = some o)
    (hw : o.withdrawn = false) : mapGet (withdrawObject rec cause label d).media.store.objs rec = some (o.withdraw d) := by
  unfold withdrawObject
  simp -zeta only [h, hw, Bool.false_eq_true, if_false]
  extract_lets o' d1 d2 d3 d4
  have marked : d1.media.store.objs = mapSet d.media.store.objs rec o' := rfl
  have indexed : Dev.Settles d1 d2 := by
    refine foldl_settles _ (fun d a => ?_) _ d1
    exact (eddySetData_leaves a _ d).toSettles
  have logged : Dev.Settles d2 d3 := (logError_leaves _ _ _ _ _ d2 _ _ _).toSettles
  have told : Dev.Settles d3 d4 := by
    unfold d4
    split
    · exact foldl_settles _ (fun d id => reportWithdrawal_settles id _ d) _ d3
    · exact (Dev.Leaves.refl d3).toSettles
  have ended := foldl_settles (fun d t => finishReq t stWithdrawn d) (fun d t => finishReq_settles t stWithdrawn d 0 0 0 true)
    (reqTags d4 fun r => readsObject rec r && readsPending r) d4
  rw [(((indexed.trans logged).trans told).trans ended).objs, marked]
  exact mapGet_set _ _ _

/-! ## A transcrypt unit (R24, R187) -/

/-- The queue of a unit once a request has joined it: a descriptor while one of the 48 is free, else a place to wait. -/
def EstuaryUnit.joined (e : EstuaryUnit) (tag : Nat) : EstuaryUnit :=
  if e.held.contains tag then e
  else if e.held.length < 48 then { e with held := e.held ++ [tag], waiting := e.waiting.filter (· ≠ tag) }
  else if e.waiting.contains tag then e
  else { e with waiting := e.waiting ++ [tag] }

theorem joinUnit_fin (tag : Nat) (i : Fin 2) (d : Dev) : joinUnit tag i.val d = modifyEstuary i (fun e => e.joined tag) d := by
  have number : (if i.val = 0 then 0 else 1 : Fin 2) = i := by
    revert i
    decide
  unfold joinUnit
  simp only [if_neg (Nat.not_le.mpr i.isLt), number]
  rfl

theorem modifyEstuary_get (i : Fin 2) (f : EstuaryUnit → EstuaryUnit) (d : Dev) :
    (modifyEstuary i f d).keys.estuary[i] = f d.keys.estuary[i] := by
  simp [modifyEstuary, modifyKeys]

theorem estuaryAssign_joins {tag : Nat} {i : Fin 2} {d : Dev} {r : Req} (hr : mapGet d.reqs tag = some r) (ho : r.op < 2) (hc : r.ctrl ≠ 0)
    (hd : r.cipher ≠ []) (hu : r.unit = none) (hi : chooseUnit d false = i.val) :
    estuaryAssign tag d = modifyEstuary i (fun e => e.joined tag) (modifyReq tag (fun r => { r with unit := some i.val }) d) := by
  have op : r.op ≠ 2 := Nat.ne_of_lt ho
  have core : i.val ≠ 2 := Nat.ne_of_lt i.isLt
  have data : r.cipher.isEmpty = false := by simpa using hd
  simp only [estuaryAssign, assignUnit, hr, servesRaw_of_ctrl hc, data, hu, op, decide_false, hi, core, Bool.false_and, Bool.or_self,
    Bool.false_eq_true, if_false, joinUnit_fin]

/-! ## Decryption (R189) -/

theorem joinRiffle_plain {tag bytes : Nat} {d : Dev} {r : Req} (h : mapGet d.reqs tag = some r) :
    ∃ r', mapGet (joinRiffle tag bytes d).reqs tag = some r' ∧ r'.plain = r.plain :=
  ⟨_, modifyReq_self _ h, rfl⟩

theorem endDecrypt_plain {tag : Nat} {d : Dev} {r : Req} (h : mapGet d.reqs tag = some r) :
    ∃ r', mapGet (endDecrypt tag d).reqs tag = some r' ∧ r'.plain = r.plain := by
  unfold endDecrypt
  simp -zeta only [h]
  split
  · exact ⟨r, h, rfl⟩
  · extract_lets d1 d2
    have marked : mapGet d1.reqs tag = some { r with storeUse := false } := modifyReq_self _ h
    have released : Dev.Leaves d1 d2 := by
      unfold d2
      split
      · exact releaseGen_leaves _ _ d1
      · exact .refl d1
    have left : Dev.Leaves d2 (if imgScheme r.image = 0 then leaveEstuary tag d2 else d2) := by
      split
      · exact leaveEstuary_leaves tag d2
      · exact .refl d2
    exact ⟨_, ((released.trans left).req tag).trans marked, rfl⟩

theorem decryptUnit_plain {tag u : Nat} {ct : Bytes} {d : Dev} {r : Req} {p : Nat × Nat} {g : KeyGen} (hr : mapGet d.reqs tag = some r)
    (hp : r.store = some p) (hg : slotGen d p.1 p.2 = some g) :
    ∃ r', mapGet (decryptUnit tag u ct d).reqs tag = some r' ∧ r'.plain = mapSet r.plain u (xtsDec g.key (objTweak r.obj.key u) ct) := by
  unfold decryptUnit
  simp -zeta only [hr, hp, Option.bind_some, hg]
  extract_lets pt d1
  have decrypted : mapGet d1.reqs tag = some { r with plain := mapSet r.plain u pt } := modifyReq_self _ hr
  split
  · obtain ⟨r1, h1, e1⟩ := joinRiffle_plain (bytes := r.obj.stored) decrypted
    obtain ⟨r2, h2, e2⟩ := endDecrypt_plain h1
    exact ⟨r2, h2, e2.trans e1⟩
  · exact endDecrypt_plain decrypted

theorem xtsDecrypt_unit {tag u : Nat} {d : Dev} {r : Req} {ct : Bytes} (same : Bool) (hr : mapGet d.reqs tag = some r) (ho : r.op < 2)
    (hs : r.step = .path) (hc : r.ctrl ≠ 0) (hh : holdsUnit d tag r = true) (hp : mapGet r.plain u = none) (hu : u < unitCount r.obj.stored)
    (hct : cipherUnit d r u = some ct) :
    xtsDecrypt tag u same d = if same then decryptUnit tag u ct d else readCompareFail tag 0 (256 * u) r d := by
  have guard : ¬(2 ≤ r.op ∨ r.step ≠ .path ∨ servesRaw r ∨ !holdsUnit d tag r ∨ (mapGet r.plain u).isSome ∨ unitCount r.obj.stored ≤ u) := by
    simp [ho, hs, servesRaw_of_ctrl hc, hh, hp, hu]
  simp only [xtsDecrypt, hr, if_neg guard, hct]

/-! ## Output (R26, R83, R143) -/

section
variable {tag : Nat} {d : Dev} {r : Req} (hr : mapGet d.reqs tag = some r)
include hr

theorem outputDone_ends {ok : Bool} (ho : r.op = 0) (hs : r.step = .dma) (ht : r.pageTag = none) (hc : r.ctrl ≠ 0) :
    outputDone tag ok d =
      if !ok then finishReq tag stTransfer d
      else if r.toPeer then
        emit (.peerRead r.ctrl r.cid) (modifyReq tag (fun r => { r with step := .peer }) (emit (.data r.ctrl r.cid r.output) d))
      else endRead tag (emit (.data r.ctrl r.cid r.output) d) := by
  have guard : ¬(r.op ≠ 0 ∨ r.step ≠ .dma ∨ r.pageTag.isSome) := by simp [ho, hs, ht]
  simp only [outputDone, hr, if_neg guard, if_neg hc]

theorem endRead_grows : Dev.Grows d (endRead tag d) := by
  simp only [endRead, hr]
  exact (finishReq_settles _ _ _ _ _ _ _).grows

variable (hc : r.ctrl ≠ 0) (hq : hasQueues r.ctrl r.sq d)
include hc hq

/-- A Stream Read ends with Success, its length and dword 1. -/
theorem endRead_posted : Posted r.ctrl r.sq r.cid stOk r.output.length (readDword1 r) (endRead tag d) := by
  simp only [endRead, hr]
  exact finishReq_posted hr hc hq _ _ _ _ _

/-- Its data has been sent by then. -/
theorem outputDone_completes (ho : r.op = 0) (hs : r.step = .dma) (ht : r.pageTag = none) (hp : r.toPeer = false) :
    Output.data r.ctrl r.cid r.output ∈ (outputDone tag true d).out ∧
      Posted r.ctrl r.sq r.cid stOk r.output.length (readDword1 r) (outputDone tag true d) := by
  have sent : mapGet (emit (.data r.ctrl r.cid r.output) d).reqs tag = some r := hr
  simp only [outputDone_ends hr ho hs ht hc, hp, Bool.not_true, Bool.false_eq_true, if_false]
  exact ⟨(endRead_grows sent).out _ List.mem_cons_self, endRead_posted sent hc (hq.grows (emit_grows _ _))⟩

/-- A failed write completes with Data Transfer Error. -/
theorem outputDone_fails (ho : r.op = 0) (hs : r.step = .dma) (ht : r.pageTag = none) :
    Posted r.ctrl r.sq r.cid stTransfer 0 0 (outputDone tag false d) := by
  simp only [outputDone_ends hr ho hs ht hc, Bool.not_false, if_true]
  exact finishReq_posted hr hc hq _ _ _ _ _

omit hq in
/-- Output to a peer BAR is sent and then read back. -/
theorem outputDone_reads_back (ho : r.op = 0) (hs : r.step = .dma) (ht : r.pageTag = none) (hp : r.toPeer = true) :
    Output.data r.ctrl r.cid r.output ∈ (outputDone tag true d).out ∧ Output.peerRead r.ctrl r.cid ∈ (outputDone tag true d).out ∧
      mapGet (outputDone tag true d).reqs tag = some { r with step := .peer } := by
  rw [outputDone_ends hr ho hs ht hc, if_neg (by decide), if_pos hp]
  exact ⟨List.mem_cons_of_mem _ List.mem_cons_self, List.mem_cons_self, modifyReq_self (d := emit (.data r.ctrl r.cid r.output) d) _ hr⟩

end

theorem exec_peerFlushReadComplete {tag : Nat} {s : State} {r : Req} (ok : Bool) (hr : mapGet s.dev.reqs tag = some r) (hs : r.step = .peer) :
    exec (.peerFlushReadComplete tag ok) s =
      .next { s with dev := if ok then endRead tag s.dev else finishReq tag stTransfer s.dev } := by
  show execPeerFlushReadComplete tag ok s = _
  simp only [execPeerFlushReadComplete, run, hr, hs, ne_eq, not_true_eq_false, if_false]

end Sys2Proof.Machine

open Sys2Proof Sys2Proof.Machine

/-- Settles O36, clause by clause: admission through `streamRead_enters`, check 6 to the pins through `admitHere_bound`, units through
`unitDecode_keeps` and `withdrawObject_record`, and both ends through `finishReq_posted`. -/
theorem streamReadPathCompletes : Obligations.StreamReadPathCompletes := by
  refine ⟨?admission, ?bind, ?decode, ?assign, ?decrypt, ?output⟩
  case admission =>
    intro c s n img size bad mapBad ha h3 d c' key z1 z2 hsize hl hk ht hn h2 hi hh hu hs slot e hp
    obtain ⟨_, _, hx⟩ := admitted_checks ha
    refine ⟨enterRead_tag _ _ _, ?_⟩
    rw [exec_streamRead size bad mapBad ha h3]
    have enters := streamRead_enters (c := c') bad mapBad z1 z2 (hl.imp_left hsize.trans) hk ht hn h2 hi hh hu hs hx hp
    rw [enters]
    rfl
  case bind =>
    intro tag rec x bad back d d1 r h o n hr hc hp hw hs hl hn hm es
    exact ⟨_, admitHere_bound hr hc hp hw hs hl hn hm, rfl, rfl, rfl, rfl, rfl, rfl, rfl, rfl, rfl, rfl⟩
  case decode =>
    intro tag u v dec s r hr ho hs hc hm hn hu he hv held
    refine ⟨fun hd => ⟨_, rfl, unitDecode_keeps hr ho hs hc hm hn hu he hv hd⟩, fun hb hd hg o hrec hw => ?_⟩
    subst hd
    refine ⟨_, (o.withdraw (flashRead (objClass s.dev r.key) v .fail s.dev)), rfl, ?_, rfl, rfl⟩
    have read := (flashRead_leaves (objClass s.dev r.key) v .fail s.dev).objs
    show mapGet (unitDecode tag u .fail s.dev).media.store.objs r.recNo = _
    rw [unitDecode_loses hr ho hs hm hn hu he hv hb, (background_leaves _).objs, loseUnit, if_neg hg]
    exact withdrawObject_record 0 _ (by rw [read]; exact hrec) hw
  case assign =>
    intro tag i s r hr ho hc hd hu hi e
    refine ⟨_, rfl, ?_, ?_⟩ <;> show _ = _ <;> rw [estuaryAssign_joins hr ho hc hd hu hi]
    · exact modifyReq_self _ hr
    · exact modifyEstuary_get _ _ _
  case decrypt =>
    intro tag u s r ct p g hr ho hs hc hh hpl hu hct hp hg
    refine ⟨?_, ?_⟩
    · obtain ⟨r', h', e'⟩ := decryptUnit_plain (u := u) (ct := ct) hr hp hg
      refine ⟨_, r', rfl, ?_, e'⟩
      show mapGet (xtsDecrypt tag u true s.dev).reqs tag = _
      rw [xtsDecrypt_unit true hr ho hs hc hh hpl hu hct]
      exact h'
    · exact congrArg (fun x => Host.Outcome.next { s with dev := x }) (xtsDecrypt_unit false hr ho hs hc hh hpl hu hct)
  case output =>
    intro tag now s r hr ho hc hq
    have hq' : hasQueues r.ctrl r.sq (advanceTo now s.dev) := hq
    have hr' : mapGet (advanceTo now s.dev).reqs tag = some r := hr
    refine ⟨fun hs ht => ⟨fun hp => ⟨_, rfl, outputDone_completes hr' hc hq' ho hs ht hp⟩,
      fun hp => ⟨_, rfl, outputDone_reads_back hr' hc ho hs ht hp⟩, ⟨_, rfl, outputDone_fails hr' hc hq' ho hs ht⟩⟩, fun hs => ⟨?_, ?_⟩⟩
    · exact ⟨_, exec_peerFlushReadComplete true hr hs, endRead_posted hr hc hq⟩
    · exact ⟨_, exec_peerFlushReadComplete false hr hs, finishReq_posted hr hc hq _ _ _ _ _⟩

end

section
/-! What issue, the fences and the write buffer do to one core, field by field, and to memory (R78, R84, R264, R296, R297). -/
namespace Sys2Proof.Machine

/-! ## Results that land and loads that return (R277, R296, R297) -/

/-- A core without what the start of an instruction may change: its run state, and what results that land and loads that return write. -/
def FxCore.setUp (c : FxCore) : FxCore :=
  { c with
    run := .running
    g := Vector.replicate 32 0
    ph := 0
    pl := 0
    qt := 0
    rm := 0
    products := []
    divide := none
    loads := [] }

/-- A field that the start of an instruction keeps. -/
theorem FxCore.kept_of_setUp {β : Type} (g : FxCore → β) {c c' : FxCore} (h : c.setUp = c'.setUp)
    (hg : ∀ c, g c.setUp = g c := by intro; rfl) : g c = g c' := (hg c).symm.trans ((congrArg g h).trans (hg c'))

/-- A field that every step of a fold keeps. -/
theorem foldl_keeps {α β : Type} (g : FxCore → β) {f : FxCore → α → FxCore} (h : ∀ c a, g (f c a) = g c) (l : List α) (c : FxCore) :
    g (l.foldl f c) = g c :=
  List.foldlRecOn l f (motive := fun x => g x = g c) rfl fun x hx a _ => (h x a).trans hx

@[simp] theorem rset_setUp (r : Reg) (v : Word) (c : FxCore) : (rset r v c).setUp = c.setUp := by
  unfold rset
  split <;> rfl

@[simp] theorem rset_loads (r : Reg) (v : Word) (c : FxCore) : (rset r v c).loads = c.loads := by
  unfold rset
  split <;> rfl

/-- Loads that return keep what register writes keep. -/
theorem returnLoads_keeps {β : Type} (g : FxCore → β) (h : ∀ r v c, g (rset r v c) = g c) (p : CoreLoad → Bool) (c : FxCore) :
    g (returnLoads p c).2 = g { c with loads := c.loads.filter (fun l => !p l) } := by
  refine foldl_keeps g (fun c l => ?_) _ _
  split
  · exact foldl_keeps g (fun c rv => h rv.1 0 c) l.dests c
  · exact foldl_keeps g (fun c rv => h rv.1 rv.2 c) l.dests c

@[simp] theorem returnLoads_setUp (p : CoreLoad → Bool) (c : FxCore) : (returnLoads p c).2.setUp = c.setUp :=
  returnLoads_keeps FxCore.setUp rset_setUp p c

@[simp] theorem returnLoads_loads (p : CoreLoad → Bool) (c : FxCore) : (returnLoads p c).2.loads = c.loads.filter (fun l => !p l) :=
  returnLoads_keeps FxCore.loads rset_loads p c

/-- Where no load is poisoned, none is reported. -/
theorem returnLoads_clean {c : FxCore} (h : c.loads.all (fun l => !l.poison) = true) (p : CoreLoad → Bool) : (returnLoads p c).1 = none := by
  simp only [List.all_eq_true, Bool.not_eq_true'] at h
  simp only [returnLoads, Option.map_eq_none_iff, List.find?_eq_none, List.mem_filter]
  rintro l ⟨hl, -⟩
  simp [h l hl]

/-- Results that land keep what is neither a product, nor the divide, nor one of their registers. -/
theorem landDue_keeps {β : Type} (g : FxCore → β) (hp : ∀ c ps h l, g { c with products := ps, ph := h, pl := l } = g c)
    (hd : ∀ c q r, g { c with qt := q, rm := r, divide := none } = g c) (c : FxCore) : g (landDue c) = g c := by
  have products : g (landProducts c) = g c := by
    refine (foldl_keeps g (fun c p => ?_) _ _).trans (hp c _ c.ph c.pl)
    exact hp c c.products p.2.1 p.2.2
  unfold landDue landQuotient
  split
  · split
    · exact (hd _ _ _).trans products
    · exact products
  · exact products

theorem landDue_setUp (c : FxCore) : (landDue c).setUp = c.setUp := landDue_keeps _ (fun _ _ _ _ => rfl) (fun _ _ _ => rfl) c

theorem landDue_loads (c : FxCore) : (landDue c).loads = c.loads := landDue_keeps _ (fun _ _ _ _ => rfl) (fun _ _ _ => rfl) c

theorem fxCore_setUp (n : CoreId) (uses : List Reg) (d : Dev) : (fxCore n uses d).setUp = d.cores[n].setUp := by
  have landed : (fxLanded n d).cores[n] = landDue { d.cores[n] with run := .running } := modifyCore_cores_same _ _ _
  unfold fxCore fxArrived
  rw [returnLoads_setUp, landed, landDue_setUp]
  rfl

@[simp] theorem fxCore_pc (n : CoreId) (uses : List Reg) (d : Dev) : (fxCore n uses d).pc = d.cores[n].pc :=
  FxCore.kept_of_setUp FxCore.pc (fxCore_setUp n uses d)

@[simp] theorem fxCore_ctl (n : CoreId) (uses : List Reg) (d : Dev) : (fxCore n uses d).ctl = d.cores[n].ctl :=
  FxCore.kept_of_setUp FxCore.ctl (fxCore_setUp n uses d)

@[simp] theorem fxCore_stores (n : CoreId) (uses : List Reg) (d : Dev) : (fxCore n uses d).stores = d.cores[n].stores :=
  FxCore.kept_of_setUp FxCore.stores (fxCore_setUp n uses d)

/-! ## The end of an instruction (R290) -/

theorem loopCheck_stores (a : Word) (ks : List (Fin 4)) (c : FxCore) : (loopCheck a ks c).2.stores = c.stores := by
  induction ks generalizing c with
  | nil => rfl
  | cons k ks ih =>
    unfold loopCheck
    dsimp only
    split
    · split
      · rfl
      · exact ih _
    · exact ih _

@[simp] theorem retired_stores (k : Nat) (a : Word) (c : FxCore) : (retired k a c).stores = c.stores := by
  unfold retired retire
  split
  · exact loopCheck_stores _ _ _
  · split
    · exact loopCheck_stores _ _ _
    · rfl

/-- An instruction whose body goes on in sequence, in a ready state. -/
theorem fxIssue_seq {n : CoreId} {w : Word} {uses : List Reg} {k : Nat} {body : FxBody} {d d1 : Dev} (h : fxReady n w uses d = true)
    (hb : body (fxCore n uses d).pc (modifyCore n (fun _ => fxCore n uses d) d) = (.seq, d1)) :
    fxIssue n w uses k body d = modifyCore n (retired k (fxCore n uses d).pc) d1 := by
  have core : (modifyCore n (fun _ => fxCore n uses d) d).cores[n] = fxCore n uses d := modifyCore_cores_same _ _ _
  rw [fxIssue_ready h, fxExecute_seq (d1 := d1) (by rw [core]; exact hb), core]
  rfl

/-- The same where the body changes its core alone. -/
theorem fxIssue_core {n : CoreId} {w : Word} {uses : List Reg} {k : Nat} {body : FxBody} {s : State} {c : FxCore} (h : fxReady n w uses s.dev = true)
    (hb : body (fxCore n uses s.dev).pc (modifyCore n (fun _ => fxCore n uses s.dev) s.dev) = (.seq, modifyCore n (fun _ => c) s.dev)) :
    run (fxIssue n w uses k body) s = .next (s.withCore n (retired k (fxCore n uses s.dev).pc c)) :=
  run_withCore _ _ _ _ (by rw [fxIssue_seq h hb, modifyCore_modifyCore])

/-! ## The write buffer on its way to memory (R78, R415) -/

theorem drainAll_nil {n : CoreId} {d : Dev} (h : d.cores[n].stores = []) : drainAll n d = d := by
  unfold drainAll
  rw [h]
  rfl

theorem drainAll_single {n : CoreId} {d : Dev} {e : CoreStore} (h : d.cores[n].stores = [e]) :
    drainAll n d = performStore n e (modifyCore n (fun c => { c with stores := [] }) d) := by
  have oldest : drainOldest n d = performStore n e (modifyCore n (fun c => { c with stores := [] }) d) := by
    unfold drainOldest
    rw [h]
  unfold drainAll
  rw [h]
  exact oldest

theorem performStore_below {n : CoreId} {e : CoreStore} {key : Nat} (h : e.key = some key) (hk : key < dramBase) (d : Dev) :
    performStore n e d = storeBytes key e.bytes e.ecc d := by
  unfold performStore
  simp only [h, if_neg (Nat.not_le.mpr hk)]

/-- A whole word takes fresh check bits, and the write-backs queued for it are dropped. -/
theorem storeBytes_word {key : Nat} {bs : Bytes} (hk : key % 4 = 0) (hb : bs.length = 4) (ecc : Ecc) (d : Dev) :
    storeBytes key bs ecc d = memPut key bs (cleanWord (key / 4) (dropWriteBacks (key / 4) d)) := by
  have words : wordsOf key 4 = [key / 4] := by
    have span : (key + 4 - 1) / 4 - key / 4 + 1 = 1 := by omega
    simp only [wordsOf, span]
    rfl
  have full : key ≤ 4 * (key / 4) ∧ 4 * (key / 4) + 4 ≤ key + 4 := by omega
  simp only [storeBytes, writeClasses, hb, words, List.foldl_cons, List.foldl_nil, writeWordClass, full, and_self, decide_true, if_true]

theorem dropWriteBacks_mem (w : Nat) (d : Dev) : (dropWriteBacks w d).mem = d.mem := by
  unfold dropWriteBacks
  extract_lets hit n d1
  split
  · rfl
  · rw [(gaugeAdd_same _ _ _).rest]
    rfl

theorem dropWriteBacks_stores (w : Nat) (d : Dev) (n : CoreId) : (dropWriteBacks w d).cores[n].stores = d.cores[n].stores := by
  unfold dropWriteBacks
  extract_lets hit k d1
  split
  · rfl
  · rw [(gaugeAdd_same _ _ _).cores n]
    rfl

theorem bufferStore_room {n : CoreId} {d : Dev} (e : CoreStore) (h : d.cores[n].stores.length < 16) :
    bufferStore n e d = modifyCore n (fun c => { c with stores := c.stores ++ [e] }) d := by
  unfold bufferStore
  rw [if_neg (Nat.not_le.mpr h)]

/-- The bytes of a store: the low bytes of rs, or rs and rs + 1. -/
def storedBytes (size : Nat) (rs : Reg) (c : FxCore) : Bytes :=
  if size = 8 then leBytes 4 (rget c rs).toNat ++ leBytes 4 (rget c (oddOf rs)).toNat else leBytes size (rget c rs).toNat

/-- A store to memory that meets no exception enters the write buffer, and its instruction retires. -/
theorem fxStore_buffers {n : CoreId} {w w' : Word} {uses : List Reg} {rs ra : Reg} {mode : BitVec 2} {off : BitVec 14} {size key : Nat} {ecc : Ecc}
    {s : State} (hr : fxReady n w uses s.dev = true) (hm : mode ≠ 3) (hp : size = 8 → rs.val % 2 = 0) :
    let d := (s.withCore n (fxCore n uses s.dev)).dev
    let addr := memAddr (rget d.cores[n] ra) mode off
    accessTrap d n addr size false true = none → coreTarget d n addr = .mem key →
    run (fxIssue n w uses 1 (fxStore n w' rs ra mode off size ecc [])) s = .next { s with
      dev := modifyCore n (fun c => retired 1 d.cores[n].pc (writeback ra mode off c))
        (bufferStore n { addr := addr, key := some key, bytes := storedBytes size rs d.cores[n], ecc := ecc } d) } := by
  intro d addr ht hk
  have core : d.cores[n] = fxCore n uses s.dev := modifyCore_cores_same _ _ _
  have defined : ¬(mode = 3 ∨ size = 8 ∧ rs.val % 2 = 1) := by
    rintro (h | ⟨h, odd⟩)
    · exact hm h
    · have := hp h
      omega
  have body : fxStore n w' rs ra mode off size ecc [] (fxCore n uses s.dev).pc d =
      (.seq, modifyCore n (writeback ra mode off)
        (bufferStore n { addr := addr, key := some key, bytes := storedBytes size rs d.cores[n], ecc := ecc } d)) := by
    unfold fxStore
    rw [if_neg defined]
    simp only [ht, hk, addr, storedBytes]
  unfold run
  rw [fxIssue_seq hr body, modifyCore_modifyCore, core]

/-- One whole word for memory below DRAM in the buffer is written, and no other byte changes. -/
theorem drainAll_word {n : CoreId} {e : CoreStore} {key : Nat} {d : Dev} (hs : d.cores[n].stores = [e]) (hk : e.key = some key) (h4 : key % 4 = 0)
    (hb : e.bytes.length = 4) (hd : key + 4 ≤ dramBase) (hw : Memory.wf d.mem = true) :
    (drainAll n d).cores[n].stores = [] ∧ memGet (drainAll n d) key 4 = e.bytes ∧
      ∀ a, a < key ∨ key + 4 ≤ a → cellGet (drainAll n d).mem a = cellGet d.mem a := by
  rw [drainAll_single hs, performStore_below hk (by omega), storeBytes_word h4 hb]
  have mem : (cleanWord (key / 4) (dropWriteBacks (key / 4) (modifyCore n (fun c => { c with stores := [] }) d))).mem = d.mem :=
    dropWriteBacks_mem _ _
  refine ⟨?_, ?_, fun a ha => ?_⟩
  · show (dropWriteBacks _ _).cores[n].stores = _
    rw [dropWriteBacks_stores, modifyCore_cores_same]
  · exact (congrArg (memGet _ key) hb).symm.trans (memGet_put _ _ _ (mem ▸ hw))
  · rw [memPut_mem, mem]
    exact cellGet_puts_ne _ _ _ _ hw (hb ▸ ha)

theorem exec_fxFenceW {n : CoreId} {s : State} (h : fxReady n (encS 0 0 0 2) [] s.dev = true) :
    exec (.fxFenceW n) s = .next { s with
      dev := modifyCore n (retired 1 (fxCore n [] s.dev).pc) (drainAll n (s.withCore n (fxCore n [] s.dev)).dev) } := by
  show run (fxIssue n (encS 0 0 0 2) [] 1 fun _ d => (.seq, drainAll n d)) s = _
  unfold run
  rw [fxIssue_seq h rfl]
  rfl

end Sys2Proof.Machine

open Sys2Proof Sys2Proof.Machine

/-- Settles O10: every store is `fxStore_buffers` for its size, and FENCE.W is `drainAll` in sequence. -/
theorem storesCompleteIntoTheWriteBuffer : Obligations.StoresCompleteIntoTheWriteBuffer := by
  refine ⟨fun n rs ra mode off => ⟨?byte, ?half, ?word, ?pair⟩, fun n e d h => bufferStore_room e h, ?empty, ?whole⟩
  case byte =>
    intro ecc s w d addr key hr hm ht hk
    exact fxStore_buffers hr hm (absurd · (by decide)) ht hk
  case half =>
    intro ecc s w d addr key hr hm ht hk
    exact fxStore_buffers hr hm (absurd · (by decide)) ht hk
  case word =>
    intro s w d addr key hr hm ht hk
    exact fxStore_buffers hr hm (absurd · (by decide)) ht hk
  case pair =>
    intro s w d addr key hr hm hp ht hk
    exact fxStore_buffers hr hm (fun _ => hp) ht hk
  case empty =>
    intro n s hr hs
    refine fxIssue_core hr (congrArg (Prod.mk _) (drainAll_nil ?_))
    rw [modifyCore_cores_same, hs]
  case whole =>
    intro n e key s hr hs hk h4 hb hd hw
    have buffered : (s.withCore n (fxCore n [] s.dev)).dev.cores[n].stores = [e] := (congrArg FxCore.stores (modifyCore_cores_same _ _ _)).trans hs
    obtain ⟨emptied, written, frame⟩ := drainAll_word buffered hk h4 hb hd hw
    refine ⟨_, exec_fxFenceW hr, ?_, written, frame⟩
    show (modifyCore n _ _).cores[n].stores = []
    rw [modifyCore_cores_same, retired_stores, emptied]

end

section
/-! The fences of reads and of instructions, ERET and WAIT (R84, R273, R275, R285). -/
namespace Sys2Proof.Machine

/-! ## Fences (R84, R277, R285) -/

theorem returnLoads_stores (p : CoreLoad → Bool) (c : FxCore) : (returnLoads p c).2.stores = c.stores :=
  FxCore.kept_of_setUp FxCore.stores (returnLoads_setUp p c)

theorem returnLoads_all (c : FxCore) : (returnLoads (fun _ => true) c).2.loads = [] := by simp

theorem fxReady_issues {n : CoreId} {w : Word} {uses : List Reg} {d : Dev} (h : fxReady n w uses d = true) : coreIssues d n = true := by
  simp only [fxReady, Bool.and_eq_true] at h
  obtain ⟨⟨⟨issues, _⟩, _⟩, _⟩ := h
  exact issues

/-- Where no load is poisoned, a fence of reads issues as any other instruction. -/
theorem fenceReads_clean {n : CoreId} {w : Word} {d : Dev} (writes : Bool) (h : coreIssues d n = true)
    (hc : d.cores[n].loads.all (fun l => !l.poison) = true) :
    fenceReads n writes w d = fxIssue n w [] 1 (fun _ d =>
      let d1 := modifyCore n (fun c => (returnLoads (fun _ => true) c).2) d
      (.seq, if writes then drainAll n d1 else d1)) d := by
  have clean : (returnLoads (fun _ => true) (landDue d.cores[n])).1 = none := returnLoads_clean (by rw [landDue_loads]; exact hc) _
  simp only [fenceReads, h, clean, Bool.not_true, Bool.false_eq_true, if_false]

/-- With nothing to write, a fence of reads ends once every load is back. -/
theorem fenceReads_returns {n : CoreId} {w : Word} {s : State} {writes : Bool} (hr : fxReady n w [] s.dev = true)
    (hc : s.dev.cores[n].loads.all (fun l => !l.poison) = true) (hs : writes = true → s.dev.cores[n].stores = []) :
    run (fenceReads n writes w) s =
      .next (s.withCore n (retired 1 (fxCore n [] s.dev).pc (returnLoads (fun _ => true) (fxCore n [] s.dev)).2)) := by
  unfold run
  rw [fenceReads_clean writes (fxReady_issues hr) hc]
  refine fxIssue_core hr ?_
  simp only [modifyCore_modifyCore]
  cases writes with
  | false => rfl
  | true =>
    refine congrArg (Prod.mk _) (drainAll_nil ?_)
    rw [modifyCore_cores_same, returnLoads_stores, fxCore_stores, hs rfl]

/-- A core's view of an address turns on its DRAM banks alone. -/
theorem coreTarget_modifyCore {n : CoreId} {f : FxCore → FxCore} {d : Dev} (h : (f d.cores[n]).setUp = d.cores[n].setUp) (addr : Word) :
    coreTarget (modifyCore n f d) n addr = coreTarget d n addr := by
  have low : (f d.cores[n]).dab0 = d.cores[n].dab0 := FxCore.kept_of_setUp FxCore.dab0 h
  have high : (f d.cores[n]).dab1 = d.cores[n].dab1 := FxCore.kept_of_setUp FxCore.dab1 h
  unfold coreTarget
  dsimp only
  rw [modifyCore_cores_same, low, high]
  rfl

/-- The line that FENCE.I keeps: the DRAM line at an address, or a number above every line. -/
def fenceLine (d : Dev) (n : CoreId) (addr : Word) : Nat :=
  match coreTarget d n addr with
  | .mem key => if dramBase ≤ key then (key - dramBase) / 64 else 2 ^ 40
  | _ => 2 ^ 40

theorem fenceLine_found {d : Dev} {n : CoreId} {addr : Word} {line : Nat} (h : line = fenceLine d n addr) (hl : line < 2 ^ 40) :
    ∃ key, coreTarget d n addr = .mem key ∧ dramBase ≤ key ∧ line = (key - dramBase) / 64 := by
  subst h
  unfold fenceLine at hl ⊢
  split at hl
  · split at hl
    · rename_i key e hd
      exact ⟨key, e, hd, by rw [if_pos hd]⟩
    · exact absurd hl (by omega)
  · exact absurd hl (by omega)

/-- FENCE.I with nothing to write discards the line buffers of its cluster but the line being executed. -/
theorem exec_fxFenceI {n : CoreId} {s : State} (hr : fxReady n (encS 0 0 0 5) [] s.dev = true) (hs : s.dev.cores[n].stores = []) :
    exec (.fxFenceI n) s = .next { s with
      dev := modifyCore n (retired 1 (fxCore n [] s.dev).pc)
        { (s.withCore n (fxCore n [] s.dev)).dev with
          lineBufs := s.dev.lineBufs.filter fun l => l.1 ≠ clusterOf n || l.2.1 = fenceLine s.dev n s.dev.cores[n].pc } } := by
  have drained : drainAll n (modifyCore n (fun _ => fxCore n [] s.dev) s.dev) = modifyCore n (fun _ => fxCore n [] s.dev) s.dev := by
    refine drainAll_nil ?_
    rw [modifyCore_cores_same, fxCore_stores, hs]
  have target := coreTarget_modifyCore (f := fun _ => fxCore n [] s.dev) (fxCore_setUp n [] s.dev) s.dev.cores[n].pc
  show execFxFenceI n s = _
  unfold execFxFenceI run
  rw [fxIssue_seq hr rfl, fxCore_pc]
  simp only [drained, target]
  rfl

/-! ## ERET and WAIT (R273, R275) -/

/-- A bit of a word with one bit given a value. -/
theorem putBit_getLsbD (w : Word) (i j : Nat) (b : Bool) (h : j < 32) : (putBit w i b).getLsbD j = if j = i then b else w.getLsbD j := by
  have single : (1#32 <<< i).getLsbD j = decide (j = i) := by
    refine (BitVec.getLsbD_twoPow i j).trans ?_
    by_cases e : j = i
    · subst e
      simp [h]
    · simp [e, Ne.symm e]
  unfold putBit
  cases b with
  | true =>
    rw [if_pos rfl, BitVec.getLsbD_or, single]
    by_cases e : j = i <;> simp [e]
  | false =>
    rw [if_neg (by decide), BitVec.getLsbD_and, BitVec.getLsbD_not, single]
    by_cases e : j = i <;> simp [e, h]

/-- CTL after ERET. -/
def eretCtl (c : FxCore) : Word := putBit (putBit (putBit c.ctl ctlUM (ctl c ctlPUM)) ctlIE (ctl c ctlPIE)) ctlEXL false

theorem eretCtl_bit (c : FxCore) (j : Nat) (h : j < 32) : (eretCtl c).getLsbD j =
    if j = ctlEXL then false else if j = ctlIE then ctl c ctlPIE else if j = ctlUM then ctl c ctlPUM else ctl c j := by
  simp only [eretCtl, putBit_getLsbD _ _ _ _ h, ctl]

/-- ERET in kernel mode. -/
theorem exec_fxEret {n : CoreId} {s : State} (hr : fxReady n (encS 0 0 0 6) [] s.dev = true) (hu : userMode s.dev.cores[n] = false) :
    let c := fxCore n [] s.dev
    exec (.fxEret n) s = .next (s.withCore n { c with ctl := eretCtl c, level := 0, pc := c.epc, cycle := c.cycle + 2 }) := by
  intro c
  have kernel : userMode c = false := by
    rw [← hu]
    simp only [userMode, ctl, c, fxCore_ctl]
  refine run_withCore _ _ _ _ ?_
  have core : (modifyCore n (fun _ => c) s.dev).cores[n] = c := modifyCore_cores_same _ _ _
  rw [fxIssue_ready hr, fxExecute_jump (t := c.epc) (k' := 2) (d1 := modifyCore n (fun _ => { c with ctl := eretCtl c, level := 0 }) s.dev)]
  · rw [modifyCore_modifyCore]
  · dsimp only
    rw [core, if_neg (by rw [kernel]; decide), modifyCore_modifyCore]
    rfl

/-- WAIT stops issue where no enabled source is pending. -/
theorem exec_fxWait {n : CoreId} {s : State} (hr : fxReady n (encS 0 0 0 7) [] s.dev = true) :
    exec (.fxWait n) s = .next (s.withCore n (retired 1 (fxCore n [] s.dev).pc
      (if enabledPending (s.withCore n (fxCore n [] s.dev)).dev n = 0 then { fxCore n [] s.dev with run := .waiting } else fxCore n [] s.dev))) := by
  refine fxIssue_core hr (congrArg (Prod.mk _) ?_)
  show (if enabledPending (s.withCore n (fxCore n [] s.dev)).dev n = 0 then _ else _) = _
  split
  · rw [modifyCore_modifyCore]
  · rfl

end Sys2Proof.Machine

open Sys2Proof Sys2Proof.Machine

/-- Settles O17, instruction by instruction. -/
theorem fencesEretAndWaitComplete : Obligations.FencesEretAndWaitComplete := by
  refine ⟨?reads, ?lines, ?eret, fun _ _ hr => exec_fxWait hr⟩
  case reads =>
    rintro n i fn s (⟨rfl, rfl⟩ | ⟨rfl, rfl, hs⟩) hr hc
    · exact ⟨fenceReads_returns (writes := false) hr hc (absurd · (by decide)), returnLoads_all _⟩
    · exact ⟨fenceReads_returns (writes := true) hr hc (fun _ => hs), returnLoads_all _⟩
  case lines =>
    intro n s hr hs hl
    refine ⟨_, exec_fxFenceI hr hs, ?_, rfl, fun l h => ?_⟩
    · show (modifyCore n _ _).cores[n] = _
      rw [modifyCore_cores_same]
      exact congrArg (retired 1 _) (modifyCore_cores_same n (fun _ => fxCore n [] s.dev) s.dev)
    · obtain ⟨old, kept⟩ := List.mem_filter.mp h
      refine ⟨old, fun own => fenceLine_found ?_ (hl l old)⟩
      simpa [own] using kept
  case eret =>
    intro n s hr hu c
    refine ⟨_, exec_fxEret hr hu, rfl, ?_, ?_, ?_, ?_, ?_, rfl, rfl, rfl, rfl, rfl, rfl⟩ <;>
      exact eretCtl_bit c _ (by decide)

end

section
/-! Spare rows, buckets, triplicated words and Tidemark (R75, R408 to R419).  What a read of protected words sets off, corrections, poison and hard
faults, takes no remap from the records and writes no byte. -/
namespace Sys2Proof.Machine

/-- Memory is the same, and every remap recorded is still there. -/
structure Dev.KeepsRemaps (d d' : Dev) : Prop where
  /-- Bytes. -/
  mem : d'.mem = d.mem
  /-- Remap records. -/
  remaps : ∀ r ∈ d.integ.remaps, r ∈ d'.integ.remaps

theorem Dev.KeepsRemaps.of {d d' : Dev} (hm : d'.mem = d.mem) (hr : d'.integ.remaps = d.integ.remaps) : Dev.KeepsRemaps d d' :=
  ⟨hm, fun _ h => hr ▸ h⟩

theorem Dev.KeepsRemaps.refl (d : Dev) : Dev.KeepsRemaps d d := .of rfl rfl

theorem Dev.KeepsRemaps.trans {a b c : Dev} (h : Dev.KeepsRemaps a b) (g : Dev.KeepsRemaps b c) : Dev.KeepsRemaps a c :=
  ⟨g.mem.trans h.mem, fun r hr => g.remaps r (h.remaps r hr)⟩

/-- A report. -/
theorem SameWork.keepsRemaps {d d' : Dev} (h : SameWork d d') : Dev.KeepsRemaps d d' := .of (by rw [h.rest]) (by rw [h.rest])

/-! ## Records, counters and regions -/

theorem gaugeCount_keepsRemaps (src : Nat) (d : Dev) : Dev.KeepsRemaps d (gaugeCount src d) := (gaugeCount_same src d).keepsRemaps

theorem raiseEvent_keepsRemaps (d : Dev) : Dev.KeepsRemaps d (raiseEvent d) := (raiseEvent_same d).keepsRemaps

theorem logError_keepsRemaps (cls sev code gauge : Nat) (detail : Bytes) (d : Dev) (origin iface : Nat) (conts : List Bytes) :
    Dev.KeepsRemaps d (logError cls sev code gauge detail d origin iface conts) :=
  (logError_same cls sev code gauge detail d origin iface conts).keepsRemaps

theorem bump_keepsRemaps (k : Nat) (d : Dev) : Dev.KeepsRemaps d (bump k d) := .of rfl rfl

theorem modifyRegion_keepsRemaps (r : Nat) (f : IntRegion → IntRegion) (d : Dev) : Dev.KeepsRemaps d (modifyRegion r f d) := by
  unfold modifyRegion
  split <;> exact .of rfl rfl

theorem countPersist_keepsRemaps (k : Nat) (d : Dev) : Dev.KeepsRemaps d (countPersist k d) := by
  unfold countPersist
  extract_lets n d1 det
  have worn : Dev.KeepsRemaps d d1 := .of rfl rfl
  split
  · exact (worn.trans (gaugeCount_keepsRemaps _ _)).trans (logError_keepsRemaps _ _ _ _ _ _ _ _ _)
  · split
    · exact worn.trans (logError_keepsRemaps _ _ _ _ _ _ _ _ _)
    · exact worn

theorem devPersist_keepsRemaps (k v : Nat) (d : Dev) : Dev.KeepsRemaps d (devPersist k v d) := by
  have set : Dev.KeepsRemaps d (setNum k v d) := .of rfl rfl
  unfold devPersist
  split
  · exact .refl d
  · exact set.trans (countPersist_keepsRemaps _ _)

/-! ## Corrections and hard faults (R408, R411, R412, R417) -/

theorem bucketOverflow_keepsRemaps (r : Nat) (d : Dev) : Dev.KeepsRemaps d (bucketOverflow r d) :=
  (((modifyRegion_keepsRemaps r _ d).trans (gaugeCount_keepsRemaps _ _)).trans (logError_keepsRemaps _ _ _ _ _ _ _ _ _)).trans
    (raiseEvent_keepsRemaps _)

theorem bucketFill_keepsRemaps (r : Nat) (d : Dev) : Dev.KeepsRemaps d (bucketFill r d) := by
  unfold bucketFill
  extract_lets cap d1 g
  have filled : Dev.KeepsRemaps d d1 := modifyRegion_keepsRemaps r _ d
  split
  · exact filled.trans (bucketOverflow_keepsRemaps r d1)
  · exact filled

/-- A hard fault records one remap more where a spare is left. -/
theorem hardFault_keepsRemaps (r w : Nat) (d : Dev) : Dev.KeepsRemaps d (hardFault r w d) := by
  unfold hardFault
  extract_lets key d1 d2 g d3
  have counted : Dev.KeepsRemaps d d1 :=
    ((gaugeCount_keepsRemaps _ d).trans (bump_keepsRemaps _ _)).trans (devPersist_keepsRemaps _ _ _)
  have logged : Dev.KeepsRemaps d d2 := (counted.trans (logError_keepsRemaps _ _ _ _ _ d1 _ _ _)).trans (raiseEvent_keepsRemaps _)
  split
  · have spared : Dev.KeepsRemaps d d3 := logged.trans (modifyRegion_keepsRemaps r _ d2)
    exact ⟨spared.mem, fun x hx => List.mem_append_left _ (spared.remaps x hx)⟩
  · exact ((logged.trans (modifyRegion_keepsRemaps r _ d2)).trans (logError_keepsRemaps _ _ _ _ _ _ _ _ _)).trans (raiseEvent_keepsRemaps _)

theorem queueWriteBack_keepsRemaps (r w : Nat) (poison : Bool) (d : Dev) : Dev.KeepsRemaps d (queueWriteBack r w poison d) := by
  unfold queueWriteBack
  extract_lets stuck
  split
  · exact .refl d
  · split
    · exact .refl d
    · exact .of rfl rfl

theorem countCorrection_keepsRemaps (r w : Nat) (d : Dev) : Dev.KeepsRemaps d (countCorrection r w d) := by
  unfold countCorrection
  extract_lets d1 d2 leak d3
  have counted : Dev.KeepsRemaps d d1 := (bump_keepsRemaps _ d).trans (gaugeCount_keepsRemaps _ _)
  have tracked : Dev.KeepsRemaps d d3 := (counted.trans (bucketFill_keepsRemaps r d1)).trans (modifyRegion_keepsRemaps r _ d2)
  split
  · exact tracked.trans (hardFault_keepsRemaps r w d3)
  · exact tracked

/-! ## Reads (R406, R407, R416) -/

theorem badRead_keepsRemaps (key : Nat) (poisoned : Bool) (d : Dev) : Dev.KeepsRemaps d (badRead key poisoned d) := by
  have reported : ∀ (src num code : Nat) (det : Bytes) (origin : Nat) (x : Dev),
      Dev.KeepsRemaps x (raiseEvent (logError 0x05 2 code src det (gaugeCount src (bump num x)) (origin := origin))) := fun _ _ _ _ _ x =>
    (((bump_keepsRemaps _ x).trans (gaugeCount_keepsRemaps _ _)).trans (logError_keepsRemaps _ _ _ _ _ _ _ _ _)).trans (raiseEvent_keepsRemaps _)
  cases poisoned with
  | true => exact reported _ _ _ _ _ d
  | false =>
    have drawn : Dev.KeepsRemaps d (drawBelow 127 d).2 := .of rfl rfl
    exact (drawn.trans (reported _ _ _ _ _ _)).trans (queueWriteBack_keepsRemaps _ _ _ _)

theorem readWord_keepsRemaps (key : Nat) (ecc : Ecc) (d : Dev) : Dev.KeepsRemaps d (readWord key ecc d).2 := by
  unfold readWord
  split
  · exact badRead_keepsRemaps key true d
  · cases ecc with
    | clean => exact .refl d
    | corrected => exact (countCorrection_keepsRemaps _ _ d).trans (queueWriteBack_keepsRemaps _ _ _ _)
    | uncorrectable => exact badRead_keepsRemaps key false d

theorem readWords_keepsRemaps (ecc : List (Nat × Ecc)) (ws : List Nat) (i : Nat) (d : Dev) : Dev.KeepsRemaps d (readWords ecc ws i d).2 := by
  induction ws generalizing i d with
  | nil => exact .refl d
  | cons w ws ih => exact (readWord_keepsRemaps _ _ d).trans (ih _ _)

/-! ## Remaps and buckets (R412, R417) -/

/-- The copy of a recorded row: its words are read, and its record says so. -/
theorem exec_remapCopy {k now : Nat} {ecc : List (Nat × Ecc)} {r : Remap} {s : State} (hr : s.dev.integ.remaps[k]? = some r) (hc : r.copied = false) :
    let d := (readWords ecc (rowWords r) 0 (advanceTo now s.dev)).2
    exec (.remapCopy k ecc now) s = .next { s with
      dev := { d with integ := { d.integ with remaps := d.integ.remaps.map fun x => if x = r then { r with copied := true } else x } } } := by
  have recorded : (advanceTo now s.dev).integ.remaps[k]? = some r := hr
  show execRemapCopy k ecc now s = _
  simp only [execRemapCopy, run, recorded, hc, Bool.false_eq_true, if_false]

theorem getRegion_leakRegions (k cap r : Nat) (d : Dev) : (getRegion (leakRegions k cap d) r).level = (getRegion d r).level - k := by
  simp only [getRegion, leakRegions, List.getD_eq_getElem?_getD, Vector.toList_map, List.getElem?_map]
  cases d.integ.regions.toList[r]? with
  | none => exact (Nat.zero_sub k).symm
  | some g => rfl

/-- Leak intervals that have passed since the last leak. -/
def leaksDue (d : Dev) : Nat := (d.tm - d.integ.leakAt) / (objNum d 0xA01001 * 1000000000)

theorem getRegion_leakAt (t r : Nat) (d : Dev) : getRegion { d with integ := { d.integ with leakAt := t } } r = getRegion d r := rfl

/-- Every bucket loses as many levels as leak intervals have passed. -/
theorem getRegion_leakBuckets (r : Nat) (d : Dev) : (getRegion (leakBuckets d) r).level = (getRegion d r).level - leaksDue d := by
  unfold leakBuckets
  extract_lets step k
  change (getRegion (if leaksDue d = 0 then d else _) r).level = _
  split
  · rename_i none
    rw [none, Nat.sub_zero]
  · rw [getRegion_leakRegions, getRegion_leakAt]
    rfl

theorem leakBuckets_mem (d : Dev) : (leakBuckets d).mem = d.mem := by
  unfold leakBuckets
  extract_lets step k
  split <;> rfl

/-! ## Counters that reports do not touch (R75, R419) -/

theorem SameWork.objNum {d d' : Dev} (h : SameWork d d') (k : Nat) : objNum d' k = objNum d k := by
  unfold Machine.objNum
  rw [h.rest]

theorem SameWork.mem {d d' : Dev} (h : SameWork d d') : d'.mem = d.mem := by rw [h.rest]

theorem objNum_addNum (k n : Nat) (d : Dev) : objNum (addNum k n d) k = objNum d k + n := objNum_setNum _ _ _

/-- The sweep on a part that has started, with no word whose three copies differ. -/
theorem exec_triplicateVote {repaired now : Nat} {s : State} (hr : s.dev.power.phase ≠ .inReset) (ho : s.dev.power.phase ≠ .off) :
    exec (.triplicateVote repaired false false false now) s =
      .next { s with dev := gaugeAdd 0x0BC repaired (addNum 0xA00007 repaired (advanceTo now s.dev)) } := by
  have started : ¬((advanceTo now s.dev).power.phase = .inReset ∨ (advanceTo now s.dev).power.phase = .off) := by
    rintro (h | h)
    · exact hr h
    · exact ho h
  show execTriplicateVote repaired false false false now s = _
  simp only [execTriplicateVote, run, if_neg started, voteWords, Bool.or_self, Bool.false_eq_true, if_false]

theorem exec_tidemarkStepRecovery {steps now : Nat} {s : State} (h : 0 < steps) :
    exec (.tidemarkStepRecovery steps now) s = .next { s with dev := logError 0x05 1 7 0 [] (addNum 0x301004 steps (advanceTo now s.dev)) } := by
  show execTidemarkStepRecovery steps now s = _
  simp only [execTidemarkStepRecovery, run, if_neg (Nat.ne_of_gt h)]

end Sys2Proof.Machine

open Sys2Proof Sys2Proof.Machine

/-- Settles O32, command by command. -/
theorem remapsLeaksVotesAndSteps : Obligations.RemapsLeaksVotesAndSteps := by
  refine ⟨?remap, ?leak, ?vote, ?steps⟩
  case remap =>
    intro k now ecc r s hr hc
    have read := readWords_keepsRemaps ecc (rowWords r) 0 (advanceTo now s.dev)
    refine ⟨_, exec_remapCopy hr hc, List.mem_map.mpr ⟨r, read.remaps r (List.mem_of_getElem? hr), if_pos rfl⟩, read.mem⟩
  case leak =>
    intro now s
    exact ⟨_, rfl, leakBuckets_mem _, fun r _ => getRegion_leakBuckets r (advanceTo now s.dev)⟩
  case vote =>
    intro repaired now s hr ho
    have counted := gaugeAdd_same 0x0BC repaired (addNum 0xA00007 repaired (advanceTo now s.dev))
    exact ⟨_, exec_triplicateVote hr ho, (counted.objNum _).trans (objNum_addNum _ _ _), counted.mem⟩
  case steps =>
    intro steps now s h
    have logged := logError_same 0x05 1 7 0 [] (addNum 0x301004 steps (advanceTo now s.dev)) 65535 0 []
    exact ⟨_, exec_tidemarkStepRecovery h, (logged.objNum _).trans (objNum_addNum _ _ _), logged.mem⟩

end

section
/-! Doorbells (R81, R97, R108, R120, R437, R530): traffic that reaches a function's BARs, entries that no row stands for, and completions held behind
a full queue. -/
namespace Sys2Proof.Machine

/-! ## Traffic (R120, R437) -/

/-- Awake, traffic wakes nothing. -/
theorem latchWake_awake {d : Dev} (bits : Nat) (hs : d.power.state < 2) (he : d.power.slumberEntry = false) : latchWake bits d = d := by
  have doze : d.power.state ≠ 2 := by omega
  have slumber : d.power.state ≠ 3 := by omega
  simp only [latchWake, if_neg doze, if_neg slumber, he, Bool.false_eq_true, if_false, ite_self]

/-- A memory request to a function whose BARs answer reaches its work, on the part that has heard the traffic. -/
theorem memRequest_answered {ctrl now : Nat} {d : Dev} (f : Dev → Dev) (h : barsOpen ctrl now d = true) :
    memRequest ctrl f (advanceTo now d) = f (heard (portOf (advanceTo now d) ctrl) now d) := by
  simp only [barsOpen, reached, heard, Bool.and_eq_true] at h
  obtain ⟨⟨⟨⟨link, runs⟩, loaded⟩, found⟩, space⟩ := h
  obtain ⟨k, hk⟩ := Option.isSome_iff_exists.mp found
  have link' : linkUp (advanceTo now d) (portOf (advanceTo now d) ctrl).val = true := link
  have mapped : k.memSpace = true := by simpa only [hk, Option.any_some] using space
  simp only [memRequest, withHost, withBar, heard, link', runs, loaded, hk, mapped, Bool.not_true, Bool.false_eq_true, if_false, if_true]

theorem run_memRequest {ctrl now : Nat} {s : State} (f : Dev → Dev) (h : barsOpen ctrl now s.dev = true) :
    run (fun d => memRequest ctrl f (advanceTo now d)) s = .next { s with dev := f (heard (portOf (advanceTo now s.dev) ctrl) now s.dev) } := by
  simp only [run, memRequest_answered f h]

/-! ## Entries that no row stands for (R97) -/

/-- An entry whose action no row names has an opcode of the part. -/
theorem strayAction_known {c : Cmd} (h : strayAction c = true) : adminOpcodes.contains c.opc = true := by
  unfold strayAction at h
  split at h
  · rename_i e; rw [e]; decide
  · rename_i e; rw [e]; decide
  · rename_i e; rw [e]; decide
  · rename_i e; rw [e]; decide
  · rename_i e; rw [e]; decide
  · cases h

theorem unknownEntry_fetched {c : Cmd} {d : Dev}
    (h : (if c.sq = 0 then adminOpcodes.contains c.opc else ioOpcodes.contains c.opc) = false) :
    unknownEntry c d = fetchCmd c (decide (c.sq = 0)) false (done c stOpcode) d := by
  unfold unknownEntry
  by_cases hq : c.sq = 0
  · rw [if_pos hq] at h
    have named : strayAction c = false := Bool.eq_false_iff.mpr fun e => by rw [strayAction_known e] at h; cases h
    simp only [hq, named, h, decide_true, Bool.and_false, Bool.false_eq_true, if_false, if_true]
  · rw [if_neg hq] at h
    simp only [hq, h, decide_false, Bool.false_and, Bool.false_eq_true, if_false]

theorem takeEntry_queues {c : Cmd} {d : Dev} {q : SubQueue} (h : fetchable d c = some q) : hasQueues c.ctrl c.sq (takeEntry c q (wakeCtrl c d)) := by
  obtain ⟨k, hk, hs, hc⟩ := fetchable_queues h
  have woken : Dev.Grows d (wakeCtrl c d) := by
    unfold wakeCtrl
    split
    · exact .refl d
    · refine modifyCtrl_grows fun k _ => ?_
      split
      · exact .of rfl rfl
      · exact .refl k
  obtain ⟨k', hk', grown⟩ := woken.ctrl _ _ hk
  obtain ⟨p, hp⟩ := Option.isSome_iff_exists.mp hc
  obtain ⟨p', hp', _⟩ := grown.cq _ _ hp
  exact ⟨_, _, getCtrl_modify_self hk', mapGet_set _ _ _, Option.isSome_iff_exists.mpr ⟨p', hp'⟩⟩

/-- An entry that is fetched, with its identifier free and no cancellation, reaches its work. -/
theorem fetchCmd_fetched {c : Cmd} {d : Dev} {q : SubQueue} (f : Dev → Dev) (h : fetchable (advanceTo c.now d) c = some q) (hi : c.cid ∉ q.inflight)
    (hd : c.cid ∉ q.doomed) (hc : q.cancelling = false) :
    fetchCmd c (decide (c.sq = 0)) false f d = f (takeEntry c q (wakeCtrl c (advanceTo c.now d))) := by
  unfold fetchCmd
  simp only [h, ne_eq, not_true_eq_false, List.contains_eq_mem, decide_eq_true_eq, hi, hd, hc, Bool.false_and, Bool.false_eq_true, if_false]

/-! ## Doorbells (R81, R108, R120) -/

theorem badDoorbell_same (ctrl qid value row info gauge : Nat) (d : Dev) : SameWork d (badDoorbell ctrl qid value row info gauge d) := by
  have reported := hostViolation_same 0x21 row gauge ctrl (leBytes 4 qid ++ leBytes 4 value) d
  unfold badDoorbell
  extract_lets d1
  split
  · split
    · exact reported.trans (deliverNotice_same _ _ _)
    · exact reported
  · exact reported

theorem placeCqe_out {e : Cqe} {i : Nat} {q : CompQueue} {d : Dev} {o : Output} (h : o = .cqe e ∨ o ∈ d.out) : o ∈ (placeCqe e i q d).out :=
  (raiseInterrupt_grows _ _ _).out _ (List.mem_cons.mpr h)

theorem flushCq_out {id i : Nat} (n : Nat) {d : Dev} {o : Output} (h : o ∈ d.out) : o ∈ (flushCq id i n d).out := by
  induction n generalizing d with
  | zero => exact h
  | succ n ih =>
    unfold flushCq
    split
    · exact h
    · split
      · exact h
      · split
        · exact h
        · exact ih (placeCqe_out (.inr h))

section
variable {now ctrl qid value : Nat} {s : State} (ha : barsOpen ctrl now s.dev = true)
include ha

theorem exec_sqTailDoorbell (unknown : List Cmd) : exec (.sqTailDoorbell now ctrl qid value unknown) s = .next { s with
    dev := unknown.foldl (fun d c => unknownEntry { c with now := now, ctrl := ctrl, sq := qid } d)
      (tailDoorbell ctrl qid value (heard (portOf (advanceTo now s.dev) ctrl) now s.dev)) } :=
  run_memRequest _ ha

theorem exec_cqHeadDoorbell : exec (.cqHeadDoorbell now ctrl qid value) s = .next { s with
    dev := headDoorbell ctrl qid value (heard (portOf (advanceTo now s.dev) ctrl) now s.dev) } :=
  run_memRequest _ ha

end

section
variable {ctrl qid : Nat} {d : Dev} {k : Ctrl} (hk : getCtrl d ctrl = some k)
include hk

theorem tailDoorbell_none (value : Nat) (h : mapGet k.sqs qid = none) : tailDoorbell ctrl qid value d = badDoorbell ctrl qid value 10 0 0x055 d := by
  simp only [tailDoorbell, hk, Option.bind_some, h]

theorem headDoorbell_none (value : Nat) (h : mapGet k.cqs qid = none) : headDoorbell ctrl qid value d = badDoorbell ctrl qid value 10 0 0x055 d := by
  simp only [headDoorbell, hk, Option.bind_some, h]

theorem tailDoorbell_some {q : SubQueue} (value : Nat) (h : mapGet k.sqs qid = some q) : tailDoorbell ctrl qid value d =
    if q.size ≤ value ∨ ringDist q.size q.head value < ringDist q.size q.head q.tail then badDoorbell ctrl qid value 11 1 0x056 d
    else modifyCtrl ctrl (fun c => { c with sqs := mapSet c.sqs qid { q with tail := value } }) d := by
  simp only [tailDoorbell, hk, Option.bind_some, h]

/-- A completion queue whose head has moved. -/
def CompQueue.freed (q : CompQueue) (value : Nat) : CompQueue := { q with head := value, stalled := q.stalled && decide (value = q.head) }

theorem headDoorbell_some {q : CompQueue} (value : Nat) (h : mapGet k.cqs qid = some q) : headDoorbell ctrl qid value d =
    if q.size ≤ value ∨ ringDist q.size q.head q.tail < ringDist q.size q.head value then badDoorbell ctrl qid value 11 1 0x056 d
    else flushCq ctrl qid q.waiting.length (modifyCtrl ctrl (fun c => { c with cqs := mapSet c.cqs qid (q.freed value) }) d) := by
  simp only [headDoorbell, hk, Option.bind_some, h]
  rfl

/-- The first completion held is posted once the queue has room. -/
theorem flushCq_first {q : CompQueue} {e : Cqe} {es : List Cqe} (n value : Nat) (hw : q.waiting = e :: es) (hr : (q.tail + 1) % q.size ≠ value) :
    Output.cqe e ∈ (flushCq ctrl qid (n + 1) (modifyCtrl ctrl (fun c => { c with cqs := mapSet c.cqs qid (q.freed value) }) d)).out := by
  have freed : (getCtrl (modifyCtrl ctrl (fun c => { c with cqs := mapSet c.cqs qid (q.freed value) }) d) ctrl).bind (fun c => mapGet c.cqs qid) =
      some (q.freed value) := by
    rw [getCtrl_modify_self hk]
    exact mapGet_set _ _ _
  have held : (q.freed value).waiting = e :: es := hw
  have room : cqFull (q.freed value) = false := decide_eq_false hr
  rw [flushCq]
  simp only [freed, held, room, Bool.false_eq_true, if_false]
  exact flushCq_out n (placeCqe_out (.inl rfl))

end

end Sys2Proof.Machine

open Sys2Proof Sys2Proof.Machine

/-- Settles O40: the doorbells through `tailDoorbell` and `headDoorbell` on the part that has heard the traffic, unknown opcodes through
`unknownEntry_fetched`. -/
theorem doorbellsMoveQueuesAndBadOnesAreIgnored : Obligations.DoorbellsMoveQueuesAndBadOnesAreIgnored := by
  refine ⟨fun p now d _ hs he => latchWake_awake 1 hs he, fun now ctrl qid value s k ha => ?_⟩
  intro d hk
  refine ⟨?tail, ?noTail, ?head, ?noHead⟩
  case tail =>
    intro q hq
    have moved := tailDoorbell_some hk value hq
    refine ⟨fun hv hd => ?_, fun bad => ⟨_, exec_sqTailDoorbell ha [], ?_⟩⟩
    · have good : ¬(q.size ≤ value ∨ ringDist q.size q.head value < ringDist q.size q.head q.tail) := by omega
      rw [if_neg good] at moved
      intro d1
      refine ⟨?_, fun c q1 => ?_⟩
      · rw [exec_sqTailDoorbell ha]
        show Host.Outcome.next { s with dev := tailDoorbell ctrl qid value d } = _
        rw [moved]
      · intro c' ho hf hi hx hc
        refine ⟨_, exec_sqTailDoorbell ha [c], ?_⟩
        show Posted c'.ctrl c'.sq c'.cid stOpcode 0 0 (unknownEntry c' (tailDoorbell ctrl qid value d))
        rw [moved, unknownEntry_fetched ho, fetchCmd_fetched _ hf hi hx hc]
        exact done_posted c' stOpcode _ 0 0 0 (takeEntry_queues hf)
    · rw [if_pos bad] at moved
      exact ⟨moved ▸ badDoorbell_same _ _ _ _ _ _ d, moved⟩
  case noTail =>
    intro hq
    have bad := tailDoorbell_none hk value hq
    exact ⟨_, exec_sqTailDoorbell ha [], bad ▸ badDoorbell_same _ _ _ _ _ _ d, bad⟩
  case head =>
    intro q hq
    have moved := headDoorbell_some hk value hq
    refine ⟨fun hv hd => ⟨_, exec_cqHeadDoorbell ha, ?_⟩, fun bad => ⟨_, exec_cqHeadDoorbell ha, ?_⟩⟩
    · have good : ¬(q.size ≤ value ∨ ringDist q.size q.head q.tail < ringDist q.size q.head value) := by omega
      rw [if_neg good] at moved
      refine ⟨fun hw => ?_, fun e es hw room _ => ?_⟩
      · rw [hw] at moved
        exact moved
      · rw [hw] at moved
        show _ ∈ (headDoorbell ctrl qid value d).out
        rw [moved]
        exact flushCq_first hk es.length value hw room
    · rw [if_pos bad] at moved
      exact ⟨moved ▸ badDoorbell_same _ _ _ _ _ _ d, moved⟩
  case noHead =>
    intro hq
    have bad := headDoorbell_none hk value hq
    exact ⟨_, exec_cqHeadDoorbell ha, bad ▸ badDoorbell_same _ _ _ _ _ _ d, bad⟩

end

section
/-! Fences and lookup windows (R22, R120, R147 to R155). -/
namespace Sys2Proof.Machine

/-! ## What a search of the index leaves alone (R251, R255, R262) -/

/-- A search changes at most Eddy's entries, numbers of objects, Gauge and the events of the supervisor core. -/
structure Dev.Searched (d d' : Dev) : Prop where
  /-- Every other field is equal. -/
  rest : d' = { d with eddy := d'.eddy, num := d'.num, gauge := d'.gauge, cores := d'.cores }

theorem Dev.Searched.refl (d : Dev) : Dev.Searched d d := ⟨rfl⟩

theorem Dev.Searched.trans {a b c : Dev} (h : Dev.Searched a b) (g : Dev.Searched b c) : Dev.Searched a c := ⟨by rw [g.rest, h.rest]⟩

theorem gaugeCount_searched (src : Nat) (d : Dev) : Dev.Searched d (gaugeCount src d) := by
  unfold gaugeCount gaugeAdd
  dsimp only
  split <;> exact ⟨rfl⟩

theorem parityFail_searched (a : Nat) (d : Dev) : Dev.Searched d (parityFail a d) := by
  have counted : ∀ x : Dev, Dev.Searched x (raiseEvent (gaugeCount 0x042 x)) := fun x => (gaugeCount_searched _ x).trans ⟨rfl⟩
  exact Dev.Searched.trans ⟨rfl⟩ (counted _)

theorem eddySearchLoop_searched (k p mask : Nat) (key : BitVec 128) (bad : List Nat) (d : Dev) :
    Dev.Searched d (eddySearchLoop k p mask key bad d).2 := by
  induction k generalizing bad d with
  | zero => exact .refl d
  | succ k ih =>
    unfold eddySearchLoop
    split
    · exact .refl d
    · split
      · exact (parityFail_searched _ d).trans (ih _ _)
      · exact .refl d

theorem findObject_searched (key : Nat) (bad : List Nat) (d : Dev) : Dev.Searched d (findObject key bad d).2 := by
  have counted : Dev.Searched d (bump 0x600004 d) := ⟨rfl⟩
  have searched : Dev.Searched d (eddySearch 0 0 (BitVec.ofNat 128 key) bad d).2 := counted.trans (eddySearchLoop_searched _ _ _ _ _ _)
  unfold findObject
  split
  · rename_i h
    rw [h] at searched
    exact searched
  · rename_i h
    rw [h] at searched
    split <;> exact searched

theorem classSearch_searched (key cls : Nat) (bad : List Nat) (d : Dev) : Dev.Searched d (classSearch key cls bad d).2.2 := by
  have first := findObject_searched (withClass key cls) bad d
  unfold classSearch
  split
  · rename_i h
    rw [h] at first
    exact first
  · rename_i d1 h
    rw [h] at first
    split
    · exact first
    · have second := findObject_searched (withClass key 0) bad d1
      split <;> rename_i h2 <;> rw [h2] at second <;> exact first.trans second

/-! ## A queue with its Fence (R148, R149) -/

/-- A submission queue with a Fence that stands in it. -/
def SubQueue.fenced (q : SubQueue) (cid : Nat) (chain : Bool) : SubQueue := { q with fence := some (cid, chain), cancelling := false }

/-- The part once a Fence has been put into its queue and counted. -/
def fencePut (c : Cmd) (d : Dev) : Dev :=
  gaugeCount 0x00A
    (modifyCtrl c.ctrl (fun k => { k with sqs := mapUpdate k.sqs c.sq fun q => { q with fence := some (c.cid, bit c.cdw10 0) } })
      (modifyCtrl c.ctrl (fun k => { k with sqs := mapUpdate k.sqs c.sq fun q => { q with cancelling := false } }) d))

theorem getCtrl_gaugeCount (src id : Nat) (d : Dev) : getCtrl (gaugeCount src d) id = getCtrl d id := by
  simp only [getCtrl, (gaugeCount_kept src d).host]

theorem mapGet_update_self {β : Type} {m : AMap β} {a : Nat} {x : β} (f : β → β) (h : mapGet m a = some x) :
    mapGet (mapUpdate m a f) a = some (f x) := by
  rw [mapGet_update, if_pos rfl, h]
  rfl

theorem exec_fence {c : Cmd} {s : State} (ha : admitted c false s.dev = true) (hn : c.nsid = 0) (h2 : c.cdw2 = 0) (h3 : c.cdw3 = 0)
    (z1 : zeroBits c.cdw10 31 1 = true) (z2 : zeroFrom 11 c = true) :
    exec (.fence c) s = .next { s with dev := completeFence c.ctrl c.sq (fencePut c (taken c s.dev)) } := by
  obtain ⟨hf, _, _⟩ := admitted_checks ha
  have refused : (!fieldsOk c false || c.nsid ≠ 0 || c.cdw2 ≠ 0 || c.cdw3 ≠ 0 || !zeroBits c.cdw10 31 1 || !zeroFrom 11 c) = false := by
    simp [hf, hn, h2, h3, z1, z2]
  show run (fetchCmd (withOp 0x8C c) false true _) s = _
  unfold run
  rw [fetchCmd_admitted (c := withOp 0x8C c) _ ha]
  refine congrArg (fun x => Host.Outcome.next { s with dev := x }) ?_
  exact if_neg (Bool.eq_false_iff.mp refused)

/-- A change of a submission queue that leaves it set up as it was. -/
theorem updateSq_same (ctrl sq : Nat) (f : SubQueue → SubQueue) (d : Dev) (h : ∀ q, (f q).setUp = q.setUp) :
    SameWork d (modifyCtrl ctrl (fun k => { k with sqs := mapUpdate k.sqs sq f }) d) := modifyCtrl_same fun k _ => .updateSq k sq f h

theorem updateSq_grows (ctrl sq : Nat) (f : SubQueue → SubQueue) (d : Dev) (h : ∀ q, (f q).cq = q.cq) :
    Dev.Grows d (modifyCtrl ctrl (fun k => { k with sqs := mapUpdate k.sqs sq f }) d) := modifyCtrl_grows fun k _ => .updateSq k sq f h

theorem fencePut_same (c : Cmd) (d : Dev) : SameWork d (fencePut c d) :=
  ((updateSq_same _ _ _ d fun _ => by rfl).trans (updateSq_same _ _ _ _ fun _ => by rfl)).trans (gaugeCount_same _ _)

theorem fencePut_grows (c : Cmd) (d : Dev) : Dev.Grows d (fencePut c d) :=
  ((updateSq_grows _ _ _ d fun _ => by rfl).trans (updateSq_grows _ _ _ _ fun _ => by rfl)).trans (gaugeCount_grows _ _)

section
variable {c : Cmd} {d : Dev} {k : Ctrl} {q : SubQueue} (hk : getCtrl d c.ctrl = some k) (hq : mapGet k.sqs c.sq = some q)
include hk hq

/-- The Fence stands in its queue. -/
theorem fencePut_queue : ∃ k', getCtrl (fencePut c d) c.ctrl = some k' ∧ mapGet k'.sqs c.sq = some (q.fenced c.cid (bit c.cdw10 0)) :=
  ⟨_, (getCtrl_gaugeCount _ _ _).trans (getCtrl_modify_self (getCtrl_modify_self hk)), mapGet_update_self _ (mapGet_update_self _ hq)⟩

end

section
variable {ctrl sq cid : Nat} {chain : Bool} {d : Dev} {k : Ctrl} {q : SubQueue} (hk : getCtrl d ctrl = some k) (hq : mapGet k.sqs sq = some q)
  (hf : q.fence = some (cid, chain))
include hk hq hf

theorem completeFence_waits (hall : q.inflight.all (fun i => i = cid || q.earlier.contains i) = false) : completeFence ctrl sq d = d := by
  simp only [completeFence, hk, Option.bind_some, hq, hf, hall, Bool.false_eq_true, if_false]

/-- A queue with a Fence gives no entry (R149). -/
theorem fetchable_fenced {c : Cmd} (hc : c.ctrl = ctrl) (hs : c.sq = sq) : fetchable d c = none := by
  unfold fetchable
  simp only [hc, hs, hk, hq, hf, Option.isNone_some, Bool.and_false, Bool.false_and, Bool.false_eq_true, if_false]
  split <;> rfl

end

/-- An entry posted is written, or waits behind a full queue. -/
theorem postOne_writes {e : Cqe} {d : Dev} (h : hasQueues e.ctrl e.sq d) :
    Output.cqe e ∈ (postOne e d).out ∨ ∃ k i q, getCtrl (postOne e d) e.ctrl = some k ∧ mapGet k.cqs i = some q ∧ e ∈ q.waiting := by
  obtain ⟨k, q, hk, hq, hc⟩ := h
  obtain ⟨p, hp⟩ := Option.isSome_iff_exists.mp hc
  have left : Dev.Grows d (countStatus e.sct e.sc (modifyCtrl e.ctrl (fun c => { c with sqs := mapSet c.sqs e.sq (leaveFlight e q) }) d)) := by
    refine (modifyCtrl_grows fun k' hk' => ?_).trans (countStatus_grows _ _ _)
    rw [hk] at hk'
    cases hk'
    exact .setSq hq rfl
  obtain ⟨k', hk', grown⟩ := left.ctrl _ _ hk
  obtain ⟨p', hp', _⟩ := grown.cq _ _ hp
  unfold postOne
  simp only [hk, Option.bind_some, hq]
  exact writeCqe_posts hk' (by rw [hp']; rfl)

/-- Neither end of a Fence sets DNR or M (R127, R149, R150). -/
theorem fenceStatus_bits {st : Status} (d : Dev) (h : st = stOk ∨ st = stFenceAborted) : dnrOf d st = false ∧ moreOf st = false := by
  rcases h with rfl | rfl <;> exact ⟨rfl, rfl⟩

/-- A Fence whose span has all posted completes with the span's failures (R149, R150). -/
theorem completeFence_posted {ctrl sq cid : Nat} {chain : Bool} {d : Dev} {k : Ctrl} {q : SubQueue} (hk : getCtrl d ctrl = some k)
    (hq : mapGet k.sqs sq = some q) (hf : q.fence = some (cid, chain)) (hc : hasQueues ctrl sq d)
    (hall : q.inflight.all (fun i => i = cid || q.earlier.contains i) = true) :
    Posted ctrl sq cid (if chain = true ∧ q.spanFails ≠ 0 then stFenceAborted else stOk) (q.spanFirst + 65536 * q.spanFails) 0
      (completeFence ctrl sq d) := by
  have ends : Posted ctrl sq cid (if chain && decide (q.spanFails ≠ 0) then stFenceAborted else stOk) (q.spanFirst + 65536 * q.spanFails) 0
      (completeFence ctrl sq d) := by
    unfold completeFence
    simp -zeta only [hk, Option.bind_some, hq, hf, hall, if_true]
    extract_lets bad e
    have status : (if bad then stFenceAborted else stOk) = (e.sct, e.sc) := by
      cases h : bad <;> simp [e, h, stFenceAborted, stOk]
    have bits := fun x => fenceStatus_bits (st := if bad then stFenceAborted else stOk) x (by cases bad <;> simp)
    have kept := updateSq_grows ctrl sq (fun q => { q with fence := none, spanFails := 0, spanFirst := 0, cancelling := bad }) (postOne e d)
      fun _ => rfl
    have written : Posted ctrl sq cid (if bad then stFenceAborted else stOk) (q.spanFirst + 65536 * q.spanFails) 0 (postOne e d) :=
      ⟨e, rfl, rfl, rfl, (congrArg Prod.fst status).symm, (congrArg Prod.snd status).symm, rfl, rfl, (bits _).1.symm, (bits d).2.symm,
        postOne_writes (e := e) hc⟩
    exact written.grows kept rfl
  simpa only [Bool.and_eq_true, decide_eq_true_eq] using ends

/-! ## A write of KEY (R120, R152, R153) -/

theorem lookupWindow_modify {ctrl w : Nat} {d : Dev} {k : Ctrl} (f : LookupWindow → LookupWindow) (hk : getCtrl d ctrl = some k) :
    lookupWindow (modifyWindow ctrl w f d) ctrl w = f (lookupWindow d ctrl w) := by
  unfold lookupWindow modifyWindow
  simp only [getCtrl_modify_self hk, hk, mapGetD, mapGet_set, Option.getD_some]

theorem lookupWindow_host {d d' : Dev} (h : d'.host = d.host) (ctrl w : Nat) : lookupWindow d' ctrl w = lookupWindow d ctrl w := by
  simp only [lookupWindow, getCtrl, h]

/-- Awake, traffic changes at most its port and the latches of an entry into Slumber (R437). -/
theorem heard_awake (p : Fin 2) (now : Nat) {d : Dev} (hs : d.power.state < 2) :
    ∃ pw, heard p now d = { modifyPort p (fun q => { q with l1 := false }) (advanceTo now d) with power := pw } ∧
      pw.phase = d.power.phase ∧ pw.state = d.power.state := by
  have doze : d.power.state ≠ 2 := by omega
  have slumber : d.power.state ≠ 3 := by omega
  unfold heard pcieActivity latchWake
  simp only [modifyPort_power, advanceTo_power, doze, slumber, if_false]
  split
  · exact ⟨d.power, rfl, rfl, rfl⟩
  · split
    · exact ⟨_, rfl, rfl, rfl⟩
    · exact ⟨d.power, rfl, rfl, rfl⟩

/-- The function's BARs answer while the part is awake and in service. -/
theorem barsOpen_awake {ctrl : Nat} (now : Nat) {d : Dev} {k : Ctrl} (hk : getCtrl d ctrl = some k) (hm : k.memSpace = true) (hp : k.port < 2)
    (hl : linkUp d k.port = true) (hr : d.power.phase = .ready) (hs : d.power.state < 2) : barsOpen ctrl now d = true := by
  obtain ⟨pw, he, hphase, hstate⟩ := heard_awake (portOf (advanceTo now d) ctrl) now hs
  have found : getCtrl (heard (portOf (advanceTo now d) ctrl) now d) ctrl = some k := by
    rw [he]
    exact hk
  have port : portOf (advanceTo now d) ctrl = portIdx k.port := by
    have hk' : getCtrl (advanceTo now d) ctrl = some k := hk
    simp only [portOf, hk']
  have number : (portIdx k.port).val = k.port := by
    unfold portIdx
    split <;> simp <;> omega
  have link : linkUp d (portOf (advanceTo now d) ctrl).val = true := by rw [port, number, hl]
  have power : (heard (portOf (advanceTo now d) ctrl) now d).power = pw := by rw [he]
  have runs : hostRuns (heard (portOf (advanceTo now d) ctrl) now d) = true := by
    have doze : d.power.state ≠ 2 := by omega
    have slumber : d.power.state ≠ 3 := by omega
    simp [hostRuns, islandState, islandAbsent, power, hphase, hstate, hr, doze, slumber]
  have loaded : configLoaded (heard (portOf (advanceTo now d) ctrl) now d) = true := by
    simp [configLoaded, power, hphase, hr]
  simp only [barsOpen, reached, link, runs, loaded, found, hm, Option.isSome_some, Option.any_some, Bool.and_self]

/-- A window after a write that reaches its KEY; one that covers KEY bytes 0x0C to 0x0F starts a search (R153). -/
def LookupWindow.keyed (x : LookupWindow) (off : Nat) (bs : Bytes) : LookupWindow :=
  let y := windowPut off bs x
  if off ≤ 12 ∧ 16 ≤ off + bs.length then { y with seq := (y.seq + 1) % 65536, job := some (y.key, y.ctl, y.nsid) } else y

/-- A write that reaches KEY clears VALID and discards the search that runs (R152, R153). -/
theorem windowPut_idle {off : Nat} (bs : Bytes) (x : LookupWindow) (h : off < 16) :
    (windowPut off bs x).valid = false ∧ (windowPut off bs x).job = none := by
  simp [windowPut, h]

theorem lookupWindow_some {ctrl w : Nat} {d : Dev} {k : Ctrl} (hk : getCtrl d ctrl = some k) :
    lookupWindow d ctrl w = mapGetD k.windows w {} := by
  simp only [lookupWindow, hk]

theorem windowWrite_window {ctrl w off : Nat} {bs : Bytes} {d : Dev} {k : Ctrl} (hk : getCtrl d ctrl = some k) (ho : off < 16) (hb : 4 ≤ bs.length) :
    lookupWindow (windowWrite ctrl w off bs d) ctrl w = (mapGetD k.windows w {}).keyed off bs := by
  have put := lookupWindow_modify (w := w) (windowPut off bs) hk
  rw [lookupWindow_some hk] at put
  obtain ⟨idle, _⟩ := windowPut_idle bs (mapGetD k.windows w {}) ho
  unfold windowWrite LookupWindow.keyed
  rw [if_neg (by omega)]
  dsimp only
  split
  · have found : getCtrl (modifyWindow ctrl w (windowPut off bs) d) ctrl = some _ := getCtrl_modify_self hk
    rw [lookupWindow_host (gaugeCount_kept _ _).host, lookupWindow_modify _ found, put, idle]
  · exact put

theorem windowWrite_work {ctrl w off : Nat} {bs : Bytes} {d : Dev} (hb : 4 ≤ bs.length) :
    (windowWrite ctrl w off bs d).sess = d.sess ∧ (windowWrite ctrl w off bs d).reqs = d.reqs ∧ (windowWrite ctrl w off bs d).media = d.media ∧
      (windowWrite ctrl w off bs d).mem = d.mem := by
  unfold windowWrite
  rw [if_neg (by omega)]
  dsimp only
  split
  · rw [(gaugeCount_same _ _).rest]
    exact ⟨rfl, rfl, rfl, rfl⟩
  · exact ⟨rfl, rfl, rfl, rfl⟩

theorem exec_lookupWindowKeyWrite {now ctrl w : Nat} {off : Fin 16} {bytes : Bytes} {s : State} (ha : barsOpen ctrl now s.dev = true) (hw : w < 1024)
    (hl : off.val + bytes.length ≤ 64) :
    exec (.lookupWindowKeyWrite now ctrl w off bytes) s = .next { s with
      dev := windowWrite ctrl w off.val bytes (heard (portOf (advanceTo now s.dev) ctrl) now s.dev) } := by
  show run (fun d => memRequest ctrl (windowWrite ctrl (w % 1024) off.val (bytes.take (64 - off.val))) (advanceTo now d)) s = _
  rw [Nat.mod_eq_of_lt hw, List.take_of_length_le (by omega)]
  exact run_memRequest _ ha

/-! ## The end of a window's search (R22, R152 to R154) -/

/-- STATUS of a search that ended with an ERROR or with a match (R152). -/
def windowStatus (err : Nat) : Option ObjRec → Nat
  | some o => 2 + (if o.withdrawn then 4 else 0) + (if o.compressed then 8 else 0) + keyClass o.key * 16
  | none => err * 256

/-- A window once its search has ended. -/
def LookupWindow.answered (x : LookupWindow) (tm err : Nat) (o : Option ObjRec) : LookupWindow :=
  { x with job := none, valid := true, status := windowStatus err o, result := windowResult tm o }

/-- The answer is put into the window that asked, whatever the search has done to the index. -/
theorem windowAnswer_window {ctrl w : Nat} {d d1 : Dev} {k : Ctrl} (err : Nat) (o : Option ObjRec) (hk : getCtrl d ctrl = some k)
    (h : Dev.Searched d d1) : lookupWindow (windowAnswer ctrl w err o d1) ctrl w = (lookupWindow d ctrl w).answered d.tm err o := by
  have host : d1.host = d.host := by rw [h.rest]
  have tm : d1.tm = d.tm := by rw [h.rest]
  have found : getCtrl d1 ctrl = some k := by rw [← hk, getCtrl, getCtrl, host]
  unfold windowAnswer
  rw [lookupWindow_modify _ found, lookupWindow_host host, tm]
  cases o <;> rfl

theorem lookupWindow_job {ctrl w : Nat} {d : Dev} {x : Bytes × Nat × Nat} (h : (lookupWindow d ctrl w).job = some x) :
    ∃ k, getCtrl d ctrl = some k := by
  unfold lookupWindow at h
  cases hk : getCtrl d ctrl with
  | none => simp [hk] at h
  | some k => exact ⟨k, rfl⟩

section
variable {ctrl w ctl nsid : Nat} {kb : Bytes} {bad : List Nat} {d : Dev} (hj : (lookupWindow d ctrl w).job = some (kb, ctl, nsid))
include hj

theorem windowSearch_noNamespace (hn : (attachedNs d ctrl nsid).filter (·.kind = 2) = none) :
    lookupWindow (windowSearch ctrl w bad d) ctrl w = (lookupWindow d ctrl w).answered d.tm 1 none := by
  obtain ⟨k, hk⟩ := lookupWindow_job hj
  simp only [windowSearch, hj, hn]
  exact windowAnswer_window 1 none hk (.refl d)

variable {n : Namespace} (hn : (attachedNs d ctrl nsid).filter (·.kind = 2) = some n)
include hn

theorem windowSearch_reservedBits (hc : keyClean (leNat kb) = false) :
    lookupWindow (windowSearch ctrl w bad d) ctrl w = (lookupWindow d ctrl w).answered d.tm 2 none := by
  obtain ⟨k, hk⟩ := lookupWindow_job hj
  simp only [windowSearch, hj, hn, hc, Bool.not_false, if_true]
  exact windowAnswer_window 2 none hk (.refl d)

variable (hc : keyClean (leNat kb) = true)
include hc

theorem windowSearch_noProfile (hb : bit ctl 6 = true) (hi : profileImage d (ctl % 64) = none) :
    lookupWindow (windowSearch ctrl w bad d) ctrl w = (lookupWindow d ctrl w).answered d.tm 3 none := by
  obtain ⟨k, hk⟩ := lookupWindow_job hj
  simp only [windowSearch, hj, hn, hc, hb, hi, Bool.not_true, Bool.false_eq_true, if_false, if_true]
  exact windowAnswer_window 3 none hk (.refl d)

theorem windowSearch_class {img : Bytes} {r : Option (EddyHit × Nat × ObjRec)} {back : Bool} {d1 : Dev} (hb : bit ctl 6 = true)
    (hi : profileImage d (ctl % 64) = some img) (hs : classSearch (withTag (leNat kb) n.tag) (imgClass img) bad d = (r, back, d1)) :
    lookupWindow (windowSearch ctrl w bad d) ctrl w = (lookupWindow d ctrl w).answered d.tm 0 (r.map fun x => x.2.2) := by
  obtain ⟨k, hk⟩ := lookupWindow_job hj
  have searched := classSearch_searched (withTag (leNat kb) n.tag) (imgClass img) bad d
  rw [hs] at searched
  simp only [windowSearch, hj, hn, hc, hb, hi, hs, Bool.not_true, Bool.false_eq_true, if_false, if_true]
  exact windowAnswer_window 0 _ hk searched

theorem windowSearch_exact {r : Option (EddyHit × Nat × ObjRec)} {d1 : Dev} (hb : bit ctl 6 = false)
    (hs : findObject (withTag (leNat kb) n.tag) bad d = (r, d1)) :
    lookupWindow (windowSearch ctrl w bad d) ctrl w = (lookupWindow d ctrl w).answered d.tm 0 (r.map fun x => x.2.2) := by
  obtain ⟨k, hk⟩ := lookupWindow_job hj
  have searched := findObject_searched (withTag (leNat kb) n.tag) bad d
  rw [hs] at searched
  simp only [windowSearch, hj, hn, hc, hb, hs, Bool.not_true, Bool.false_eq_true, if_false]
  exact windowAnswer_window 0 _ hk searched

end

theorem exec_lookupWindowResult {now ctrl w : Nat} {bad : List Nat} {s : State} (hw : w < 1024) :
    exec (.lookupWindowResult now ctrl w bad) s = .next { s with dev := windowSearch ctrl w bad (advanceTo now s.dev) } := by
  show run (fun d => windowSearch ctrl (w % 1024) bad (advanceTo now d)) s = _
  rw [Nat.mod_eq_of_lt hw]
  rfl

end Sys2Proof.Machine

open Sys2Proof Sys2Proof.Machine

/-- Settles O38: a Fence stands in its queue by `fencePut_queue` and then waits or ends in `completeFence`; a KEY write is `windowWrite` on the
part that has heard the traffic; each end of a search is the answer of `windowAnswer_window`. -/
theorem fencesAndLookupWindowsComplete : Obligations.FencesAndLookupWindowsComplete := by
  refine ⟨?fence, ?keyWrite, ?search⟩
  case fence =>
    intro c s k q ha hn h2 h3 z1 z2 d hk hq chain
    have ran := exec_fence ha hn h2 h3 z1 z2
    obtain ⟨k', hk', hq'⟩ := fencePut_queue hk hq
    refine ⟨fun hall => ⟨_, ran, ?_⟩, fun hall => ⟨_, k', ran, ?_⟩⟩
    · have ended := completeFence_posted hk' hq' rfl ((taken_queues ha).grows (fencePut_grows c d)) hall
      exact ended
    · show SameWork d (completeFence c.ctrl c.sq (fencePut c d)) ∧ _
      rw [completeFence_waits hk' hq' rfl hall]
      exact ⟨fencePut_same c d, hk', hq', fun c' hc hs => fetchable_fenced hk' hq' rfl hc hs⟩
  case keyWrite =>
    intro now ctrl w off bytes s k hk hm hp hl hr hs hw hb hlen y
    have ran := exec_lookupWindowKeyWrite (w := w) (bytes := bytes) (barsOpen_awake now hk hm hp hl hr hs) hw hlen
    obtain ⟨pw, he, _, _⟩ := heard_awake (portOf (advanceTo now s.dev) ctrl) now hs
    rw [he] at ran
    obtain ⟨hv, hj⟩ := windowPut_idle bytes (mapGetD k.windows w {}) off.isLt
    exact ⟨_, ran, hv, hj, windowWrite_window (k := k) hk off.isLt hb, windowWrite_work hb⟩
  case search =>
    intro now ctrl w ctl nsid kb bad s hw hj d x answer hit ns
    have ran := exec_lookupWindowResult (now := now) (ctrl := ctrl) (bad := bad) (s := s) hw
    have hj' : (lookupWindow d ctrl w).job = some (kb, ctl, nsid) := hj
    refine ⟨fun hn => ⟨_, ran, windowSearch_noNamespace hj' hn⟩, fun n hn hc => ⟨_, ran, windowSearch_reservedBits hj' hn hc⟩,
      fun n hn hc => ⟨fun hb hi => ⟨_, ran, windowSearch_noProfile hj' hn hc hb hi⟩, fun hb img hi => ⟨?_, ?_⟩, fun hb => ⟨?_, ?_⟩⟩⟩
    · exact fun h rec o back d1 hs => ⟨_, ran, windowSearch_class hj' hn hc hb hi hs⟩
    · exact fun back d1 hs => ⟨_, ran, windowSearch_class hj' hn hc hb hi hs⟩
    · exact fun h rec o d1 hs => ⟨_, ran, windowSearch_exact hj' hn hc hb hs⟩
    · exact fun d1 hs => ⟨_, ran, windowSearch_exact hj' hn hc hb hs⟩

end

section
/-! Object Put admitted, Lookup and Object Evict (R32, R127, R135 to R138, R145, R146, R209). -/
namespace Sys2Proof.Machine

/-! ## Admission of a Put (R23, R135 to R137, R209) -/

/-- A Delivery command runs its own work on the part with its entry taken (R122, R123). -/
theorem run_deliveryCmd {c : Cmd} {s : State} {takesNs takesLen : Bool} (opc : Nat) (f : Dev → Dev) (ha : admitted c false s.dev = true)
    (h3 : c.cdw3 = 0) (hn : takesNs = true ∨ c.nsid = 0) (hl : takesLen = true ∨ c.cdw2 = 0) :
    run (deliveryCmd (withOp opc c) takesNs takesLen f) s = .next { s with dev := f (taken c s.dev) } := by
  have work := deliveryCmd_admitted (c := withOp opc c) f ha h3 hn hl
  unfold run
  rw [work]
  rfl

theorem nsCmd_attached {c : Cmd} {kind : Nat} {d : Dev} {n : Namespace} (f : Namespace → Dev → Dev) (hn : attachedNs d c.ctrl c.nsid = some n)
    (hk : n.kind = kind) : nsCmd c kind f d = f n d := by
  simp only [nsCmd, hn, if_pos hk]

/-- A Put that passes every check of R137 is admitted here. -/
theorem putCmd_admits {c : Cmd} {d : Dev} {n : Namespace} {slot : Nat} (hx : c.xfer = .ok) (hn : attachedNs d c.ctrl c.nsid = some n)
    (h2 : n.kind = 2) (hk : keyClean (cmdKey c) = true) (ht : keyKind (cmdKey c) < 6) (hp : placedOn d (withTag (cmdKey c) n.tag) = none)
    (hl : lengthOk c.cdw2 = true) (z1 : zeroBits c.cdw10 14 13 = true) (z2 : zeroBits c.cdw10 31 17 = true)
    (hc : bit c.cdw10 16 = true → 2 ≤ keyKind (cmdKey c) ∧ d.variant ≠ .vl7e)
    (hs : putSlot d (withTag (cmdKey c) n.tag) (bit c.cdw10 15) (bits c.cdw10 12 0) = .ok slot) (hload : storageLoaded d slot = true)
    (hfit : putFits d c.ctrl (withTag (cmdKey c) n.tag) n c.cdw2 = true) :
    putCmd c d = admitPut c (withTag (cmdKey c) n.tag) n.iu slot none d := by
  have fields : (!(lengthOk c.cdw2 && zeroBits c.cdw10 14 13 && zeroBits c.cdw10 31 17 && keyClean (cmdKey c) && decide (keyKind (cmdKey c) < 6)) ||
      (bit c.cdw10 16 && decide (keyKind (cmdKey c) < 2))) = false := by
    rw [hl, z1, z2, hk, decide_eq_true ht]
    cases hb : bit c.cdw10 16 with
    | false => rfl
    | true =>
      obtain ⟨kinds, _⟩ := hc hb
      simp only [Bool.true_and, Nat.not_lt.mpr kinds, decide_false, Bool.not_true, Bool.or_self]
  have unit : (bit c.cdw10 16 && decide (d.variant = .vl7e)) = false := by
    cases hb : bit c.cdw10 16 with
    | false => rfl
    | true =>
      obtain ⟨_, riffle⟩ := hc hb
      simpa using riffle
  unfold putCmd
  simp only [fields, Bool.false_eq_true, if_false, nsCmd_attached _ hn h2, withData_ok _ d hx, unit, hs, hload, Bool.not_true, hp, hfit, if_true]

/-- The request with which a Put enters (R138, R209). -/
def putRequest (c : Cmd) (key cls slot : Nat) (g : KeyGen) : Req :=
  { ctrl := c.ctrl, sq := c.sq, cid := c.cid, op := 2, step := .arriving, key := key, nsid := c.nsid, len := c.cdw2
    obj := putRecord key cls c.cdw2 c.cdw11 slot c.ctrl (bit c.cdw10 16), store := some (slot, g.gen), storeUse := true }

/-- The part with a Put entered under the next request tag and its storage generation in use, before its title is bound. -/
def putEntered (c : Cmd) (key cls slot : Nat) (g : KeyGen) (d : Dev) : Dev :=
  let d1 := modifyGen slot g.gen (fun k => { k with inUse := k.inUse + 1 }) { d with host := { d.host with nextTag := d.host.nextTag + 1 } }
  { d1 with reqs := mapSet d1.reqs d.host.nextTag (putRequest c key cls slot g) }

theorem admitPut_enters {c : Cmd} {key cls slot : Nat} {g : KeyGen} {d : Dev} (h : (keySlot d slot).current = some g) :
    admitPut c key cls slot none d = bindTitle key slot (putEntered c key cls slot g d) := by
  have bound : bindGen slot (takeTag d).2 = (some g.gen, modifyGen slot g.gen (fun k => { k with inUse := k.inUse + 1 }) (takeTag d).2) := by
    have current : (keySlot (takeTag d).2 slot).current = some g := h
    simp only [bindGen, current]
  unfold admitPut
  simp only [bound]
  rfl

/-- A slot that had a current generation has one while a request uses it. -/
theorem putEntered_current {c : Cmd} {key cls slot : Nat} {g : KeyGen} {d : Dev} (h : (keySlot d slot).current = some g) :
    (keySlot (putEntered c key cls slot g d) slot).current.isSome = true := by
  have current : (keySlot { d with host := { d.host with nextTag := d.host.nextTag + 1 } } slot).current = some g := h
  show (keySlot (modifyGen slot g.gen _ { d with host := { d.host with nextTag := d.host.nextTag + 1 } }) slot).current.isSome = true
  unfold modifyGen
  rw [keySlot_modify, current]
  rfl

/-- A title's binding changes the titles and nothing else. -/
theorem bindTitle_rest (key slot : Nat) (d : Dev) :
    bindTitle key slot d = { d with media := { d.media with titles := (bindTitle key slot d).media.titles } } := by
  unfold bindTitle
  dsimp only
  split <;> rfl

/-- A title that was free, or bound to the slot, is bound to it (R136). -/
theorem bindTitle_slot {key slot : Nat} {d : Dev} (hc : (keySlot d slot).current.isSome = true)
    (hb : ∀ b, mapGet d.media.titles (keyTag key * 2 ^ 32 + keyTitle key) = some b → b.slot = slot) :
    (mapGet (bindTitle key slot d).media.titles (keyTag key * 2 ^ 32 + keyTitle key)).map TitleBinding.slot = some slot := by
  obtain ⟨g, hg⟩ := Option.isSome_iff_exists.mp hc
  unfold bindTitle
  cases ht : mapGet d.media.titles (keyTag key * 2 ^ 32 + keyTitle key) with
  | none =>
    simp only [ht, hg, modifyMedia, mapGet_set]
    rfl
  | some b =>
    simp only [ht, Option.map_some]
    rw [hb b ht]

/-- The slot that a Put takes is the one its title is bound to (R136). -/
theorem putSlot_bound {d : Dev} {key named slot : Nat} {skp : Bool} (h : putSlot d key skp named = .ok slot) {b : TitleBinding}
    (hb : mapGet d.media.titles (keyTag key * 2 ^ 32 + keyTitle key) = some b) : b.slot = slot := by
  simp only [putSlot, hb] at h
  split at h
  · cases h
  · exact Except.ok.inj h

theorem storageLoaded_current {d : Dev} {slot : Nat} (h : storageLoaded d slot = true) : ∃ g, (keySlot d slot).current = some g := by
  simp only [storageLoaded, Bool.and_eq_true] at h
  exact Option.isSome_iff_exists.mp h.2

/-! ## Lookup and Object Evict (R32, R145, R146) -/

/-- An exact-key command on a key held here does its work here. -/
theorem exactCmd_here {c : Cmd} {kind : Nat} {d : Dev} {n : Namespace} (f : Nat → Dev → Dev) (h10 : c.cdw10 = 0) (h11 : c.cdw11 = 0)
    (hk : keyClean (cmdKey c) = true) (ht : keyKind (cmdKey c) < 6) (hn : attachedNs d c.ctrl c.nsid = some n) (h2 : n.kind = 2)
    (hp : placedOn d (withTag (cmdKey c) n.tag) = none) : exactCmd c kind f d = f (withTag (cmdKey c) n.tag) d := by
  have fields : (c.cdw10 ≠ 0 || c.cdw11 ≠ 0 || !keyClean (cmdKey c) || decide (6 ≤ keyKind (cmdKey c))) = false := by
    simpa [h10, h11, hk] using ht
  unfold exactCmd
  simp only [fields, Bool.false_eq_true, if_false, nsCmd_attached _ hn h2, hp]

/-- Two states that differ at most in Gauge and in the events of the cores. -/
structure Dev.Counted (d d' : Dev) : Prop where
  /-- Every other field is equal. -/
  rest : d' = { d with gauge := d'.gauge, cores := d'.cores }
  /-- A core differs at most in its level sources. -/
  cores : ∀ n : CoreId, d'.cores[n] = { d.cores[n] with level := d'.cores[n].level }

theorem Dev.Counted.symm {d d' : Dev} (h : Dev.Counted d d') : Dev.Counted d' d := ⟨by rw [h.rest], fun n => by rw [h.cores n]⟩

theorem Dev.Counted.trans {a b c : Dev} (h : Dev.Counted a b) (g : Dev.Counted b c) : Dev.Counted a c :=
  ⟨by rw [g.rest, h.rest], fun n => by rw [g.cores n, h.cores n]⟩

theorem Dev.Counted.same {d d' : Dev} (h : Dev.Counted d d') : SameWork d d' := by
  have host : d'.host = d.host := by rw [h.rest]
  refine ⟨?_, h.cores, host ▸ .refl _⟩
  rw [h.rest]

theorem gaugeCount_counted (src : Nat) (d : Dev) : Dev.Counted d (gaugeCount src d) := by
  refine ⟨?_, (gaugeCount_same src d).cores⟩
  unfold gaugeCount gaugeAdd
  dsimp only
  split <;> rfl

theorem raiseEvent_counted (d : Dev) : Dev.Counted d (raiseEvent d) := ⟨rfl, (raiseEvent_same d).cores⟩

/-! What Gauge has counted is nothing that a search of the index sees. -/

/-- The entry that a parity failure takes out of use. -/
def entryDropped (a : Nat) (d : Dev) : Dev :=
  let e := eddyEntry d a
  bump 0x600006 (putEntry a { e with valid := false, rewriting := e.valid && (inPartition d 0 a || inPartition d 1 a) } d)

theorem entryDropped_counted {d d' : Dev} (a : Nat) (h : Dev.Counted d d') : Dev.Counted (entryDropped a d) (entryDropped a d') := by
  refine ⟨?_, h.cores⟩
  rw [h.rest]
  rfl

theorem parityFail_counted {d d' : Dev} (a : Nat) (h : Dev.Counted d d') : Dev.Counted (parityFail a d) (parityFail a d') := by
  have counted : ∀ x : Dev, Dev.Counted (entryDropped a x) (parityFail a x) := fun x =>
    (gaugeCount_counted 0x042 (entryDropped a x)).trans (raiseEvent_counted _)
  exact ((counted d).symm.trans (entryDropped_counted a h)).trans (counted d')

theorem eddyFind_counted {d d' : Dev} (p mask : Nat) (key : BitVec 128) (h : Dev.Counted d d') : eddyFind d' p mask key = eddyFind d p mask key := by
  rw [h.rest]
  rfl

theorem eddySearchLoop_counted (k p mask : Nat) (key : BitVec 128) {bad : List Nat} {d d' : Dev} (h : Dev.Counted d d') :
    (eddySearchLoop k p mask key bad d').1 = (eddySearchLoop k p mask key bad d).1 ∧
      Dev.Counted (eddySearchLoop k p mask key bad d).2 (eddySearchLoop k p mask key bad d').2 := by
  induction k generalizing bad d d' with
  | zero => exact ⟨eddyFind_counted p mask key h, h⟩
  | succ k ih =>
    unfold eddySearchLoop
    rw [eddyFind_counted p mask key h]
    split
    · exact ⟨rfl, h⟩
    · split
      · exact ih (parityFail_counted _ h)
      · exact ⟨rfl, h⟩

theorem findObject_counted {d d' : Dev} (key : Nat) (bad : List Nat) (h : Dev.Counted d d') :
    (findObject key bad d').1 = (findObject key bad d).1 ∧ Dev.Counted (findObject key bad d).2 (findObject key bad d').2 := by
  have bumped : Dev.Counted (bump 0x600004 d) (bump 0x600004 d') := by
    refine ⟨?_, h.cores⟩
    rw [h.rest]
    rfl
  obtain ⟨hits, after⟩ := eddySearchLoop_counted (bad.length + 1) 0 0 (BitVec.ofNat 128 key) (bad := bad) bumped
  unfold findObject eddySearch
  cases e : eddySearchLoop (bad.length + 1) 0 0 (BitVec.ofNat 128 key) bad (bump 0x600004 d) with
  | mk hit x =>
    cases e' : eddySearchLoop (bad.length + 1) 0 0 (BitVec.ofNat 128 key) bad (bump 0x600004 d') with
    | mk hit' x' =>
      obtain rfl : hit' = hit := by simpa only [e, e'] using hits
      have after : Dev.Counted x x' := by simpa only [e, e'] using after
      have objs : x'.media = x.media := by rw [after.rest]
      cases hit' with
      | none => exact ⟨rfl, after⟩
      | some hit =>
        simp only [objs]
        split <;> exact ⟨rfl, after⟩

/-- A command that counts after its completion completes all the same. -/
theorem Completes.of_done_counted {i : Instr} {c : Cmd} {st : Status} {dw0 dw1 key src : Nat} {work w : Dev} {s : State} {sent : List Output}
    (h : exec i s = .next { s with dev := gaugeCount src (done c st w dw0 dw1 key) }) (hq : hasQueues c.ctrl c.sq w) (hw : SameWork work w)
    (h1 : st ≠ stSession) (h2 : st ≠ stTableFull) (ho : ∀ o ∈ sent, o ∈ w.out) : Completes i c st dw0 dw1 work s sent := by
  have counted := gaugeCount_same src (done c st w dw0 dw1 key)
  have grown := gaugeCount_grows src (done c st w dw0 dw1 key)
  refine ⟨_, h, rfl, (hw.trans (done_same c st w dw0 dw1 key h1 h2)).trans counted, (done_posted c st w dw0 dw1 key hq).grows grown ?_,
    fun o m => grown.out o ((done_grows c st w dw0 dw1 key).out o (ho o m))⟩
  rw [counted.rest]

theorem lookupHere_found {c : Cmd} {bad : List Nat} {key rec : Nat} {d d1 : Dev} {h : EddyHit} {o : ObjRec} (hx : c.xfer = .ok)
    (hs : findObject key bad d = (some (h, rec, o), d1)) (hp : h.entry.poison = false) :
    lookupHere c bad key d = done c stOk (sendData c (lookupRecord o) d1) (dw0 := if o.withdrawn then 1 else 0) := by
  simp only [lookupHere, hs, hp, Bool.false_eq_true, if_false, withData_ok _ d1 hx]

theorem pruneTitle_store (key : Nat) (d : Dev) : (pruneTitle key d).media.store = d.media.store := by
  unfold pruneTitle
  dsimp only
  split <;> rfl

theorem eddyInvalidates_media (as : List Nat) (d : Dev) : (as.foldl (fun d a => eddyInvalidate a d) d).media = d.media :=
  foldl_field Dev.media (fun d a => eddyInvalidate a d) (fun _ _ => rfl) as d

theorem evictObject_store {key rec x : Nat} {o : ObjRec} {d : Dev} {n : Namespace} (h : nsByTag d (keyTag key) = some (x, n)) :
    (evictObject key rec o d).media.store.objs = mapErase d.media.store.objs rec ∧
      (evictObject key rec o d).media.store.map = putEntries n.idx d.media.store.map o.base (List.replicate o.units none) := by
  unfold evictObject
  simp -zeta only [h]
  extract_lets d1 d2 d3 d4
  have index : d1.media = d.media := eddyInvalidates_media _ d
  have removed : d4.media.store = applyRec d1.media.store (.object rec none n.idx [(o.base, List.replicate o.units none)]) := pruneTitle_store key d3
  have told : ∀ x : Dev, x.media = d4.media → x.media.store.objs = mapErase d.media.store.objs rec ∧
      x.media.store.map = putEntries n.idx d.media.store.map o.base (List.replicate o.units none) := by
    intro x hx
    rw [hx, removed, index]
    exact ⟨rfl, rfl⟩
  split
  · split
    · exact told _ rfl
    · exact told _ rfl
  · exact told _ rfl

theorem evictObject_grows (key rec : Nat) (o : ObjRec) (d : Dev) : Dev.Grows d (evictObject key rec o d) := by
  unfold evictObject
  split
  · exact .refl d
  · extract_lets d1 d2 d3 d4
    have index : Dev.Grows d d1 := (foldl_leaves _ (fun d a => eddyInvalidate_leaves a d) _ d).grows
    have removed : Dev.Grows d1 d3 := .of rfl fun _ h => h
    have pruned : Dev.Grows d d4 := (index.trans removed).trans (pruneTitle_leaves key d3).grows
    split
    · split
      · exact pruned.trans (.of rfl fun _ h => h)
      · exact pruned.trans (sendFlit_leaves _ _ _ d4).grows
    · exact pruned

/-- The search of a Lookup finds what it would find on the part that has already counted it. -/
theorem lookup_searched {c : Cmd} {s : State} {key : Nat} {bad : List Nat} {r : Option (EddyHit × Nat × ObjRec)} {d1 : Dev}
    (ha : admitted c false s.dev = true) (hs : findObject key bad (gaugeCount 0x005 (taken c s.dev)) = (r, d1)) :
    ∃ e, findObject key bad (taken c s.dev) = (r, e) ∧ hasQueues c.ctrl c.sq e ∧ SameWork d1 e := by
  obtain ⟨found, after⟩ := findObject_counted key bad (gaugeCount_counted 0x005 (taken c s.dev))
  have same : SameWork d1 (findObject key bad (taken c s.dev)).2 := by simpa only [hs] using after.symm.same
  have hits : (findObject key bad (taken c s.dev)).1 = r := by simpa only [hs] using found.symm
  exact ⟨_, Prod.ext hits rfl, (taken_queues ha).grows (findObject_leaves key bad _).grows, same⟩

section
variable {c : Cmd} {s : State} {n : Namespace} (ha : admitted c false s.dev = true) (h3 : c.cdw3 = 0)
  (hn : attachedNs (taken c s.dev) c.ctrl c.nsid = some n) (h2 : n.kind = 2) (hk : keyClean (cmdKey c) = true) (ht : keyKind (cmdKey c) < 6)
  (hp : placedOn (taken c s.dev) (withTag (cmdKey c) n.tag) = none)
include ha h3 hn h2 hk ht hp

theorem objectPut_enters {slot : Nat} {g : KeyGen} (hl : lengthOk c.cdw2 = true) (z1 : zeroBits c.cdw10 14 13 = true)
    (z2 : zeroBits c.cdw10 31 17 = true) (hc : bit c.cdw10 16 = true → 2 ≤ keyKind (cmdKey c) ∧ (taken c s.dev).variant ≠ .vl7e)
    (hs : putSlot (taken c s.dev) (withTag (cmdKey c) n.tag) (bit c.cdw10 15) (bits c.cdw10 12 0) = .ok slot)
    (hload : storageLoaded (taken c s.dev) slot = true) (hg : (keySlot (taken c s.dev) slot).current = some g)
    (hfit : putFits (taken c s.dev) c.ctrl (withTag (cmdKey c) n.tag) n c.cdw2 = true) :
    exec (.objectPut c) s = .next { s with
      dev := bindTitle (withTag (cmdKey c) n.tag) slot (putEntered c (withTag (cmdKey c) n.tag) n.iu slot g (taken c s.dev)) } := by
  obtain ⟨_, _, hx⟩ := admitted_checks ha
  have ran : exec (.objectPut c) s = .next { s with dev := putCmd (withOp 0x81 c) (taken c s.dev) } :=
    run_deliveryCmd 0x81 _ ha h3 (.inl rfl) (.inl rfl)
  rw [putCmd_admits (c := withOp 0x81 c) hx hn h2 hk ht hp hl z1 z2 hc hs hload hfit] at ran
  exact ran.trans (congrArg (fun x => Host.Outcome.next { s with dev := x }) (admitPut_enters hg))

variable (hl : c.cdw2 = 0) (h10 : c.cdw10 = 0) (h11 : c.cdw11 = 0) (bad : List Nat)
include hl h10 h11

theorem exec_lookup : exec (.lookup c bad) s = .next { s with
    dev := gaugeCount 0x005 (lookupHere (withOp 0x86 c) bad (withTag (cmdKey c) n.tag) (taken c s.dev)) } := by
  have ran : exec (.lookup c bad) s = .next { s with
      dev := gaugeCount 0x005 (exactCmd (withOp 0x86 c) 3 (lookupHere (withOp 0x86 c) bad) (taken c s.dev)) } :=
    run_deliveryCmd 0x86 _ ha h3 (.inl rfl) (.inr hl)
  rw [exactCmd_here (c := withOp 0x86 c) _ h10 h11 hk ht hn h2 hp] at ran
  exact ran

theorem exec_objectEvict : exec (.objectEvict c bad) s = .next { s with
    dev := evictHere (withOp 0x88 c) bad (withTag (cmdKey c) n.tag) (taken c s.dev) } := by
  have ran : exec (.objectEvict c bad) s = .next { s with
      dev := exactCmd (withOp 0x88 c) 2 (evictHere (withOp 0x88 c) bad) (taken c s.dev) } :=
    run_deliveryCmd 0x88 _ ha h3 (.inl rfl) (.inr hl)
  rw [exactCmd_here (c := withOp 0x88 c) _ h10 h11 hk ht hn h2 hp] at ran
  exact ran

theorem lookup_returns {h : EddyHit} {rec : Nat} {o : ObjRec} {d1 : Dev}
    (hs : findObject (withTag (cmdKey c) n.tag) bad (gaugeCount 0x005 (taken c s.dev)) = (some (h, rec, o), d1)) (hc : h.entry.poison = false) :
    Completes (.lookup c bad) c stOk (if o.withdrawn then 1 else 0) 0 d1 s [.data c.ctrl c.cid (lookupRecord o)] := by
  obtain ⟨_, _, hx⟩ := admitted_checks ha
  obtain ⟨e, hs', queues, same⟩ := lookup_searched ha hs
  have ran := exec_lookup ha h3 hn h2 hk ht hp hl h10 h11 bad
  rw [lookupHere_found (c := withOp 0x86 c) hx hs' hc] at ran
  refine Completes.of_done_counted (c := withOp 0x86 c) ran (queues.grows (emit_grows _ _)) (same.trans (emit_same _ _)) (by decide) (by decide)
    fun o h => ?_
  rw [List.mem_singleton.mp h]
  exact List.mem_cons_self

theorem lookup_absent {d1 : Dev} (hs : findObject (withTag (cmdKey c) n.tag) bad (gaugeCount 0x005 (taken c s.dev)) = (none, d1)) :
    Completes (.lookup c bad) c stAbsent 0 0 d1 s := by
  obtain ⟨e, hs', queues, same⟩ := lookup_searched ha hs
  have ran := exec_lookup ha h3 hn h2 hk ht hp hl h10 h11 bad
  simp only [lookupHere, hs'] at ran
  exact Completes.of_done_counted (c := withOp 0x86 c) ran queues same (by decide) (by decide) (fun _ h => by cases h)

theorem objectEvict_removes {h : EddyHit} {rec : Nat} {o : ObjRec} {d1 : Dev}
    (hs : findObject (withTag (cmdKey c) n.tag) bad (taken c s.dev) = (some (h, rec, o), d1)) :
    CompletesMedia (.objectEvict c bad) c stOk 0 (if o.withdrawn then 1 else 0) (evictObject (withTag (cmdKey c) n.tag) rec o d1) s := by
  have searched := (findObject_leaves (withTag (cmdKey c) n.tag) bad (taken c s.dev)).grows
  rw [hs] at searched
  have ran := exec_objectEvict ha h3 hn h2 hk ht hp hl h10 h11 bad
  simp only [evictHere, hs] at ran
  exact CompletesMedia.of_done (c := withOp 0x88 c) ran
    ((taken_queues ha).grows ((searched.trans (evictObject_grows _ _ _ d1)).trans (gaugeCount_grows _ _))) (gaugeCount_same _ _).data (by decide)
    (by decide) (fun _ h => by cases h)

theorem objectEvict_absent {d1 : Dev} (hs : findObject (withTag (cmdKey c) n.tag) bad (taken c s.dev) = (none, d1)) :
    Completes (.objectEvict c bad) c stAbsent 0 0 d1 s := by
  have searched := (findObject_leaves (withTag (cmdKey c) n.tag) bad (taken c s.dev)).grows
  rw [hs] at searched
  have ran := exec_objectEvict ha h3 hn h2 hk ht hp hl h10 h11 bad
  simp only [evictHere, hs] at ran
  exact Completes.of_done (c := withOp 0x88 c) ran ((taken_queues ha).grows searched) (.refl d1) (by decide) (by decide) (fun _ h => by cases h)

end

end Sys2Proof.Machine
end

section
/-! A Put's data and its store (R31, R136, R138, R187, R189, R191, R209, R252, R356). -/
namespace Sys2Proof.Machine

/-! ## Entries of a map -/

theorem mem_mapSet {β : Type} {m : AMap β} {a : Nat} {x : β} {kv : Nat × β} (h : kv ∈ mapSet m a x) : kv = (a, x) ∨ kv ∈ m := by
  induction m with
  | nil => exact .inl (List.mem_singleton.mp h)
  | cons p m ih =>
    obtain ⟨k, v⟩ := p
    unfold mapSet at h
    split at h
    · exact List.mem_cons.mp h
    · split at h
      · exact (List.mem_cons.mp h).imp_right (List.mem_cons_of_mem _)
      · rcases List.mem_cons.mp h with rfl | h
        · exact .inr List.mem_cons_self
        · exact (ih h).imp_right (List.mem_cons_of_mem _)

theorem mem_of_mapGet {β : Type} {m : AMap β} {a : Nat} {x : β} (h : mapGet m a = some x) : (a, x) ∈ m := by
  induction m with
  | nil => cases h
  | cons p m ih =>
    obtain ⟨k, v⟩ := p
    unfold mapGet at h
    split at h
    · rename_i e
      cases h
      exact e ▸ List.mem_cons_self
    · split at h
      · cases h
      · exact List.mem_cons_of_mem _ (ih h)

/-! ## A unit that is held stays held (R187) -/

theorem EstuaryUnit.joined_held {e : EstuaryUnit} {t : Nat} (tag : Nat) (h : e.held.contains t = true) : (e.joined tag).held.contains t = true := by
  unfold EstuaryUnit.joined
  split
  · exact h
  · split
    · simp only [List.contains_eq_mem, decide_eq_true_eq] at h ⊢
      exact List.mem_append_left _ h
    · split <;> exact h

theorem joinUnit_leaves (tag u : Nat) (d : Dev) : Dev.Leaves d (joinUnit tag u d) := by
  unfold joinUnit
  split
  · exact .refl d
  · exact modifyEstuary_leaves _ _ d

theorem joinUnit_slotGen (tag u n g : Nat) (d : Dev) : slotGen (joinUnit tag u d) n g = slotGen d n g := by
  unfold joinUnit
  split <;> rfl

theorem joinUnit_held {tag u t : Nat} {d : Dev} (h : d.keys.estuary.any (fun e => e.held.contains t) = true) :
    (joinUnit tag u d).keys.estuary.any (fun e => e.held.contains t) = true := by
  by_cases hu : 2 ≤ u
  · simpa only [joinUnit, if_pos hu] using h
  · obtain ⟨i, rfl⟩ : ∃ i : Fin 2, i.val = u := ⟨⟨u, by omega⟩, rfl⟩
    rw [joinUnit_fin]
    simp only [Vector.any_eq_true] at h ⊢
    obtain ⟨j, hj, held⟩ := h
    refine ⟨j, hj, ?_⟩
    by_cases e : i.val = j
    · subst e
      rw [show (modifyEstuary i (fun e => e.joined tag) d).keys.estuary[i.val] = _ from modifyEstuary_get i _ d]
      exact EstuaryUnit.joined_held tag held
    · simpa [modifyEstuary, modifyKeys, e] using held

theorem holdsUnit_join {tag u : Nat} {d : Dev} {r r' : Req} (hr : r'.unit = r.unit) (h : holdsUnit d tag r = true) :
    holdsUnit (joinUnit tag u d) tag r' = true := by
  unfold holdsUnit at h ⊢
  rw [hr]
  split at h
  · cases h
  · rename_i v hv
    rw [Bool.or_eq_true] at h ⊢
    exact h.imp_right joinUnit_held

/-! ## The encryption of a data unit (R138, R187, R189, R191, R209) -/

/-- The key use of a Put that ends is all that a request loses with its last compare. -/
theorem endPutKey_req {tag : Nat} {d : Dev} {r : Req} (hr : mapGet d.reqs tag = some r) :
    (∃ b, mapGet (endPutKey tag d).reqs tag = some { r with storeUse := b }) ∧ Dev.Settles d (endPutKey tag d) := by
  have kept : (∃ b, mapGet d.reqs tag = some { r with storeUse := b }) ∧ Dev.Settles d d := ⟨⟨r.storeUse, hr⟩, (Dev.Leaves.refl d).toSettles⟩
  unfold endPutKey
  simp only [hr]
  split
  · split
    · rename_i n g _
      have marked : Dev.Settles d (modifyReq tag (fun r => { r with storeUse := false }) d) := ⟨.of rfl fun _ h => h, rfl⟩
      have released := (leaveEstuary_leaves tag (modifyReq tag (fun r => { r with storeUse := false }) d)).trans (releaseGen_leaves n g _)
      exact ⟨⟨false, (released.req tag).trans (modifyReq_self _ hr)⟩, marked.trans released.toSettles⟩
    · exact kept
  · exact kept

/-- A Put's request with the ciphertext of a data unit. -/
def Req.encrypted (r : Req) (u : Nat) (ct : Bytes) (use : Bool) : Req := { r with cipher := mapSet r.cipher u ct, storeUse := use }

theorem encryptPutUnit_done {tag v : Nat} {d : Dev} {r : Req} (hr : mapGet d.reqs tag = some r) (h : (mapGet r.cipher v).isSome = true) :
    encryptPutUnit tag v d = d := by
  unfold encryptPutUnit
  simp only [hr]
  split
  · rename_i missing
    rw [missing] at h
    cases h
  · rfl

theorem encryptPutUnits_done {tag : Nat} {d : Dev} {r : Req} {vs : List Nat} (hr : mapGet d.reqs tag = some r)
    (h : ∀ v ∈ vs, (mapGet r.cipher v).isSome = true) : vs.foldl (fun d v => encryptPutUnit tag v d) d = d := by
  induction vs with
  | nil => rfl
  | cons v vs ih =>
    rw [List.foldl_cons, encryptPutUnit_done hr (h v List.mem_cons_self)]
    exact ih fun w hw => h w (List.mem_cons_of_mem _ hw)

section
variable {tag u : Nat} {d : Dev} {r : Req} {b : Bytes} {p : Nat × Nat} {g : KeyGen} (hr : mapGet d.reqs tag = some r)
  (hb : mapGet r.putUnits u = some b) (hp : r.store = some p) (hg : slotGen d p.1 p.2 = some g) (hc : mapGet r.cipher u = none)
  (hm : r.remote = none)
include hr hb hp hg hc hm

/-- A data unit that has arrived is encrypted under the Put's own generation. -/
theorem encryptPutUnit_new :
    (∃ use, mapGet (encryptPutUnit tag u d).reqs tag = some (r.encrypted u (xtsEnc g.key (objTweak r.key u) (padTo (roundUp b.length 16) b)) use)) ∧
      Dev.Settles d (encryptPutUnit tag u d) := by
  unfold encryptPutUnit
  simp -zeta only [hr, hb, hp, Option.bind_some, hg, hc, hm]
  extract_lets ct d1
  have set : mapGet (modifyReq tag (fun r => { r with cipher := mapSet r.cipher u ct }) d).reqs tag = _ := modifyReq_self _ hr
  obtain ⟨ended, settled⟩ := endPutKey_req set
  have kept : Dev.Settles d (modifyReq tag (fun r => { r with cipher := mapSet r.cipher u ct }) d) := ⟨.of rfl fun _ h => h, rfl⟩
  exact ⟨ended, kept.trans settled⟩

/-- Of the units that have arrived, the one without ciphertext is encrypted and no other is touched. -/
theorem encryptPutUnits_new {vs : List Nat} (hu : u ∈ vs) (hv : ∀ v ∈ vs, v = u ∨ (mapGet r.cipher v).isSome = true) :
    (∃ use, mapGet (vs.foldl (fun d v => encryptPutUnit tag v d) d).reqs tag =
        some (r.encrypted u (xtsEnc g.key (objTweak r.key u) (padTo (roundUp b.length 16) b)) use)) ∧
      Dev.Settles d (vs.foldl (fun d v => encryptPutUnit tag v d) d) := by
  induction vs with
  | nil => cases hu
  | cons v vs ih =>
    have rest : ∀ w ∈ vs, w = u ∨ (mapGet r.cipher w).isSome = true := fun w hw => hv w (List.mem_cons_of_mem _ hw)
    rw [List.foldl_cons]
    by_cases h : v = u
    · subst h
      obtain ⟨⟨use, encrypted⟩, settled⟩ := encryptPutUnit_new hr hb hp hg hc hm
      rw [encryptPutUnits_done encrypted fun w hw => ?_]
      · exact ⟨⟨use, encrypted⟩, settled⟩
      · by_cases e : w = v
        · simp [Req.encrypted, e, mapGet_set]
        · simpa [Req.encrypted, mapGet_set_ne _ _ _ _ e] using (rest w hw).resolve_left e
    · rw [encryptPutUnit_done hr ((hv v List.mem_cons_self).resolve_left h)]
      exact ih ((List.mem_cons.mp hu).resolve_left fun e => h e.symm) rest

end

theorem encryptArrived_held {tag : Nat} {d : Dev} {r : Req} (hr : mapGet d.reqs tag = some r) (hh : holdsUnit d tag r = true) :
    encryptArrived tag d = (r.putUnits.map Prod.fst).foldl (fun d u => encryptPutUnit tag u d) d := by
  simp only [encryptArrived, hr, hh, if_true]

theorem assignUnit_assigned {tag v : Nat} {d : Dev} {r : Req} (hr : mapGet d.reqs tag = some r) (hu : r.unit = some v) :
    assignUnit tag d = joinUnit tag v d := by
  simp only [assignUnit, hr, hu]

/-- A Put's request with a data unit of its plaintext. -/
def Req.withUnit (r : Req) (u : Nat) (b : Bytes) : Req := { r with putUnits := mapSet r.putUnits u b }

/-- A Put's request with its decoded length known. -/
def Req.checked (r : Req) (n : Nat) : Req := { r with obj := { r.obj with decoded := n } }

/-- A new data unit of an uncompressed Put, whose decoded length is its length, goes on to the unit that the Put has (R138, R189). -/
theorem putArrival_uncompressed {tag u v : Nat} {data : Bytes} {d : Dev} {r : Req} (hr : mapGet d.reqs tag = some r) (ho : r.op = 2)
    (hs : r.step = .arriving) (hc : r.ctrl ≠ 0) (hz : r.obj.compressed = false) (hu : u < unitCount r.len) (hn : mapGet r.putUnits u = none)
    (hv : r.unit = some v) :
    let b := padTo (min 4096 (r.len - 4096 * u)) data
    let d1 := modifyReq tag (fun q => q.checked r.len) (modifyReq tag (fun q => q.withUnit u b) d)
    mapGet d1.reqs tag = some ((r.withUnit u b).checked r.len) ∧ putArrival tag u 0 data d = encryptArrived tag (joinUnit tag v d1) := by
  intro b d1
  have taken : ¬(r.op ≠ 2 ∨ r.step ≠ .arriving ∨ r.ctrl = 0 ∨ unitCount r.len ≤ u) := by simp [ho, hs, hc, hu]
  have kept : mapGet (modifyReq tag (fun q => q.withUnit u b) d).reqs tag = some (r.withUnit u b) := modifyReq_self _ hr
  have checked : mapGet d1.reqs tag = some ((r.withUnit u b).checked r.len) := modifyReq_self _ kept
  have plain : (r.withUnit u b).obj.compressed = false := hz
  refine ⟨checked, ?_⟩
  rw [← assignUnit_assigned checked hv]
  have ended : endPutCheck tag (r.withUnit u b) (r.withUnit u b).len (modifyReq tag (fun q => q.withUnit u b) d) = d1 := by
    simp only [endPutCheck, plain, Bool.false_eq_true, if_false]
    rfl
  unfold putArrival
  simp -zeta only [hr, if_neg taken]
  extract_lets fresh p1 p2
  have new : fresh = true := by simp only [fresh, hn, Option.isNone_none]
  have put : p2 = modifyReq tag (fun q => q.withUnit u b) d := by
    simp only [p2, p1, new, hz, Bool.false_and, Bool.false_eq_true, if_false, if_true]
    rfl
  rw [put]
  simp only [kept, plain, new, ended, Bool.false_eq_true, if_false, if_true]
  rfl

/-- A data unit that arrives for a Put that holds its unit is encrypted at once (R189, R191). -/
theorem putArrival_encrypts {tag u : Nat} {data : Bytes} {d : Dev} {r : Req} {p : Nat × Nat} {g : KeyGen} (hr : mapGet d.reqs tag = some r)
    (ho : r.op = 2) (hs : r.step = .arriving) (hc : r.ctrl ≠ 0) (hm : r.remote = none) (hz : r.obj.compressed = false)
    (hu : u < unitCount r.len) (hn : mapGet r.putUnits u = none) (hnc : mapGet r.cipher u = none)
    (hall : ∀ kv ∈ r.putUnits, (mapGet r.cipher kv.1).isSome = true) (hv : r.unit.isSome = true) (hh : holdsUnit d tag r = true)
    (hp : r.store = some p) (hg : slotGen d p.1 p.2 = some g) :
    let b := padTo (min 4096 (r.len - 4096 * u)) data
    (∃ use, mapGet (putArrival tag u 0 data d).reqs tag =
        some (((r.withUnit u b).checked r.len).encrypted u (xtsEnc g.key (objTweak r.key u) (padTo (roundUp b.length 16) b)) use)) ∧
      Dev.Settles d (putArrival tag u 0 data d) := by
  intro b
  obtain ⟨v, hv⟩ := Option.isSome_iff_exists.mp hv
  obtain ⟨arrived, joined⟩ := putArrival_uncompressed (data := data) hr ho hs hc hz hu hn hv
  have join := joinUnit_leaves tag v (modifyReq tag (fun q => q.checked r.len) (modifyReq tag (fun q => q.withUnit u b) d))
  have kept : Dev.Settles d (modifyReq tag (fun q => q.checked r.len) (modifyReq tag (fun q => q.withUnit u b) d)) := ⟨.of rfl fun _ h => h, rfl⟩
  have waits := (join.req tag).trans arrived
  have held : holdsUnit (joinUnit tag v (modifyReq tag (fun q => q.checked r.len) (modifyReq tag (fun q => q.withUnit u b) d))) tag
      ((r.withUnit u b).checked r.len) = true := holdsUnit_join rfl hh
  have units : ∀ w ∈ (mapSet r.putUnits u b).map Prod.fst, w = u ∨ (mapGet r.cipher w).isSome = true := by
    intro w hw
    obtain ⟨kv, hkv, rfl⟩ := List.mem_map.mp hw
    exact (mem_mapSet hkv).imp (congrArg Prod.fst) (hall kv)
  obtain ⟨encrypted, settled⟩ := encryptPutUnits_new (u := u) waits (mapGet_set _ _ _) hp ((joinUnit_slotGen _ _ _ _ _).trans hg) hnc hm
    (List.mem_map.mpr ⟨_, mem_of_mapGet (mapGet_set r.putUnits u b), rfl⟩) units
  rw [joined.trans (encryptArrived_held waits held)]
  exact ⟨encrypted, (kept.trans join.toSettles).trans settled⟩

/-! ## The validate step (R31, R138, R252, R356) -/

theorem moveRun_tm (n : Namespace) (rec to_ : Nat) (d : Dev) : (moveRun n rec to_ d).tm = d.tm := by
  unfold moveRun
  split
  · rfl
  · split <;> rfl

theorem compactRuns_tm (n : Namespace) (d : Dev) : (compactRuns n d).tm = d.tm := by
  have moved : ∀ (l : List (Nat × ObjRec)) (acc : Nat × Dev),
      (l.foldl (fun (acc : Nat × Dev) ko => (acc.1 + ko.2.units, moveRun n ko.1 acc.1 acc.2)) acc).2.tm = acc.2.tm := by
    intro l
    induction l with
    | nil => exact fun _ => rfl
    | cons ko l ih => exact fun acc => (ih _).trans (moveRun_tm _ _ _ _)
  exact moved _ (0, d)

theorem allocRun_tm (n : Namespace) (k : Nat) (d : Dev) : (allocRun n k d).2.tm = d.tm := by
  unfold allocRun
  split
  · rfl
  · split
    · exact compactRuns_tm n d
    · rfl

theorem writeIndex_media (key rec : Nat) (o : ObjRec) (d : Dev) : (writeIndex key rec o d).2.media = d.media := by
  unfold writeIndex
  extract_lets old e
  split
  · rfl
  · exact eddyInvalidates_media _ _
  · rfl
  · rfl

/-- The record that a Put stores is the one it was admitted with, at its run and its time (R356). -/
theorem storeObject_record {tag k dw1 : Nat} {r : Req} {n : Namespace} {d d2 : Dev} (h : storeObject tag r n d = (some (k, dw1), d2)) :
    ∃ base seq, mapGet d2.media.store.objs k = some { r.obj with base := base, storedAt := d.tm, lastSeq := seq } := by
  have time := allocRun_tm n r.obj.units d
  unfold storeObject at h
  split at h
  · cases h
  · rename_i base d1 ha
    rw [ha] at time
    extract_lets old _ o _ at h
    split at h
    · cases h
    · rename_i k' _
      have index := writeIndex_media r.key k' o d1
      split at h
      · cases h
      · rename_i d2' hw
        rw [hw] at index
        cases h
        refine ⟨base, d1.media.seq + 1, ?_⟩
        rw [← time]
        exact mapGet_set _ _ _

/-- A Put with all its ciphertext, its units placed, stores its object and completes (R138). -/
theorem validatePut_stores {tag x k dw1 : Nat} {d d2 : Dev} {r r1 : Req} {n : Namespace} (hr : mapGet d.reqs tag = some r) (ho : r.op = 2)
    (hs : r.step = .arriving) (hc : unitCount r.len ≤ r.cipher.length) (hm : r.ctrl = 0 ∨ r.remote = none)
    (hn : nsByTag d (keyTag r.key) = some (x, n)) (h1 : mapGet (placePut tag n.iu n.idx r.obj.units d).reqs tag = some r1)
    (hu : r1.obj.units ≤ r1.entries.length) (hst : storeObject tag r1 n (placePut tag n.iu n.idx r.obj.units d) = (some (k, dw1), d2)) :
    validatePut tag d = background (completePut tag k dw1 r1 d2) := by
  have ready : ¬(r.op ≠ 2 ∨ r.step ≠ .arriving ∨ r.cipher.length < unitCount r.len ∨ (r.ctrl ≠ 0 ∧ r.remote.isSome)) := by
    rcases hm with hm | hm <;> simp [ho, hs, hc, hm]
  simp only [validatePut, hr, if_neg ready, hn, h1, if_neg (Nat.not_lt.mpr hu), hst]

end Sys2Proof.Machine

open Sys2Proof Sys2Proof.Machine

/-- Settles O35: a Put enters through `admitPut_enters`, its data go through `putArrival_encrypts` and its object through `storeObject_record`;
Lookup and Evict end in `done` behind one search of the index. -/
theorem putLookupAndEvictComplete : Obligations.PutLookupAndEvictComplete := by
  refine ⟨?admitted, ?evicted, ?arrival, ?validate⟩
  case admitted =>
    intro c s n ha h3 d key hn h2 hk ht hp
    refine ⟨?_, fun hl h10 h11 bad => ⟨?_, ?_, ?_, ?_⟩⟩
    · intro slot hl z1 z2 hc hs hload hfit
      obtain ⟨g, hg⟩ := storageLoaded_current hload
      have ran := objectPut_enters ha h3 hn h2 hk ht hp hl z1 z2 hc hs hload hg hfit
      have bound := bindTitle_slot (putEntered_current (c := c) (key := key) (cls := n.iu) hg) fun b hb => putSlot_bound hs hb
      have entered : mapGet (putEntered c key n.iu slot g d).reqs d.host.nextTag = some (putRequest c key n.iu slot g) := mapGet_set _ _ _
      have rest := bindTitle_rest key slot (putEntered c key n.iu slot g d)
      refine ⟨_, putRequest c key n.iu slot g, ran, ?_, ?_, rfl, rfl, rfl, rfl, rfl, rfl, ?_, rfl, bound, ?_⟩
      · rw [rest]
        exact entered
      · rw [rest]
        rfl
      · rw [hg]
        rfl
      · rw [rest]
        rfl
    · exact fun h rec o d1 hs hpoison => lookup_returns ha h3 hn h2 hk ht hp hl h10 h11 bad hs hpoison
    · exact fun d1 hs => lookup_absent ha h3 hn h2 hk ht hp hl h10 h11 bad hs
    · exact fun h rec o d1 hs => objectEvict_removes ha h3 hn h2 hk ht hp hl h10 h11 bad hs
    · exact fun d1 hs => objectEvict_absent ha h3 hn h2 hk ht hp hl h10 h11 bad hs
  case evicted => exact fun d key rec x o n hn => evictObject_store hn
  case arrival =>
    intro tag u data s r p g hr ho hs hc hm hz hu hn hnc hall hv hh hp hg b
    obtain ⟨⟨use, encrypted⟩, settled⟩ := putArrival_encrypts (data := data) hr ho hs hc hm hz hu hn hnc hall hv hh hp hg
    exact ⟨_, _, rfl, encrypted, rfl, mapGet_set _ _ _, hs, settled.objs⟩
  case validate =>
    intro tag now x k dw1 s r r1 n d2 hr ho hs hc hm d hn d1 h1 hu hst
    obtain ⟨base, seq, stored⟩ := storeObject_record hst
    have validated := validatePut_stores (d := d) hr ho hs hc hm hn h1 hu hst
    refine ⟨⟨_, stored, rfl, rfl, rfl, rfl, rfl⟩, ?_⟩
    show Host.Outcome.next { s with dev := validatePut tag d } = _
    rw [validated]

end

section
/-! Braid's passes, the delivery decoder and the encrypt pipeline of a Stream Read (R25, R142, R167, R177, R185, R187, R189, R193 to R196, R237). -/
namespace Sys2Proof.Machine

/-! ## Braid (R25, R142, R167, R177) -/

/-- A request with its assembly context (R184). -/
def Req.inContext (r : Req) : Req := { r with inBraid := true }

/-- A request with the time at which its pass of Braid began. -/
def Req.passedAt (r : Req) (tm : Option Nat) : Req := { r with passAt := tm }

/-- A request whose assembled length is known. -/
def Req.sized (r : Req) (n : Nat) : Req := { r with asmLen := some n, passAt := none }

/-- The range list that Braid's assembly pass keeps (R177). -/
def BrResult.kept (res : BrResult) : List BraidRange :=
  res.ranges.map fun x => { off := x.1, len := x.2.len, prot := x.2.prot, restart := x.2.restart, sample := x.2.sample }

/-- A request with the bytes and the range list of its assembly pass; with the scheme None the bytes are its output. -/
def Req.assembled (r : Req) (res : BrResult) : Req :=
  { r with
    asm := some res.out, ranges := res.kept, inBraid := false
    output := if imgScheme r.image = 0 then res.out else []
    step := if imgScheme r.image = 0 then .dma else .path }

/-- A pass that ends without a call or an error, whatever the time at which it began. -/
theorem braidPass_ok {tag : Nat} {asm : Bool} {d : Dev} {r : Req} {res : BrResult} (hr : mapGet d.reqs tag = some r)
    (hb : brPass (brCtx d tag r asm) = .ok res) :
    ∃ tm d0, mapGet d0.reqs tag = some (r.passedAt tm) ∧ d0.host = d.host ∧
      braidPass tag asm d = if asm then modifyReq tag (fun r => r.assembled res) d0 else endLength tag res.len d0 := by
  unfold braidPass
  simp -zeta only [hr, hb]
  extract_lets d0 rs
  have begun : ∃ tm, mapGet d0.reqs tag = some (r.passedAt tm) ∧ d0.host = d.host := by
    unfold d0
    split
    · exact ⟨some d.tm, modifyReq_self _ hr, rfl⟩
    · exact ⟨r.passAt, hr, rfl⟩
  obtain ⟨tm, hd, host⟩ := begun
  refine ⟨tm, d0, hd, host, ?_⟩
  cases asm <;> rfl

/-- The length pass of a request that meets what it needs, with no program in its profile, is Braid's pass in its context. -/
theorem braidLength_passes {tag : Nat} {d : Dev} {r : Req} (hr : mapGet d.reqs tag = some r) (ho : r.op < 2) (hs : r.step = .path) (hc : r.ctrl ≠ 0)
    (hl : r.asmLen = none) (hcall : r.calling = false) (ht : tableReady d r = true) (hx : r.inBraid = true ∨ contextsBusy d < 32)
    (hk : bit (imgKinds r.image) (keyKind r.obj.key) = true) (ha : imgAssisted r.image = false)
    (hobj : objectRefused r.image (stagedData r) r.obj.stored = none) :
    braidLength tag false d = braidPass tag false (modifyReq tag Req.inContext d) := by
  have ready : ¬(2 ≤ r.op ∨ r.step ≠ .path ∨ servesRaw r ∨ r.asmLen.isSome ∨ r.calling ∨ !tableReady d r ∨ (!r.inBraid ∧ 32 ≤ contextsBusy d)) := by
    rcases hx with hx | hx <;> simp [ho, hs, servesRaw_of_ctrl hc, hl, hcall, ht, hx]
  have entered : mapGet (modifyReq tag Req.inContext d).reqs tag = some r.inContext := modifyReq_self _ hr
  have unbound : bindProgram tag (modifyReq tag Req.inContext d) = modifyReq tag Req.inContext d := by
    have none : imgAssisted r.inContext.image = false := ha
    simp only [bindProgram, entered, none, Bool.not_false, Bool.true_or, if_true]
  have accepted : objectRefused r.inContext.image (stagedData r.inContext) r.inContext.obj.stored = none := hobj
  unfold braidLength
  simp only [hr, if_neg ready, hk, Bool.not_true, Bool.false_eq_true, if_false]
  rw [show bindProgram tag (modifyReq tag (fun r => { r with inBraid := true }) d) = _ from unbound]
  simp only [entered, accepted]

/-- A length pass that assembles `n` bytes and their overhead (R25, R142). -/
theorem braidLength_ends {tag : Nat} {d : Dev} {r : Req} {res : BrResult} (hr : mapGet d.reqs tag = some r)
    (hpass : braidLength tag false d = braidPass tag false (modifyReq tag Req.inContext d)) (hb : brPass (brCtx d tag r false) = .ok res) :
    ∃ tm d0, mapGet d0.reqs tag = some (r.inContext.passedAt tm) ∧ d0.host = d.host ∧ braidLength tag false d = endLength tag res.len d0 := by
  have entered : mapGet (modifyReq tag Req.inContext d).reqs tag = some r.inContext := modifyReq_self _ hr
  obtain ⟨tm, d0, hd, host, ended⟩ := braidPass_ok (asm := false) entered hb
  exact ⟨tm, d0, hd, host, hpass.trans ended⟩

section
variable {tag n : Nat} {d : Dev} {r : Req} (hr : mapGet d.reqs tag = some r)
include hr

theorem endLength_fits (ho : r.op = 0) (hl : n + brOverhead (imgScheme r.image) n ≤ r.len) :
    endLength tag n d = modifyReq tag (fun r => r.sized n) d := by
  simp only [endLength, hr, ho, if_neg (Nat.not_lt.mpr hl)]
  rfl

variable (hc : r.ctrl ≠ 0) (hq : hasQueues r.ctrl r.sq d)
include hc hq

theorem endLength_small (ho : r.op = 0) (hl : r.len < n + brOverhead (imgScheme r.image) n) :
    Posted r.ctrl r.sq r.cid stSmall (n + brOverhead (imgScheme r.image) n) 0 (endLength tag n d) := by
  have op : r.op ≠ 1 := by omega
  simp only [endLength, hr, if_neg op, if_pos hl]
  exact finishReq_posted hr hc hq _ _ _ _ _

theorem endLength_size (ho : r.op = 1) :
    Posted r.ctrl r.sq r.cid stOk (n + brOverhead (imgScheme r.image) n) (readDword1 r) (endLength tag n d) := by
  simp only [endLength, hr, if_pos ho]
  exact finishReq_posted hr hc hq _ _ _ _ _

end

/-- The assembly pass of a request whose object is in staging is Braid's pass. -/
theorem braidAssembly_passes {tag : Nat} {d : Dev} {r : Req} (hr : mapGet d.reqs tag = some r) (ho : r.op = 0) (hs : r.step = .path)
    (hl : r.asmLen.isSome = true) (ha : r.asm = none) (hcall : r.calling = false)
    (hp : (if r.obj.compressed then r.inflated.isSome else allPlain r) = true) : braidAssembly tag false d = braidPass tag true d := by
  have ready : ¬(r.op ≠ 0 ∨ r.step ≠ .path ∨ r.asmLen.isNone ∨ r.asm.isSome ∨ r.calling ∨
      !(if r.obj.compressed then r.inflated.isSome else allPlain r)) := by
    obtain ⟨n, hn⟩ := Option.isSome_iff_exists.mp hl
    rw [hp]
    simp [ho, hs, hn, ha, hcall]
  simp only [braidAssembly, hr, if_neg ready, Bool.false_eq_true, if_false]

theorem braidAssembly_keeps {tag : Nat} {d : Dev} {r : Req} {res : BrResult} (hr : mapGet d.reqs tag = some r)
    (hpass : braidAssembly tag false d = braidPass tag true d) (hb : brPass (brCtx d tag r true) = .ok res) :
    ∃ tm, mapGet (braidAssembly tag false d).reqs tag = some ((r.passedAt tm).assembled res) := by
  obtain ⟨tm, d0, hd, _, ended⟩ := braidPass_ok (asm := true) hr hb
  refine ⟨tm, ?_⟩
  rw [hpass, ended]
  exact modifyReq_self _ hd

/-! ## Riffle (R237) -/

/-- A request with its object decoded. -/
def Req.decoded (r : Req) (out : Bytes) : Req := { r with inflated := some out }

/-- The stored bytes of a compressed object, as far as they are decrypted. -/
def Req.staged (r : Req) : Bytes := (putPrefix r.plain (unitCount r.obj.stored) 0).take r.obj.stored

/-- A whole stream that decodes without error is kept as the decoded object. -/
theorem riffleDeliver_decodes {tag : Nat} {d : Dev} {r : Req} (hr : mapGet d.reqs tag = some r) (ho : r.op = 0) (hs : r.step = .path)
    (hz : r.obj.compressed = true) (hi : r.riffle.isSome = true) (hn : r.inflated = none) (hl : r.staged.length = r.obj.stored)
    (hcode : (riffleDecode r.staged false (some r.obj.decoded)).code = 0) :
    mapGet (riffleDeliver tag false d).reqs tag = some (r.decoded (riffleDecode r.staged false (some r.obj.decoded)).out) := by
  have ready : ¬(r.op ≠ 0 ∨ r.step ≠ .path ∨ !r.obj.compressed ∨ r.riffle.isNone ∨ r.inflated.isSome) := by
    obtain ⟨i, hi⟩ := Option.isSome_iff_exists.mp hi
    simp [ho, hs, hz, hi, hn]
  unfold riffleDeliver
  simp -zeta only [hr, if_neg ready, Bool.false_eq_true, if_false]
  extract_lets bs res unit
  have code : res.code = 0 := hcode
  have whole : bs.length = r.obj.stored := hl
  rw [if_pos code, if_pos whole, (leaveRiffle_leaves tag _).req, (addNum_leaves _ _ _).req, (addNum_leaves _ _ _).req]
  exact modifyReq_self (fun q => q.decoded res.out) hr

/-! ## Encryption (R187, R189, R193 to R196) -/

/-- What encryption takes of a key. -/
def KeyGen.material (k : KeyGen) : Bytes × Bytes × Bool := (k.key, k.iv, k.explicitIv)

/-- A range's encrypted form depends on the session key's material alone. -/
theorem encryptRange_material {d d' : Dev} {r : Req} (i : Nat) (b : BraidRange) (bs : Bytes)
    (h : (sessKey d' r).map KeyGen.material = (sessKey d r).map KeyGen.material) : encryptRange d' r i b bs = encryptRange d r i b bs := by
  unfold encryptRange
  cases hk : sessKey d r with
  | none =>
    cases hk' : sessKey d' r with
    | none => rfl
    | some k' => simp [hk, hk'] at h
  | some k =>
    cases hk' : sessKey d' r with
    | none => simp [hk, hk'] at h
    | some k' =>
      simp only [hk, hk', Option.map_some, Option.some.injEq, KeyGen.material, Prod.mk.injEq] at h
      obtain ⟨key, iv, explicit⟩ := h
      simp only [key, iv, explicit]

/-- A change of the generation with a number. -/
def KeyGen.onGen (g : Nat) (f : KeyGen → KeyGen) (k : KeyGen) : KeyGen := if k.gen = g then f k else k

section
variable {g : Nat} {f : KeyGen → KeyGen} (hf : ∀ k, (f k).gen = k.gen)
include hf

theorem KeyGen.onGen_gen (k : KeyGen) : (k.onGen g f).gen = k.gen := by
  unfold KeyGen.onGen
  split
  · exact hf k
  · rfl

theorem filter_onGen (x : Option KeyGen) : (x.map (KeyGen.onGen g f)).filter (·.gen = g) = (x.filter (·.gen = g)).map f := by
  cases x with
  | none => rfl
  | some k =>
    by_cases h : k.gen = g
    · simp [Option.filter, h, KeyGen.onGen, hf]
    · simp [Option.filter, KeyGen.onGen_gen hf, h]

/-- A live generation that changes, its number kept, is found changed. -/
theorem slotGen_modifyGen (n : Nat) (d : Dev) : slotGen (modifyGen n g f d) n g = (slotGen d n g).map f := by
  have slot : keySlot (modifyGen n g f d) n = { keySlot d n with
      current := (keySlot d n).current.map (KeyGen.onGen g f)
      retiring := (keySlot d n).retiring.map (KeyGen.onGen g f) } := keySlot_modify _ _ _
  unfold slotGen
  simp only [slot]
  cases (keySlot d n).current with
  | none => exact filter_onGen hf _
  | some k =>
    simp only [Option.map_some, KeyGen.onGen_gen hf, filter_onGen hf]
    by_cases h : k.gen = g
    · simp [h, KeyGen.onGen]
    · simp [h]

end

/-- The counter that a request's encryption uses: its own, or with GCM the next of its session generation (R196). -/
def gcmDrawn (d : Dev) (r : Req) : Option Nat :=
  if imgScheme r.image = 4 ∧ r.gcm = none then (r.sess.bind fun p => (slotGen d p.1 p.2).map KeyGen.gcmNext) else r.gcm

/-- A generation whose next GCM counter has been drawn. -/
def KeyGen.countGcm (k : KeyGen) : KeyGen := { k with gcmNext := (k.gcmNext + 1) % 2 ^ 64 }

/-- A request with its GCM counter. -/
def Req.withGcm (r : Req) (k : Option Nat) : Req := { r with gcm := k }

/-- The start of encryption draws the counter and changes no key material (R196). -/
theorem startEncrypt_drawn {tag : Nat} {d : Dev} {r : Req} (hr : mapGet d.reqs tag = some r)
    (hd : imgScheme r.image = 4 → r.gcm = none → ∃ p, r.sess = some p ∧ (slotGen d p.1 p.2).isSome = true) :
    mapGet (startEncrypt tag d).reqs tag = some (r.withGcm (gcmDrawn d r)) ∧
      (sessKey (startEncrypt tag d) r).map KeyGen.material = (sessKey d r).map KeyGen.material := by
  by_cases h : imgScheme r.image = 4 ∧ r.gcm = none
  · obtain ⟨scheme, fresh⟩ := h
    obtain ⟨⟨n, g⟩, sess, live⟩ := hd scheme fresh
    obtain ⟨k, hk⟩ := Option.isSome_iff_exists.mp live
    have started : startEncrypt tag d = modifyReq tag (fun q => q.withGcm (some k.gcmNext))
        (modifyGen n g KeyGen.countGcm d) := by
      simp only [startEncrypt, hr, scheme, fresh, sess, drawGcm, hk, Option.isNone_none, and_self, if_true]
      rfl
    have drawn : gcmDrawn d r = some k.gcmNext := by
      simp only [gcmDrawn, scheme, fresh, and_self, if_true, sess, Option.bind_some, hk, Option.map_some]
    have key : slotGen (startEncrypt tag d) n g = (slotGen d n g).map KeyGen.countGcm := by
      rw [started]
      exact slotGen_modifyGen (f := KeyGen.countGcm) (fun _ => rfl) n d
    refine ⟨?_, ?_⟩
    · rw [started, drawn]
      exact modifyReq_self _ (((modifyGen_leaves _ _ _ d).req tag).trans hr)
    · simp only [sessKey, sess, Option.bind_some, key, hk, Option.map_some]
      rfl
  · have idle : startEncrypt tag d = d := by
      simp only [startEncrypt, hr, Option.isNone_iff_eq_none, if_neg h]
    have own : gcmDrawn d r = r.gcm := if_neg h
    rw [idle, own]
    exact ⟨hr, rfl⟩

/-- A request whose encryption has ended goes to the DMA (R26). -/
def Req.toDma (r : Req) : Req := { r with sessUse := false, step := .dma }

theorem endEncrypt_req {tag : Nat} {d : Dev} {r : Req} (hr : mapGet d.reqs tag = some r) :
    mapGet (endEncrypt tag d).reqs tag = some (if r.rangesDone < r.ranges.length then r else r.toDma) := by
  unfold endEncrypt
  simp -zeta only [hr]
  by_cases h : r.rangesDone < r.ranges.length
  · rw [if_pos h, if_pos h]
    exact hr
  · rw [if_neg h, if_neg h]
    extract_lets d1
    have ended : mapGet d1.reqs tag = some r.toDma := ((leaveEstuary_leaves tag _).req tag).trans (modifyReq_self (fun r => r.toDma) hr)
    split
    · split
      · exact ((releaseGen_leaves _ _ d1).req tag).trans ended
      · exact ended
    · exact ended

/-- A request with one more range encrypted. -/
def Req.ranged (r : Req) (i : Nat) (bs : Bytes) : Req := { r with output := r.output ++ bs, rangesDone := i + 1 }

/-- The range in its turn, its compare matched, is appended in its encrypted form. -/
theorem encryptNext_appends {tag i : Nat} {same : Bool} {d : Dev} {r : Req} {a : Bytes} {b : BraidRange} (hr : mapGet d.reqs tag = some r)
    (ha : r.asm = some a) (hb : r.ranges[i]? = some b) (ho : r.op = 0) (hs : r.step = .path) (hi : i = r.rangesDone) (hz : imgScheme r.image ≠ 0)
    (hh : holdsUnit d tag r = true) (hsame : b.prot = true → same = true)
    (hd : imgScheme r.image = 4 → r.gcm = none → ∃ p, r.sess = some p ∧ (slotGen d p.1 p.2).isSome = true) :
    let r2 := (r.withGcm (gcmDrawn d r)).ranged i (encryptRange d (r.withGcm (gcmDrawn d r)) i b (slice a b.off b.len))
    mapGet (encryptNext tag i same d).reqs tag = some (if i + 1 < r.ranges.length then r2 else r2.toDma) := by
  intro r2
  obtain ⟨drawn, key⟩ := startEncrypt_drawn hr hd
  have turn : ¬(r.op ≠ 0 ∨ r.step ≠ .path ∨ i ≠ r.rangesDone ∨ imgScheme r.image = 0 ∨ !holdsUnit d tag r) := by simp [ho, hs, hi, hz, hh]
  have matched : (b.prot && !same) = false := by
    cases hp : b.prot with
    | false => rfl
    | true => rw [hsame hp]; rfl
  have bytes : encryptRange (startEncrypt tag d) (r.withGcm (gcmDrawn d r)) i b (slice a b.off b.len) =
      encryptRange d (r.withGcm (gcmDrawn d r)) i b (slice a b.off b.len) := encryptRange_material i b _ key
  unfold encryptNext
  simp only [hr, ha, hb, if_neg turn, drawn, matched, Bool.false_eq_true, if_false, bytes]
  exact endEncrypt_req (modifyReq_self (fun q => q.ranged i _) drawn)

end Sys2Proof.Machine

open Sys2Proof Sys2Proof.Machine

/-- Settles O37: both passes go through `braidPass_ok`, the decoder through `riffleDeliver_decodes`, and a range through `startEncrypt_drawn` and
`endEncrypt_req`. -/
theorem braidRiffleAndEncryptionAdvanceARead : Obligations.BraidRiffleAndEncryptionAdvanceARead := by
  refine ⟨?length, ?assembly, ?riffle, ?encrypt⟩
  case length =>
    intro tag now s r res hr ho hs hc hl hcall ht hx hk ha hobj hb out
    have passes := braidLength_passes (d := advanceTo now s.dev) hr ho hs hc hl hcall ht hx hk ha hobj
    obtain ⟨tm, d0, hd, host, ended⟩ := braidLength_ends (d := advanceTo now s.dev) hr passes hb
    have ran : exec (.braidLengthPass tag now false) s = .next { s with dev := endLength tag res.len d0 } := by
      show Host.Outcome.next { s with dev := braidLength tag false (advanceTo now s.dev) } = _
      rw [ended]
    have queues : hasQueues r.ctrl r.sq s.dev → hasQueues r.ctrl r.sq d0 := fun hq => hq.host host
    refine ⟨fun h0 hfit => ⟨_, ran, ?_⟩, fun hq => ⟨fun h0 hfit => ⟨_, ran, ?_⟩, fun h1 => ⟨_, ran, ?_⟩⟩⟩
    · show mapGet (endLength tag res.len d0).reqs tag = _
      rw [endLength_fits hd h0 hfit]
      exact modifyReq_self _ hd
    · exact endLength_small (r := r.inContext.passedAt tm) hd hc (queues hq) h0 hfit
    · exact endLength_size (r := r.inContext.passedAt tm) hd hc (queues hq) h1
  case assembly =>
    intro tag now s r res hr ho hs hl ha hcall hp hb
    have passes := braidAssembly_passes (d := advanceTo now s.dev) hr ho hs hl ha hcall hp
    obtain ⟨tm, kept⟩ := braidAssembly_keeps (d := advanceTo now s.dev) hr passes hb
    refine ⟨_, (r.passedAt tm).assembled res, rfl, kept, rfl, rfl, fun h => ⟨if_pos h, if_pos h⟩, fun h => ⟨if_neg h, if_neg h⟩⟩
  case riffle =>
    intro tag s r hr ho hs hz hi hn bs hl hcode
    exact ⟨_, rfl, riffleDeliver_decodes hr ho hs hz hi hn hl hcode⟩
  case encrypt =>
    intro tag i same s r a b hr ha hb ho hs hi hz hh hsame hd drawn
    have appended := encryptNext_appends hr ha hb ho hs hi hz hh hsame hd
    have inside : i < r.ranges.length := (List.getElem?_eq_some_iff.mp hb).1
    refine ⟨_, _, rfl, appended, ?_⟩
    by_cases last : i + 1 = r.ranges.length
    · rw [if_neg (by omega), if_pos last]
      exact ⟨rfl, rfl, rfl, rfl⟩
    · rw [if_pos (by omega), if_neg last]
      exact ⟨rfl, rfl, rfl, hs⟩

end
